-- ==== Sys2Proof/Word.lean ====
section
/-!
DEFINITION. The word types: a register is 32 bits (R6), a byte 8, the timebase 64 (R142); sparse data is a list of keyed entries.
-/

namespace Sys2Proof

/-- A register word. -/
abbrev Word := BitVec 32

/-- A byte. -/
abbrev Byte := BitVec 8

/-- A time of the controller's timebase, in units of 2^-16 ns (R142). -/
abbrev Time := BitVec 64

/-- A string of bytes, the one at the lowest address first. -/
abbrev Bytes := List Byte

/-- Sparse data by key, in canonical form: keys strictly rising, no entry equal to what an unlisted key reads as. -/
abbrev Sparse (α : Type) := List (Nat × α)

end Sys2Proof
end

