-- ==== Sys2Proof/Syntax.lean ====
section
/-!
DEFINITION. The commands of the block: one constructor per row of the opcode table, with the data the outside world brings as operands.
-/

namespace Sys2Proof

/-- The source of a register access (R373): Spine with the node, JTAG, the supervisor, or the Colophon loader (R418). -/
inductive Src where
  | spine (node : Nat)
  | jtag
  | internal
  | loader
  deriving DecidableEq, Repr

/-- What the fuses hold (R408, R438): the unique ID, grade, stepping, and the key hash where one is fused (KEYSET). [DESIGN CHOICE, log 5] -/
structure Fuses where
  uid : Bytes := List.replicate 16 0
  grade : Nat := 0
  major : Nat := 1
  minor : Nat := 0
  keyHash : Option Bytes := none
  deriving DecidableEq, Repr

/-- A Spine frame's fields (R328), the link sequence and the CRCs apart. -/
structure Frame where
  dst : Nat
  src : Nat
  vl : Nat
  dr : Bool
  ll : Bool
  soq : Bool
  hop : Nat
  ty : Nat
  status : Nat
  tag : Nat
  gen : Nat
  payload : Bytes
  deriving DecidableEq, Repr

/-- What the far end's CFG blocks say during bring-up (R330, R336): stage code, widths supported (bit per width code), usable physical
lanes, port number, node address and whether it is valid, unique ID, the credit limits per VL, whether the far end reports CONFIG complete, and whether it asks for the
far-end loop of the lane test (R353). [DESIGN CHOICE, log 86] -/
structure Cfg where
  stage : Nat
  widths : Nat
  lanes : Nat
  port : Nat
  node : Nat
  valid : Bool
  uid : Bytes
  credits : List Nat
  complete : Bool
  loop : Bool := false
  deriving DecidableEq, Repr

/-- What a Spine lane received from one alignment marker to the next (R327): the blocks after the previous AM, each by its 64 payload bits, and the AM block itself. -/
structure AmRx where
  blocks : List (BitVec 64)
  am : BitVec 64
  deriving DecidableEq, Repr

/-- A scan of the boundary register (R459): what is shifted in, and the levels that the board gives the balls of its cells. -/
structure BScan where
  dr : BitVec 512
  pins : BitVec 512
  deriving DecidableEq, Repr

/-- An encoder or TOF input as ECLK samples it (R126, R135): its level, and for how many consecutive samples it has had that level. -/
structure EncIn where
  high : Bool
  samples : BitVec 8
  deriving DecidableEq, Repr


/-- A TOF input at a change (R135): as ECLK samples it, and how far into the TBCLK cycle. -/
structure TofIn where
  pin : EncIn
  frac : BitVec 16
  deriving DecidableEq, Repr

/-- Which four-byte reads the flash's table lists (R382): 0x0C and 0x6C. -/
structure Reads4 where
  read4 : Bool
  quad4 : Bool
  deriving DecidableEq, Repr

/-- A CSI-2 packet header as received (R221): virtual channel, whether its VCX extension bits are not 0, whether the ECC corrected a bit, and whether it
could not correct the header. -/
structure CsiHdr where
  vc : BitVec 2
  vcx : Bool
  cor : Bool
  bad : Bool
  deriving DecidableEq, Repr
/-- The commands and events of the opcode table, one constructor a row; each docstring is the table's rule and what happens. -/
inductive Instr where
  /-- R410: PWRGOOD rises and the device goes from OFF to RESET. -/
  | pwrgoodRise
  /-- R449: PWRGOOD falls; the device goes OFF, drives every FEN low and clears pending injections. -/
  | pwrgoodFall
  /-- R410: RESET_N goes low and the device enters RESET from any state other than OFF. -/
  | resetNAssert
  /-- R408: RESET_N rises, FOLIO_ROLE is sampled and PLL locking begins. -/
  | resetNRelease (role : Bool)
  /-- R408: The PLLs lock, JTAG access becomes possible and fuse reading begins. -/
  | pllLock
  /-- R408: The fuses have been read, and SRAM initialisation begins. -/
  | fuseReadDone (f : Fuses)
  /-- R408: Every SRAM array holds valid check bits; the device enters LOAD and starts flash discovery. -/
  | sramInitDone
  /-- R382: SFDP discovery ends; read commands are prepared, or the attempt fails with code FLASH. -/
  | flashDiscoveryDone (sfdpOk bfptOk addr4 : Bool) (table : Reads4) (quad : Option (Fin 8))
  /-- R390: Both copy headers have been read and the copy to attempt first is chosen. -/
  | imageHeadersRead (h0 h1 : Bytes)
  /-- R391: The verify pass of a copy ends: its checks and digest are complete, or the copy is invalid. -/
  | verifyPassDone (img : Bytes)
  /-- R392: The apply pass completes; the image is in force, CLO_LOAD is recorded and FILL begins. -/
  | applyPassDone (img : Bytes)
  /-- R297: A subchannel completes power-up, initialisation and the RFM check in FILL step 1. -/
  | dramInitDone (sc : Fin 4) (ok : Bool)
  /-- R297: A subchannel completes FILL step 2: ZQ, CS/CA training, leveling and 1-D centering. -/
  | dramTrain1dDone (sc : Fin 4) (ok : Bool)
  /-- R297: A subchannel has written every codeword; when all are done FILLED is set and TRAIN begins. -/
  | fillWriteDone (sc : Fin 4) (ok : Bool)
  /-- R298: A subchannel completes 2-D training in TRAIN; the device may leave TRAIN. -/
  | dramTrain2dDone (sc : Fin 4) (ok : Bool)
  /-- R409: TRAINTMO expires; the device leaves TRAIN, or enters FAULT after a failed load. -/
  | trainTimeout
  /-- R7: A register or table-window write without behaviour of its own is applied under its access code and class. -/
  | registerWrite (src : Src) (a : Word) (w : Word)
  /-- R7: A read of an RC field returns its value and resets it. -/
  | counterReadClear (src : Src) (a : Word)
  /-- R146: A read of a _LO timebase or position register latches its _HI register and the epoch. -/
  | timebaseReadLatch (src : Src) (i : Fin 4)
  /-- R242: A read of word 0 of a statistics record latches words 1 to 5. -/
  | statsRecordRead (src : Src) (q : Fin 131072)
  /-- R423: A read of word 0 of a log entry latches words 1 to 7. -/
  | errLogRead (src : Src) (i : Fin 256)
  /-- R441: Update-DR of REGACC with START set begins one register access. -/
  | jtagRegaccUpdate (dr : BitVec 66)
  /-- R441: A JTAG register access completes and DONE and ERR are available at the next capture. -/
  | jtagRegaccDone
  /-- R459: EXTEST drives outputs from the boundary register and holds the logic in RESET; the scan of the register that follows, if any. -/
  | jtagExtest (scan : Option BScan := none)
  /-- R458: SAMPLE/PRELOAD selects the boundary-scan register; the scan of the register that follows, if any. -/
  | jtagSamplePreload (scan : Option BScan := none)
  /-- R459: CLAMP drives outputs from the boundary register with bypass selected and holds the logic in RESET. -/
  | jtagClamp
  /-- R459: HIGHZ places every boundary-scan output high-impedance and holds the logic in RESET. -/
  | jtagHighz
  /-- R458: IDCODE selects the 32-bit identification register. -/
  | jtagIdcode
  /-- R458: BYPASS, or any unlisted code, selects the 1-bit bypass register. -/
  | jtagBypass
  /-- R348: A quire-data frame reaches ingress and is reassembled by source node. -/
  | qdFrameReceive (p : Fin 5) (f : Frame)
  /-- R46: A quire held under back-pressure proceeds once a reassembly slot, signature window, pages or a directory entry free. -/
  | ingressResume
  /-- R55: An engine starts a quire once its ring has D free bytes, choosing among ready contexts. -/
  | inflateStart (m : Fin 32)
  /-- R52: A store read returns an uncorrectable error; the engine abandons the quire and requests a DRAM_UE re-send. -/
  | inflateReadError (m : Fin 32)
  /-- R51: An inflation ends and both trailer CRCs are compared; the quire is released, retried or re-sent. -/
  | inflateDone (m : Fin 32)
  /-- R63: A request that waited for one of the 256 outstanding slots is posted. -/
  | resendPost
  /-- R62: An attempt's TMO expires with no good copy; the next attempt is posted or the re-send ends. -/
  | resendAttemptEnd (sig : Word) (c : Fin 128) (first : Word)
  /-- R67: QRE_SIGCMD ABORT frees the named queued signature's quires and cancels its re-sends. -/
  | signatureAbort (src : Src)
  /-- R34: A STANDBY write that changes QRE_SIGBASE frees every stored quire below it. -/
  | sigbaseWrite (src : Src) (w : Word)
  /-- R54: A STANDBY write that changes QRE_CTXEN empties quire state and divides the look-ahead anew. -/
  | ctxenWrite (src : Src) (k : Fin 4) (w : Word)
  /-- R372: A compressor starts the next upload in request order and reserves buffer space or refuses it. -/
  | uploadStart (n : Fin 4)
  /-- R372: An upload ends; WPTR advances and the announcing descriptor is posted. -/
  | uploadDone (n : Fin 4)
  /-- R126: An accepted encoder edge changes and stamps the count. -/
  | encoderEdge (e : Fin 2) (a b : EncIn) (frac : BitVec 16)
  /-- R127: A Z edge latches the position and, when armed, loads POS_ZVAL. -/
  | encoderIndexEdge (e : Fin 2)
  /-- R127: POS_CMD.ZARM arms index homing in STANDBY, or is logged otherwise. -/
  | zarm (src : Src)
  /-- R135: An active TOF edge is stamped and, when selected, forms a start event. -/
  | tofEdge (n : Fin 2) (x : TofIn)
  /-- R135: POS_CMD.START forms a software start event, or is logged when not allowed. -/
  | startCommand (src : Src)
  /-- R76: A pipeline finishes steps 1 to 7 of a module-line and its outputs go to step 8. -/
  | gatherLineDone (m : Fin 32)
  /-- R98: Every 64 module-lines each applied trim moves one step toward its target. -/
  | trimRampStep
  /-- R103: The scheduled t_f of a module-line arrives; FEN rises, or an SK block is sent. -/
  | fireTime (m : Fin 32)
  /-- R180: Slot g of a line starts: the cut-off of bundle g. -/
  | fireGroupSlot (m : Fin 32)
  /-- R103: FEN falls at t_f + 16 × SLOT. -/
  | fenFall (m : Fin 32)
  /-- R117: FEN stays high beyond LIMIT; it is forced low, the cut latches and FEN_CUT is raised. -/
  | fenWatchdogCut (m : Fin 32)
  /-- R118: Writing 1 to FIR_WDSTS bit m clears a cut while the internal drive is low. -/
  | fenCutClear (src : Src) (w : Word)
  /-- R28: REFCLK0 shows no edge for 40 ns and every FEN is forced low. -/
  | refclk0Loss
  /-- R31: The FEN output path is calibrated at an endpaper or once per second in RUN. -/
  | outputPathCalibration
  /-- R144: An armed timebase event time is reached; it disarms, raises TB_EVTn and may post. -/
  | tbEventFire (n : Fin 8)
  /-- R145: TMB_CMD.SET steps a master's timebase to TMB_SET. -/
  | timebaseSet (src : Src)
  /-- R150: The master sends HB_SYNC every INT µs on every live port. -/
  | hbSyncSend
  /-- R151: A follower accepts or rejects an HB_SYNC, forwards it and steers or steps. -/
  | hbSyncReceive (p : Fin 4) (f : Frame) (frac : BitVec 16) (residence : List (BitVec 48))
  /-- R152: No HB_SYNC is accepted for 8 × INT and the follower enters holdover. -/
  | syncLoss
  /-- R153: A PPS_IN edge is stamped and a disciplined master steers or steps. -/
  | ppsEdge (rising : Bool) (frac : BitVec 16)
  /-- R149: A follower sends HB_PDREQ on each live port every PDINT ms. -/
  | hbPdreqSend
  /-- R149: The device answers an HB_PDREQ with HB_PDRESP. -/
  | hbPdreqReceive (p : Fin 4) (f : Frame) (frac : BitVec 16) (turn : BitVec 48)
  /-- R149: A response yields a new d_p for TMB_PDELAYp. -/
  | hbPdrespReceive (p : Fin 4) (f : Frame) (frac : BitVec 16)
  /-- R149: A peer-delay response not arriving within 1 ms is discarded. -/
  | pdrespTimeout (p : Fin 4)
  /-- R155: A beacon owner sends HB_BEACON every 10 µs. -/
  | beaconSend
  /-- R156: A follower updates its position estimate or changes follower state. -/
  | hbBeaconReceive (p : Fin 5) (f : Frame)
  /-- R157: No usable beacon for 15 µs; the follower extrapolates. -/
  | beaconExtrap
  /-- R157: 100 µs without a usable beacon; position freezes, POS_BCNLOST and POSLOST. -/
  | beaconHold
  /-- R156: A follower's estimate reaches a grid boundary at its predicted time and issues the trigger. -/
  | followerTrigger
  /-- R158: A missed trigger is issued T_cfg after the previous one with D = MINADV. -/
  | catchupTrigger
  /-- R168: A lane probes for termination every 100 µs and enters TRAIN when found. -/
  | thlDetectProbe (m : Fin 32) (found : Bool)
  /-- R168: After 500 µs of pattern the receiver has bit lock and the lane enters BITLOCK. -/
  | thlBitLock (m : Fin 32)
  /-- R168: A TS block reports the far end's stage; BITLOCK may advance to BLOCKLOCK. -/
  | thlTsReceive (m : Fin 32) (b : Bytes) (locked : Bool)
  /-- R169: A capability frame is checked; SYNC, TIMING and FAILMODE follow, or the lane enters CAPEX. -/
  | thlCpReceive (m : Fin 32) (b : Bytes)
  /-- R187: A command response completes the outstanding command. -/
  | thlCrReceive (m : Fin 32) (b : Bytes)
  /-- R187: No CR within 10 µs; the command is repeated, or THL_CMDTMO is recorded. -/
  | thlCmdTimeout (m : Fin 32)
  /-- R168: A bring-up or RECOVER stage exceeds its limit and fails. -/
  | thlStageTimeout (m : Fin 32)
  /-- R168: 1 ms after a failure the lane returns to DETECT; a third failure records THL_TRAINFAIL. -/
  | thlRetryDelayEnd (m : Fin 32)
  /-- R179: An AK block acknowledges a bundle, or a NAK starts its re-send. -/
  | thlAkReceive (m : Fin 32) (b : Bytes)
  /-- R179: No AK within TACK of a copy; a re-send starts unless NRS is used up. -/
  | thlAckTimeout (m : Fin 32) (lfn : BitVec 16) (g : Fin 16)
  /-- R166: The block count reaches 990 and an IDLE block is sent at the next allowed boundary. -/
  | thlIdleInsert (m : Fin 32)
  /-- R183: A status frame is received and its temperature, faults, blank groups, ownership and results are used. -/
  | thlStatusFrame (m : Fin 32) (b : Bytes)
  /-- R121: 64 consecutive line frames without a valid status frame make the module hot, with FIR_TLOST. -/
  | moduleStatusLost (m : Fin 32)
  /-- R193: An ACTIVE lane loses block lock and enters RECOVER. -/
  | thlLockLoss (m : Fin 32)
  /-- R193: 16 invalid sync headers within 2^14 blocks put the lane in RECOVER. -/
  | thlSyncErrorLimit (m : Fin 32)
  /-- R168: THL_CMD.RETRAIN enters RECOVER, or leaves CAPEX for TRAIN. -/
  | thlRetrain (src : Src) (m : Fin 32)
  /-- R195: THL_CMD.RESTORE in STANDBY returns a retired lane to DETECT. -/
  | thlRestore (src : Src) (m : Fin 32)
  /-- R196: THL_CMD.TEST sends LOOP on and moves an ACTIVE lane to TEST. -/
  | thlTest (src : Src) (m : Fin 32)
  /-- R196: THL_CMD.TESTEXIT sends LOOP off and retrains the lane. -/
  | thlTestexit (src : Src) (m : Fin 32)
  /-- R197: The next bundle copy is sent with a corrupted CRC. -/
  | thlInjBcrc (src : Src) (m : Fin 32)
  /-- R197: The next FS block is sent with a corrupted CRC-8. -/
  | thlInjHcrc (src : Src) (m : Fin 32)
  /-- R197: The next AK received is discarded. -/
  | thlInjAckdrop (src : Src) (m : Fin 32)
  /-- R197: The next status frame is treated as failing its CRC. -/
  | thlInjScrc (src : Src) (m : Fin 32)
  /-- R197: The receiver is forced out of block lock. -/
  | thlInjBlkloss (src : Src) (m : Fin 32)
  /-- R196: One bit error is injected into the PRBS test pattern. -/
  | thlPrbsInj1 (src : Src) (m : Fin 32)
  /-- R206: The primary sends MEAS to a module when measurement is allowed. -/
  | measSend (m : Fin 32)
  /-- R202: A software write to a map entry changes the WRMASK fields, directly or staged. -/
  | nozzleMapWindowWrite (src : Src) (i : Fin 131072) (w : Word)
  /-- R204: A write that waited for space enters a full staging list and takes its K. -/
  | mapWriteStage (m : Fin 32)
  /-- R209: NZH_CMD.SWEEP starts a sweep of every enabled module in STANDBY. -/
  | nozzleSweep (src : Src)
  /-- R218: NZH_CMD.DUMP requests an upload of all modules. -/
  | nozzleMapDump (src : Src)
  /-- R218: NZH_CMD.DUMPDIRTY requests an upload of the dirty modules. -/
  | nozzleMapDumpDirty (src : Src)
  /-- R220: The next valid result of module MOD is classified with CODE. -/
  | nzhInjArm (src : Src) (m : Fin 32) (code : BitVec 10)
  /-- R223: CTRIGk rises at its scheduled time. -/
  | ctrigRise (k : Fin 4)
  /-- R223: CTRIGk falls CWID ns after rising. -/
  | ctrigFall (k : Fin 4)
  /-- R223: LSTBk rises at its scheduled time. -/
  | lstbRise (k : Fin 4)
  /-- R223: LSTBk falls SWID ns after rising. -/
  | lstbFall (k : Fin 4)
  /-- R225: An FS packet opens a frame and takes its anchor, or flags NOTRIG. -/
  | csiFrameStart (p : Fin 4) (h : CsiHdr) (num : BitVec 16)
  /-- R226: An FE packet ends a frame, padding missing rows. -/
  | csiFrameEnd (p : Fin 4) (h : CsiHdr)
  /-- R226: A pixel row arrives, is checked and enters its port FIFO. -/
  | csiLongPacket (p : Fin 4) (h : CsiHdr) (dt : BitVec 6) (b : Bytes) (crcOk : Bool)
  /-- R221: A D-PHY lane enters or leaves HS, ULPS or a deskew sequence. -/
  | dphyStateChange (p : Fin 4) (hs ulps deskew : Bool)
  /-- R227: The idle pipeline takes the oldest waiting frame and copies its parameters. -/
  | pipelineFrameTake
  /-- R241: A frame finishes the pipeline; registration is decided and statistics merge. -/
  | pipelineFrameDone
  /-- R242: INS_CMD.CLRSTAT clears every statistics record in STANDBY. -/
  | insClrstat (src : Src)
  /-- R245: INS_CMD.RESTORE restarts the named camera ports in STANDBY. -/
  | insRestore (src : Src) (ports : BitVec 4)
  /-- R246: The next packet header on PORT is treated as uncorrectable. -/
  | insInjHdrecc (src : Src) (p : Fin 4)
  /-- R246: The next long-packet CRC on PORT fails. -/
  | insInjPcrc (src : Src) (p : Fin 4)
  /-- R246: The next row on PORT finds its FIFO full. -/
  | insInjOvf (src : Src) (p : Fin 4)
  /-- R246: The next frame on PORT is marked REGFAIL. -/
  | insInjRegfail (src : Src) (p : Fin 4)
  /-- R249: After SETTLE × 256 lines a module becomes quiet and its records are cleared. -/
  | quietOnset (m : Fin 32)
  /-- R254: 2^INTLG module-lines since the last publication make one pending. -/
  | publicationInterval (m : Fin 32)
  /-- R255: The solve ends; new targets are staged and CAL_PUBLISH is posted. -/
  | publicationDone (m : Fin 32)
  /-- R254: CAL_CMD.PUBLISH makes a publication pending in RUN. -/
  | calPublishCmd (src : Src) (m : Fin 32) (all : Bool)
  /-- R262: CAL_CMD.FF runs a flat-field publication of a context in RUN. -/
  | calFfCmd (src : Src) (c : Fin 8)
  /-- R262: Every FFPER seconds a flat-field publication runs. -/
  | flatfieldPeriodic (c : Fin 8)
  /-- R261: A periodic visit tests a statistics record for an optical-dead nozzle. -/
  | streakVisit (i : Fin 131072)
  /-- R265: The next streak visit to nozzle Q of MOD declares it dead. -/
  | calInjArm (src : Src) (m : Fin 32) (q : BitVec 12)
  /-- R275: The peer's line digest is compared with the member's own. -/
  | folLineReceive (p : Fin 5) (f : Frame)
  /-- R205: The standby stages forwarded writes for their E. -/
  | folFwdReceive (p : Fin 5) (f : Frame)
  /-- R269: The standby takes a start event from the primary. -/
  | folStartReceive (p : Fin 5) (f : Frame)
  /-- R271: The peer's state, role and K_h are taken. -/
  | folStateReceive (p : Fin 5) (f : Frame)
  /-- R272: A configuration or self-check digest from the peer is compared. -/
  | folDigestReceive (p : Fin 5) (f : Frame)
  /-- R282: A join request, grant or revert is acted on. -/
  | folJoinReceive (p : Fin 5) (f : Frame)
  /-- R267: Each member sends FOL_STATE every 100 µs. -/
  | folStateSend
  /-- R279: No folio frame for PTMO µs; peer loss, isolation or promotion follows. -/
  | folPeerTimeout
  /-- R277: The self-check scrub ends; the check passes or the standby retires. -/
  | selfcheckScrubDone
  /-- R277: 2^CLEARN clean lines clear SUSPECT. -/
  | suspectClear
  /-- R283: The join taint span ends; JOINING clears. -/
  | joinSpanEnd
  /-- R276: FOL_CMD.SELFCHK starts a self-check in RUN. -/
  | folSelfchkCmd (src : Src)
  /-- R281: FOL_CMD.JOIN starts a join at FOL_JOINSIG in STANDBY. -/
  | folJoinCmd (src : Src)
  /-- R284: FOL_CMD.SWAP moves every module to the other lane at the next signature. -/
  | folSwapCmd (src : Src)
  /-- R287: The next self-check digest is sent corrupted. -/
  | folInjCfgdig (src : Src)
  /-- R287: The next FOL_LINE is not sent. -/
  | folInjDrop (src : Src)
  /-- R287: The next FOL_LINE carries a corrupted digest of module MOD. -/
  | folInjDigest (src : Src) (m : Fin 32)
  /-- R304: A master's request enters a subchannel queue with its class. -/
  | dramRequest (master : Fin 10) (a : BitVec 40) (wr : Bool) (b : Bytes) (len : Fin 65) (node : BitVec 16)
  /-- R306: A queued write issues to DRAM during a drain or when reads are absent. -/
  | dramWriteIssue (sc : Fin 4)
  /-- R295: Read data returns and is decoded into clean, corrected, poisoned or failed. -/
  | dramReadDone (sc : Fin 4) (errs errs2 : List (Fin 80 × Byte))
  /-- R318: ALERT_n causes replay of the writes in the alert window. -/
  | writeCrcAlert (sc : Fin 4)
  /-- R300: A rank's owed refresh count increments. -/
  | refreshTick (sc : Fin 4) (rank : Fin 2)
  /-- R300: An owed REFab is issued once no URGENT request is queued. -/
  | refreshIssue (sc : Fin 4) (rank : Fin 2)
  /-- R302: MR4 is read and the refresh rate factor updated. -/
  | mr4Poll (sc : Fin 4) (rank : Fin 2) (rate : Fin 3)
  /-- R299: A write- or read-tracking step runs on a subchannel. -/
  | periodicRetrainStep (sc : Fin 4) (moved : BitVec 16) (readErr : Bool)
  /-- R317: The scrubber reads the next codeword of its patrol. -/
  | patrolRead (sc : Fin 4) (errs errs2 : List (Fin 80 × Byte))
  /-- R320: MEM_CMD.RESTORE retrains and refills named subchannels in STANDBY. -/
  | memRestore (src : Src) (scs : BitVec 4)
  /-- R317: MEM_CMD.PASS starts an immediate patrol pass. -/
  | memPass (src : Src)
  /-- R321: MEM_TEST.BYPASS is set or cleared in STANDBY. -/
  | memBypassWrite (src : Src) (on : Bool)
  /-- R322: The next codeword write on SC is stored corrupted. -/
  | memInjArm (src : Src) (sc : Fin 4) (dev : Bool) (val : Byte) (s2 s1 : BitVec 7)
  /-- R322: The next write CRC on SC is corrupted. -/
  | memInjWcrc (src : Src) (sc : Fin 4)
  /-- R332: A port probes for termination every 100 µs. -/
  | spnDetectProbe (p : Fin 4) (lanes : BitVec 4)
  /-- R332: Every used lane has bit lock and the port enters ALIGN. -/
  | spnBitLock (p : Fin 4) (lanes : BitVec 4)
  /-- R330: A CFG block advances bring-up and chooses the width. -/
  | spnCfgReceive (p : Fin 4) (m : Option Cfg)
  /-- R332: A bring-up or RECOVER stage exceeds its limit. -/
  | spnStageTimeout (p : Fin 4)
  /-- R332: 1 ms after a failure the port returns to DETECT. -/
  | spnRetryDelayEnd (p : Fin 4)
  /-- R327: Every 16,384 block times AM blocks are sent on each lane. -/
  | spnAmSend (p : Fin 4)
  /-- R327: An AM block deskews lanes and checks BIP-8. -/
  | spnAmReceive (p : Fin 4) (l : Fin 4) (rx : AmRx) (deskewed : Bool) (farStage : Nat)
  /-- R354: A lane loses block lock and the port enters RECOVER. -/
  | spnLockLoss (p l : Fin 4)
  /-- R354: 16 invalid sync headers in 2^14 blocks send the port to RECOVER. -/
  | spnSyncErrorLimit (p l : Fin 4)
  /-- R333: A frame is checked against sequence and CRCs, then accepted or discarded. -/
  | spineFrameReceive (p : Fin 4) (b : Bytes) (residence : BitVec 48)
  /-- R334: An ACK frees replay-buffer frames. -/
  | spnAckReceive (p : Fin 4) (blk : BitVec 64)
  /-- R334: A NAK replays frames from S. -/
  | spnNakReceive (p : Fin 4) (blk : BitVec 64)
  /-- R336: A CREDIT block returns VL credits. -/
  | spnCreditReceive (p : Fin 4) (blk : BitVec 64)
  /-- R333: An ACK is sent within ACKINT, every 8 frames or every 1 µs. -/
  | spnAckSend (p : Fin 4)
  /-- R336: Cumulative credits are repeated every 1 µs. -/
  | spnCreditRepeat (p : Fin 4)
  /-- R334: The oldest unacknowledged frame waits RTMO and is replayed. -/
  | spnReplayTimeout (p : Fin 4)
  /-- R344: A read request is executed and answered. -/
  | rdReqReceive (p : Fin 5) (f : Frame)
  /-- R344: An acknowledged write is executed and answered. -/
  | wrReqReceive (p : Fin 5) (f : Frame)
  /-- R344: A posted write is executed. -/
  | wrPostReceive (p : Fin 5) (f : Frame)
  /-- R347: A response is matched by tag and generation. -/
  | respReceive (p : Fin 5) (f : Frame)
  /-- R347: No response within CTO; the request completes with a timeout. -/
  | completionTimeout (tag : Fin 1024)
  /-- R342: A discovery flood is recorded, answered and forwarded. -/
  | discReceive (p : Fin 4) (f : Frame)
  /-- R343: A discovery response reaches the root. -/
  | discRespReceive (p : Fin 5) (f : Frame)
  /-- R349: An attestation request starts signing, or gets BUSY. -/
  | attestReqReceive (p : Fin 5) (f : Frame)
  /-- R349: Signing ends and ATTEST_RESP is sent. -/
  | attestSignDone
  /-- R342: SPN_CTL.DISCGO starts a flood on a root. -/
  | spnDiscgo (src : Src)
  /-- R352: SPN_QCMD ADMIT with the right CHECK takes the device out of QUARANTINE. -/
  | spnQcmdAdmit (src : Src) (check : BitVec 16)
  /-- R352: SPN_PCMD ADMIT with the right CHECK clears MGMTONLY. -/
  | spnPcmdAdmit (src : Src) (p : Fin 4) (check : BitVec 16)
  /-- R353: SPN_PCMD.TEST moves the port to TEST. -/
  | spnPcmdTest (src : Src) (via : Option (Fin 4)) (p : Fin 4)
  /-- R353: SPN_PCMD.TESTEXIT retrains the port. -/
  | spnPcmdTestexit (src : Src) (p : Fin 4)
  /-- R355: SPN_PCMD.RESTORE clears retirements and returns the port to DETECT. -/
  | spnPcmdRestore (src : Src) (p : Fin 4)
  /-- R354: SPN_PCMD.RETRAIN puts the port in RECOVER. -/
  | spnPcmdRetrain (src : Src) (p : Fin 4)
  /-- R356: The next frame is sent with a corrupted frame CRC. -/
  | spnInjFcrc (src : Src) (p : Fin 4)
  /-- R356: The next frame is sent with a corrupted header CRC. -/
  | spnInjHcrc (src : Src) (p : Fin 4)
  /-- R356: The next ACK received is discarded. -/
  | spnInjAckdrop (src : Src) (p : Fin 4)
  /-- R356: One invalid sync header is sent on LANE. -/
  | spnInjLaneerr (src : Src) (p l : Fin 4)
  /-- R356: LANE is forced out of block lock. -/
  | spnInjBlkloss (src : Src) (p l : Fin 4)
  /-- R353: One bit error is injected on each lane of the test. -/
  | spnPrbsInj1 (src : Src) (p : Fin 4)
  /-- R360: CTL.GO sends a mailbox message, which is taken, completed or rejected. -/
  | mbxGo (src : Src) (c : Fin 64) (w : Word)
  /-- R363: CTL.WITHDRAW withdraws a PENDING message. -/
  | mbxWithdraw (src : Src) (c : Fin 64)
  /-- R359: An OWNER write claims or releases a channel. -/
  | mbxOwnerWrite (src : Src) (c : Fin 64) (w : Word)
  /-- R366: A change of EN from 0 to 1 resets HEAD, TAIL and FAULT. -/
  | ringEnableWrite (src : Src) (n : Fin 128) (w : Word)
  /-- R366: A TAIL write frees descriptors, or is ignored and logged. -/
  | ringTailWrite (src : Src) (n : Fin 128) (w : Word)
  /-- R369: A subchannel accepts a descriptor write and HEAD advances. -/
  | descriptorWriteAccepted
  /-- R371: A descriptor write gets an error; FAULT is set and MBX_RINGMEM recorded. -/
  | descriptorWriteError
  /-- R370: A moderated NOTIFY is sent for a ring or for attention. -/
  | notifySend (n : Option (Fin 128))
  /-- R377: The 1 µs minimum low time of HRB ends and HRB may rise. -/
  | hrbMinLowEnd
  /-- R373: A lock read acquires a free lock or returns the holder. -/
  | lockRead (src : Src) (i : Fin 256)
  /-- R373: The holder's write releases the lock; others are refused. -/
  | lockWrite (src : Src) (i : Fin 256) (w : Word)
  /-- R375: MBX_LOCKCMD.FORCE releases lock INDEX. -/
  | lockcmdForce (src : Src) (i : Fin 256)
  /-- R375: MBX_LOCKCMD.ALLNODE releases every lock of a holder. -/
  | lockcmdAllnode (src : Src) (code : BitVec 2) (node : BitVec 16)
  /-- R439: Writing 1 to latched GLB_ATTN bits clears them. -/
  | glbAttnClear (src : Src) (w : Word)
  /-- R398: A round dispatches at most one pending event per machine. -/
  | supervisorRound
  /-- R400: A machine's timer expires and raises TIMER. -/
  | smtTimerExpire (m : Fin 16)
  /-- R415: SMT_EVCMD raises a software event or injects a hardware one. -/
  | smtEvcmdWrite (src : Src) (code : BitVec 6) (param : BitVec 16)
  /-- R400: SMT_DEVREQ.RUN raises REQ_RUN. -/
  | smtDevreqRun (src : Src)
  /-- R400: SMT_DEVREQ.HOLD raises REQ_HOLD. -/
  | smtDevreqHold (src : Src)
  /-- R400: SMT_DEVREQ.STOP raises REQ_STOP. -/
  | smtDevreqStop (src : Src)
  /-- R406: SMT_DEVREQ.CUT cuts the current signature in HOLD. -/
  | smtDevreqCut (src : Src)
  /-- R415: Writing 1 to SMT_MPENDm bits clears pending local events. -/
  | smtMpendClear (src : Src) (m : Fin 16) (w : Word)
  /-- R414: CLO_CMD.REBOOT with the key acts as a reset pulse. -/
  | cloReboot (src : Src) (key : BitVec 16)
  /-- R394: CLO_FCTL.GO starts a software flash transfer. -/
  | cloFlashGo (src : Src) (w : Word)
  /-- R394: A software flash transfer completes and BUSY clears. -/
  | cloFlashDone (data : Bytes)
  /-- R421: RUNGAP passes with no event and an open record closes. -/
  | errRunClose (key : List Nat)
  /-- R422: An ERR_TAIL write frees records, or records ERR_TAILPTR. -/
  | errTailWrite (src : Src) (w : Word)
  /-- R425: ERR_CMD.DUMP uploads the log. -/
  | errDump (src : Src)
  /-- R424: ERR_CMD.BLKCLR clears the per-block first records. -/
  | errBlkclr (src : Src)
  /-- R424: ERR_CMD.FIRSTCLR clears ERR_FIRST and FIRSTV. -/
  | errFirstclr (src : Src)
  /-- R432: ERR_INJ.ARM arms one injection. -/
  | errInjArm (src : Src) (id : BitVec 7) (inst : BitVec 8) (arg : BitVec 16)
  /-- R25: The SRAM scrubber checks a word and corrects or poisons it. -/
  | sramScrub (array : Fin 11) (word : Nat) (ue : Bool)
  /-- R438: A junction-temperature conversion updates GLB_TJ every 1 ms. -/
  | tjConversion (t : BitVec 16)
  /-- R28: REFCLK0 edges return after a loss, ending the loss-of-clock detector's forced-low hold on the FEN outputs. -/
  | refclk0Return
  /-- R196: Looped-back PRBS bits reach a Thread lane's checker in TEST, which synchronises, sets LOCK after 64 error-free bits and counts errors in THL_PRBSERR. -/
  | thlPrbsCheck (m : Fin 32) (bits : List Bool)
  /-- R353: PRBS bits reach each lane checker of a Spine port in TEST, which locks per lane (LOCKl) and counts errors in SPN_PRBSERRl. -/
  | spnPrbsCheck (p l : Fin 4) (bits : List Bool)
  /-- R327: A Spine lane receives a block with an invalid sync header, counts a lane block error in SPN_CNT_BLKERRl and may retire the lane under R355. -/
  | spnInvalidSyncHeader (p l : Fin 4)
  /-- R221: A CSI-2 short packet other than FS or FE is received: line start and end are ignored, and other data types are discarded and counted in INS_CNT_OTHERDT. -/
  | csiShortPacket (p : Fin 4) (h : CsiHdr) (dt : BitVec 6)
  /-- R262: A flat-field publication completes: the new bank is written, FFBANK switches unless a same-cycle software write prevails, substrate records clear and CAL_CNT_FFPUB increments. -/
  | flatfieldPublicationDone (c : Fin 8)
  /-- R275: No peer FOL_LINE arrives within PTMO µs after a member's own; FOL_CNT_PEERMISS increments, and a long run records FOL_PEERLOST and raises FOLIO_PEERLOST. -/
  | folLineTimeout
  /-- R357: 1 ms after a flood started here, SPN_STS.DISCBUSY clears. -/
  | discFloodWindowEnd
  deriving DecidableEq, Repr

end Sys2Proof
end

