-- ==== Sys2Proof/Decode.lean ====
section
/-!
DEFINITION. The command that a word spells. No row of the opcode table gives bits: the device takes commands and events, not instruction words.
-/

namespace Sys2Proof

/-- The command that a table word spells: none, since the table gives no row any bits. [DEDUCED, log 8] -/
def decodeTableWord (_nbits _w : Nat) : Option Instr := none

end Sys2Proof
end

