-- ==== Sys2Proof/Config.lean ====
section
/-!
DEFINITION. What an implementation fixes and the free values: constants without a body, so that nothing can be proved about their values.
-/

namespace Sys2Proof

/-- What reserved bits read as at the n-th such read (R7, R8: undefined). [DESIGN CHOICE, log 7, 13] -/
opaque Config.reservedBits : Nat → BitVec 32

/-- A value the spec states nowhere, for the n-th such value drawn. [DESIGN CHOICE, log 7; DEDUCED, log 100] -/
opaque Config.freeValue : Nat → Nat

/-- How upload compressor n, under its UPCFG word, codes a block in the fixed or the dynamic form: the bits after the block's header, given the input before it and the
block (R68, R70: the matches and the dynamic codes are open). [DESIGN CHOICE, log 48] -/
opaque Config.blockCode : Nat → Nat → Bool → Bytes → Bytes → List Bool

/-- The attestation private key (R349): fused, and readable by nobody. [DESIGN CHOICE, log 107] -/
opaque Config.attestKey : Nat

/-- The signing nonce of the n-th attestation (R349). [DESIGN CHOICE, log 107] -/
opaque Config.attestNonce : Nat → Nat

/-- A quotient by zero, given the dividend: the spec states none (R224, R231). [DESIGN CHOICE, log 53] -/
opaque Config.quotZero : Int → Int

end Sys2Proof
end

