-- ==== Sys2Proof/Machine/Bits.lean ====
section
/-!
DEFINITION. Bit fields of numbers, sparse tables, byte strings and the check codes: the helpers every block of the model shares.
-/

namespace Sys2Proof.Machine

/-- Bits `hi` down to `lo` of a number. -/
def bitsOf (v hi lo : Nat) : Nat := v / 2 ^ lo % 2 ^ (hi + 1 - lo)

/-- Bit `i` of a number. -/
def bitOf (v i : Nat) : Bool := v / 2 ^ i % 2 == 1

/-- A Bool as a bit. -/
def b2n (b : Bool) : Nat := if b then 1 else 0

/-- `v` with bits `hi` down to `lo` replaced by `x` (its low bits). -/
def putBits (v hi lo x : Nat) : Nat :=
  v % 2 ^ lo + (x % 2 ^ (hi + 1 - lo)) * 2 ^ lo + v / 2 ^ (hi + 1) * 2 ^ (hi + 1)

/-- `v` with bit `i` set to `b`. -/
def putBit (v i : Nat) (b : Bool) : Nat := putBits v i i (b2n b)

/-- The signed value of the low `w` bits of `v`. -/
def sext (w v : Nat) : Int :=
  let x := v % 2 ^ w
  if x < 2 ^ (w - 1) then Int.ofNat x else Int.ofNat x - Int.ofNat (2 ^ w)

/-- The low `w` bits of a signed value. -/
def toBits (w : Nat) (v : Int) : Nat := (v % Int.ofNat (2 ^ w)).toNat

/-- Saturate a signed value to `[lo, hi]`. -/
def clampI (lo hi v : Int) : Int := if v < lo then lo else if hi < v then hi else v

/-- Saturate a number at `hi`. -/
def satN (hi v : Nat) : Nat := if hi < v then hi else v

/-- Ceiling of a quotient. -/
def cdiv (a b : Nat) : Nat := if b = 0 then 0 else (a + b - 1) / b

/-- Division rounding to nearest, ties away from zero (for signed values). -/
def rdivI (a : Int) (b : Nat) : Int :=
  if b = 0 then 0
  else if 0 ≤ a then (2 * a + b) / (2 * b) else -((2 * (-a) + b) / (2 * b))

/-- The number of set bits among the low `w` bits. -/
def popcount (w v : Nat) : Nat := (List.range w).countP (bitOf v)

/-- What key `k` of a sparse table reads as; `d` gives what an unlisted key reads as. -/
def spGetD {α : Type} (d : Nat → α) : Sparse α → Nat → α
  | [], k => d k
  | (k', v) :: r, k => if k = k' then v else spGetD d r k

/-- The table with every entry of `k` removed. -/
def spErase {α : Type} : Sparse α → Nat → Sparse α
  | [], _ => []
  | (k', v') :: r, k => if k = k' then spErase r k else (k', v') :: spErase r k

/-- The table with an entry put in before the first greater key. -/
def spPut {α : Type} : Sparse α → Nat → α → Sparse α
  | [], k, v => [(k, v)]
  | (k', v') :: r, k, v => if k < k' then (k, v) :: (k', v') :: r else (k', v') :: spPut r k v

/-- Write `v` at key `k`, keeping the canonical form: a value an unlisted key reads as leaves no entry. -/
def spSetD {α : Type} [DecidableEq α] (d : Nat → α) (m : Sparse α) (k : Nat) (v : α) : Sparse α :=
  if v = d k then spErase m k else spPut (spErase m k) k v

/-- Keys strictly rising from above `lo`. -/
def spRising {α : Type} : Option Nat → Sparse α → Bool
  | _, [] => true
  | none, (k, _) :: r => spRising (some k) r
  | some l, (k, _) :: r => decide (l < k) && spRising (some k) r

/-- The canonical form of a sparse table. -/
def spWf {α : Type} [DecidableEq α] (d : Nat → α) (m : Sparse α) : Bool :=
  spRising none m && m.all fun e => !decide (e.2 = d e.1)

/-- A table of structures whose unlisted keys read as one value. -/
def spGet {α : Type} (d : α) (m : Sparse α) (k : Nat) : α := spGetD (fun _ => d) m k

/-- Write into such a table. -/
def spSet {α : Type} [DecidableEq α] (d : α) (m : Sparse α) (k : Nat) (v : α) : Sparse α := spSetD (fun _ => d) m k v

/-- Change the entry of `k`. -/
def spMod {α : Type} [DecidableEq α] (d : α) (m : Sparse α) (k : Nat) (f : α → α) : Sparse α := spSet d m k (f (spGet d m k))

/-- A number as `n` bytes, least significant first. -/
def leBytes : Nat → Nat → Bytes
  | 0, _ => []
  | n + 1, v => BitVec.ofNat 8 v :: leBytes n (v / 256)

/-- A number as `n` bytes, most significant first. -/
def beBytes (n v : Nat) : Bytes := (leBytes n v).reverse

/-- The number a byte string spells, least significant byte first. -/
def ofLe : Bytes → Nat
  | [] => 0
  | b :: r => b.toNat + 256 * ofLe r

/-- The number a byte string spells, most significant byte first. -/
def ofBe (b : Bytes) : Nat := ofLe b.reverse

/-- `n` bytes of `b` from offset `o`, short strings extended with zeros. -/
def slice (b : Bytes) (o n : Nat) : Bytes :=
  let t := (b.drop o).take n
  t ++ List.replicate (n - t.length) 0

/-- The little-endian number of `n` bytes at offset `o`. -/
def leAt (b : Bytes) (o n : Nat) : Nat := ofLe (slice b o n)

/-- Byte `o`, as a number. -/
def byteAt (b : Bytes) (o : Nat) : Nat := (b.getD o 0).toNat

/-- One bit-step of a reflected CRC: `poly` is the reflected polynomial. -/
def crcStepR (poly c : Nat) : Nat := if c % 2 = 1 then Nat.xor (c / 2) poly else c / 2

/-- Apply `f` `n` times. -/
def iter {α : Type} (f : α → α) : Nat → α → α
  | 0, x => x
  | n + 1, x => iter f n (f x)

/-- CRC-32C (Castagnoli, reflected, initial and final 0xFFFF_FFFF), R38. -/
def crc32c (b : Bytes) : Nat :=
  Nat.xor (b.foldl (fun c x => iter (crcStepR 0x82F63B78) 8 (Nat.xor c x.toNat)) 0xFFFFFFFF) 0xFFFFFFFF

/-- One bit-step of an unreflected CRC of width `w`. -/
def crcStepN (w poly c : Nat) : Nat :=
  let d := 2 * c % 2 ^ w
  if c / 2 ^ (w - 1) % 2 = 1 then Nat.xor d poly else d

/-- An unreflected CRC of width `w ≥ 8` with an initial value, most significant bit of each byte first. -/
def crcN (w poly init : Nat) (b : Bytes) : Nat :=
  b.foldl (fun c x => iter (crcStepN w poly) 8 (Nat.xor c (x.toNat * 2 ^ (w - 8)))) init

/-- Put one value at an index of a list, where the index lies inside it. -/
def setAt {α : Type} (l : List α) (i : Nat) (v : α) : List α := l.set i v

/-- Insert into a list kept in rising order of `key`. -/
def insertBy {α : Type} (key : α → Nat) (x : α) : List α → List α
  | [] => [x]
  | y :: r => if key x < key y then x :: y :: r else y :: insertBy key x r

/-- The least value of a list, or `d` for the empty list. -/
def minD (d : Nat) : List Nat → Nat
  | [] => d
  | x :: r => Nat.min x (minD x r)

/-- The greatest value of a list of numbers; 0 for the empty list. -/
def maxL : List Nat → Nat
  | [] => 0
  | x :: r => Nat.max x (maxL r)

/-- The sum of a list of numbers. -/
def sumL : List Nat → Nat
  | [] => 0
  | x :: r => x + sumL r

/-- Floor of the base-2 logarithm; 0 for 0. -/
def log2N (n : Nat) : Nat := Nat.log2 n

/-- Floor of the square root, by `fuel` steps of bisection on the bits from the top. -/
def isqrtGo (n : Nat) : Nat → Nat → Nat
  | 0, r => r
  | k + 1, r => let t := r + 2 ^ k; if t * t ≤ n then isqrtGo n k t else isqrtGo n k r

/-- Floor of the square root of a number below 2^256. -/
def isqrt (n : Nat) : Nat := isqrtGo n 128 0

end Sys2Proof.Machine
end

