-- ==== Sys2Proof/Machine/Inflate.lean ====
section
/-!
DEFINITION. The DEFLATE decoder of the inflate engines (R49, R50): raw RFC 1951 with the restrictions of R49, the output bound, and the two
ways a stream ends; and the streams of the upload compressors (R68, R69), whose coded blocks are checked with the same decoder.
-/

namespace Sys2Proof.Machine

/-- The bits of a byte string, least significant bit of each byte first. -/
def bitsOfBytes (b : Bytes) : List Bool := b.flatMap fun x => (List.range 8).map fun i => x.getLsbD i

/-- A decoder under way: bits left, the bytes produced (latest first) and their number, the largest distance used. -/
structure Inf where
  bits : List Bool
  out : Bytes
  n : Nat
  maxDist : Nat
  deriving DecidableEq, Repr

/-- Take `k` bits, least significant first; none at the end of the payload. -/
def takeBits : Nat → List Bool → Option (Nat × List Bool)
  | 0, bs => some (0, bs)
  | _ + 1, [] => none
  | k + 1, b :: bs => (takeBits k bs).map fun (v, r) => (b2n b + 2 * v, r)

/-- A prefix code: how many codes have each length 1 to 15, and the symbols in the order of their codes. -/
structure Huff where
  count : List Nat
  syms : List Nat
  deriving DecidableEq, Repr

/-- The canonical code of a list of code lengths. -/
def mkHuff (lens : List Nat) : Huff :=
  { count := (List.range 15).map fun l => lens.count (l + 1),
    syms := (List.range 15).flatMap fun l => (lens.zipIdx.filter fun x => x.1 == l + 1).map (·.2) }

/-- Code space left over: negative when the code is oversubscribed, positive when it is incomplete, in units of 2^-15. -/
def huffSlack (h : Huff) : Int :=
  32768 - Int.ofNat (sumL (h.count.zipIdx.map fun x => x.1 * 2 ^ (14 - x.2)))

/-- Decode one symbol, length by length. -/
def decodeSym (h : Huff) : List Nat → Nat → Nat → Nat → List Bool → Option (Nat × List Bool)
  | [], _, _, _, _ => none
  | _ :: _, _, _, _, [] => none
  | c :: cs, code, first, index, b :: bs =>
    let code := code + b2n b
    if code < first + c then some (h.syms.getD (index + (code - first)) 0, bs)
    else decodeSym h cs (2 * code) (2 * (first + c)) (index + c) bs

/-- Decode one symbol. -/
def sym (h : Huff) (bs : List Bool) : Option (Nat × List Bool) := decodeSym h h.count 0 0 0 bs

/-- Base length and extra bits of length symbol 257 + i. -/
def lenBase (i : Nat) : Nat × Nat :=
  if i < 8 then (3 + i, 0)
  else if i = 28 then (258, 0)
  else let e := i / 4 - 1; (3 + (4 + i % 4) * 2 ^ e, e)

/-- Base distance and extra bits of distance symbol i. -/
def distBase (i : Nat) : Nat × Nat :=
  if i < 4 then (1 + i, 0) else let e := i / 2 - 1; (1 + (2 + i % 2) * 2 ^ e, e)

/-- Copy `k` bytes from `d` back. -/
def copyBack : Nat → Nat → Bytes → Bytes
  | 0, _, out => out
  | k + 1, d, out => copyBack k d (out.getD (d - 1) 0 :: out)

/-- The symbols of one coded block, within an output bound; none: malformed. -/
def codedBlock (lit dist : Huff) (bound : Nat) : Nat → Inf → Option Inf
  | 0, _ => none
  | fuel + 1, x =>
    match sym lit x.bits with
    | none => none
    | some (v, bs) =>
      if v < 256 then
        if x.n < bound then codedBlock lit dist bound fuel { x with bits := bs, out := BitVec.ofNat 8 v :: x.out, n := x.n + 1 } else none
      else if v = 256 then some { x with bits := bs }
      else if 286 ≤ v then none
      else
        let (lb, le) := lenBase (v - 257)
        (takeBits le bs).bind fun (ex, bs) =>
        (sym dist bs).bind fun (dv, bs) =>
        if 30 ≤ dv then none
        else
          let (db, de) := distBase dv
          (takeBits de bs).bind fun (dx, bs) =>
          let len := lb + ex
          let d := db + dx
          if x.n < d ∨ bound < x.n + len then none
          else codedBlock lit dist bound fuel { bits := bs, out := copyBack len d x.out, n := x.n + len, maxDist := Nat.max x.maxDist d }

/-- The order in which a dynamic block sends the code-length code's lengths. -/
def clOrder : List Nat := [16, 17, 18, 0, 8, 7, 9, 6, 10, 5, 11, 4, 12, 3, 13, 2, 14, 1, 15]

/-- Read `n` code lengths with the code-length code, latest first; none: malformed. -/
def readLens (cl : Huff) (n : Nat) : Nat → List Nat → List Bool → Option (List Nat × List Bool)
  | 0, _, _ => none
  | fuel + 1, acc, bs =>
    if acc.length = n then some (acc.reverse, bs)
    else if n < acc.length then none
    else
      (sym cl bs).bind fun (v, bs) =>
      if v < 16 then readLens cl n fuel (v :: acc) bs
      else if v = 16 then
        match acc with
        | [] => none
        | p :: _ => (takeBits 2 bs).bind fun (k, bs) => readLens cl n fuel (List.replicate (3 + k) p ++ acc) bs
      else if v = 17 then (takeBits 3 bs).bind fun (k, bs) => readLens cl n fuel (List.replicate (3 + k) 0 ++ acc) bs
      else (takeBits 7 bs).bind fun (k, bs) => readLens cl n fuel (List.replicate (11 + k) 0 ++ acc) bs

/-- The fixed codes. -/
def fixedLit : Huff := mkHuff (List.replicate 144 8 ++ List.replicate 112 9 ++ List.replicate 24 7 ++ List.replicate 8 8)

/-- The fixed distance code. -/
def fixedDist : Huff := mkHuff (List.replicate 32 5)

/-- Whether a distance code is accepted (R49): complete, empty, or exactly one code of length 1. -/
def distOk (h : Huff) : Bool := huffSlack h == 0 || h.syms.isEmpty || (h.syms.length == 1 && h.count.head? == some 1)

/-- The codes of a dynamic block (R49); none: malformed. -/
def dynCodes (bs : List Bool) : Option (Huff × Huff × List Bool) :=
  (takeBits 14 bs).bind fun (w, bs) =>
  let hlit := w % 32 + 257
  let hdist := w / 32 % 32 + 1
  let hclen := w / 1024 + 4
  if 286 < hlit then none
  else
    (takeBits (3 * hclen) bs).bind fun (cw, bs) =>
    let cl := mkHuff ((List.range 19).map fun s =>
      let j := clOrder.idxOf s
      if j < hclen then cw / 8 ^ j % 8 else 0)
    if huffSlack cl ≠ 0 then none
    else
      (readLens cl (hlit + hdist) (hlit + hdist + 1) [] bs).bind fun (lens, bs) =>
      let lit := mkHuff (lens.take hlit)
      let dist := mkHuff (lens.drop hlit)
      if huffSlack lit = 0 ∧ 0 ≤ huffSlack dist ∧ distOk dist then some (lit, dist, bs) else none

/-- Skip to a byte boundary: the bits left are a whole number of bytes again. -/
def toByte (bs : List Bool) : List Bool := bs.drop (bs.length % 8)

/-- The bytes that whole groups of bits spell. -/
def bytesOfBits : Nat → List Bool → Option (Bytes × List Bool)
  | 0, bs => some ([], bs)
  | k + 1, bs => (takeBits 8 bs).bind fun (v, r) => (bytesOfBits k r).map fun (b, r) => (BitVec.ofNat 8 v :: b, r)

/-- What one block was: final, empty stored, and the decoder after it. -/
structure BlockRes where
  final : Bool
  emptyStored : Bool
  st : Inf
  deriving DecidableEq, Repr

/-- Decode one block within an output bound; none: malformed. -/
def inflateBlock (bound : Nat) (x : Inf) : Option BlockRes :=
  (takeBits 3 x.bits).bind fun (h, bs) =>
  let final := h % 2 == 1
  if h / 2 = 0 then
    (bytesOfBits 4 (toByte bs)).bind fun (hd, bs) =>
    let len := leAt hd 0 2
    if leAt hd 2 2 ≠ 65535 - len ∨ bound < x.n + len then none
    else (bytesOfBits len bs).map fun (b, bs) =>
      ⟨final, len == 0 && !final, { x with bits := bs, out := b.reverse ++ x.out, n := x.n + len }⟩
  else if h / 2 = 1 then (codedBlock fixedLit fixedDist bound (bs.length + 1) { x with bits := bs }).map fun y => ⟨final, false, y⟩
  else if h / 2 = 2 then
    (dynCodes bs).bind fun (l, d, bs) => (codedBlock l d bound (bs.length + 1) { x with bits := bs }).map fun y => ⟨final, false, y⟩
  else none

/-- The bytes left after a stream's end. -/
def restBytes (bs : List Bool) : Bytes := ((bytesOfBits (bs.length / 8) (toByte bs)).map (·.1)).getD []

/-- Decode blocks to the end of the stream (R49): at most as many blocks as the fuel; the answer is the decoder at the end. -/
def inflateBlocks (flush : Bool) (bound : Nat) : Nat → Inf → Option Inf
  | 0, _ => none
  | k + 1, x =>
    (inflateBlock bound x).bind fun r =>
    if r.final then (if flush then none else some r.st)
    else if flush && r.emptyStored && r.st.n == bound then some r.st
    else inflateBlocks flush bound k r.st

/-- Inflate a quire's payload (R49, R50): the D bytes, or none where the stream is malformed. -/
def inflate (flush : Bool) (d : Nat) (payload : Bytes) : Option Bytes :=
  (inflateBlocks flush d 64 ⟨bitsOfBytes payload, [], 0, 0⟩).bind fun x =>
  let rest := restBytes x.bits
  if x.n = d ∧ rest.length ≤ 3 ∧ rest.all (· == 0) then some x.out.reverse else none

/-! ## Uploads (R68, R69) -/

/-- The bound of an upload's length (R69, R372). -/
def uploadBound (u : Nat) : Nat := u + 5 * cdiv u 16384 + 1

/-- A number's low bits, least significant first. -/
def lowBits (n v : Nat) : List Bool := (List.range n).map (bitOf v)

/-- A code word's bits, most significant first, as Huffman codes are packed. -/
def codeBits (n v : Nat) : List Bool := (lowBits n v).reverse

/-- The three header bits of a block: final, and the type. -/
def blockHead (final : Bool) (ty : Nat) : List Bool := final :: lowBits 2 ty

/-- The code of literal v in a plain coding of a block: of the fixed codes, or of the dynamic code whose literals 0 to 254 have 8 bits and whose others have 9. -/
def literalBits (dyn : Bool) (v : Nat) : List Bool :=
  if dyn then (if v < 255 then codeBits 8 v else codeBits 9 (2 * 255 + (v - 255)))
  else if v < 144 then codeBits 8 (48 + v) else codeBits 9 (400 + (v - 144))

/-- The code descriptions that such a dynamic block begins with: 257 literals and lengths, one distance of length 0, code-length codes for 0, 8 and 9. -/
def literalCodes : List Bool :=
  lowBits 5 0 ++ lowBits 5 0 ++ lowBits 4 3 ++ (clOrder.take 7).flatMap (fun s => lowBits 3 (if s = 8 then 1 else if s = 0 ∨ s = 9 then 2 else 0))
    ++ List.replicate 255 false ++ codeBits 2 3 ++ codeBits 2 3 ++ codeBits 2 2

/-- A block coded with literals alone. -/
def literalBlock (dyn final : Bool) (blk : Bytes) : List Bool :=
  blockHead final (if dyn then 2 else 1) ++ (if dyn then literalCodes else []) ++ blk.flatMap (fun x => literalBits dyn x.toNat)
    ++ (if dyn then literalBits true 256 else List.replicate 7 false)

/-- Whether bits are one block, of the type given and final or not, that yields this input after what precedes it, with distances of at most 4,096 (R68). -/
def codedOk (dyn final : Bool) (before blk : Bytes) (bits : List Bool) : Bool :=
  bits.take 3 == blockHead final (if dyn then 2 else 1) &&
    (match inflateBlock (before.length + blk.length) ⟨bits, before.reverse, before.length, 0⟩ with
     | some r => r.st.bits.isEmpty && decide (r.st.maxDist ≤ 4096) && r.st.out == (before ++ blk).reverse
     | none => false)

/-- A block in its fixed or its dynamic form: the matches and the dynamic codes are the compressor's open choice (R70). [DESIGN CHOICE, log 48] -/
def codedForm (n cfg : Nat) (dyn final : Bool) (before blk : Bytes) : List Bool :=
  let c := blockHead final (if dyn then 2 else 1) ++ Config.blockCode n cfg dyn before blk
  if codedOk dyn final before blk c then c else literalBlock dyn final blk

/-- A block in its stored form, where `at'` bits of the stream precede it. -/
def storedForm (at' : Nat) (final : Bool) (blk : Bytes) : List Bool :=
  blockHead final 0 ++ List.replicate ((8 - (at' + 3) % 8) % 8) false ++ lowBits 16 blk.length ++ lowBits 16 (65535 - blk.length) ++ bitsOfBytes blk

/-- One block of an upload (R69): by TABLES the fixed form, the dynamic form, or the shorter of the two, a tie going to fixed; stored where that is shorter. -/
def uploadBlock (n cfg at' : Nat) (final : Bool) (before blk : Bytes) : List Bool :=
  let f := codedForm n cfg false final before blk
  let d := codedForm n cfg true final before blk
  let tables := bitsOf cfg 1 0
  let c := if tables = 0 then f else if tables = 1 then d else if d.length < f.length then d else f
  let st := storedForm at' final blk
  if st.length < c.length then st else c

/-- The blocks of an upload, each of 16 KiB of input but the last (R68). -/
def uploadBlocks (n cfg : Nat) : Nat → Nat → Bytes → Bytes → List Bool
  | 0, _, _, _ => []
  | k + 1, at', before, rest =>
    let blk := rest.take 16384
    let final := decide (rest.length ≤ 16384)
    let b := uploadBlock n cfg at' final before blk
    b ++ (if final then [] else uploadBlocks n cfg k (at' + b.length) (before ++ blk) (rest.drop 16384))

/-- Bits as bytes, the last byte filled with zeros. -/
def bytesOf : Nat → List Bool → Bytes
  | 0, _ => []
  | k + 1, bs => BitVec.ofNat 8 (sumL ((bs.take 8).zipIdx.map fun x => b2n x.1 * 2 ^ x.2)) :: bytesOf k (bs.drop 8)

/-- What compressor n emits for an input, with QRE_UPCFG as sampled at its start (R68, R69). [DESIGN CHOICE, log 48] -/
def uploadStream (n cfg : Nat) (input : Bytes) : Bytes :=
  let bs := uploadBlocks n cfg (input.length / 16384 + 1) 0 [] input
  bytesOf (cdiv bs.length 8) bs

end Sys2Proof.Machine
end

