-- ==== Sys2Proof/Machine/Codes.lean ====
section
/-!
DEFINITION. The named numbers of the spec's tables: error codes with their severities (R419), attention bits (R439), supervisor events
(R400), descriptor types (R368), frame types (R330), re-used by every block.
-/

namespace Sys2Proof.Machine

/-- An error code (R419): the full code word and the severity (0 INFO, 1 WARNING, 2 ERROR, 3 SEVERE). -/
structure ECode where
  code : Nat
  sev : Nat
  deriving DecidableEq, Repr

/-! Error codes: class * 0x1000 + block * 0x40 + code (R419). -/

def E.CLO_COPYBAD : ECode := ⟨0x7041, 1⟩
def E.CLO_LOAD : ECode := ⟨0x7042, 0⟩
def E.CLO_NOIMAGE : ECode := ⟨0x7043, 3⟩
def E.CLO_CMD : ECode := ⟨0x6044, 1⟩
def E.QRE_HDR : ECode := ⟨0x1081, 1⟩
def E.QRE_HDRFIELD : ECode := ⟨0x1082, 2⟩
def E.QRE_OVERLAP : ECode := ⟨0x1083, 2⟩
def E.QRE_SIGLEN : ECode := ⟨0x1084, 2⟩
def E.QRE_RECOVERED : ECode := ⟨0x85, 0⟩
def E.QRE_CMD : ECode := ⟨0x6086, 1⟩
def E.GTH_LATE : ECode := ⟨0x10C1, 2⟩
def E.GTH_SIGCUT : ECode := ⟨0x10C2, 1⟩
def E.FIR_WDCUT : ECode := ⟨0x4101, 2⟩
def E.FIR_THARD : ECode := ⟨0x4102, 2⟩
def E.FIR_TLOST : ECode := ⟨0x4103, 2⟩
def E.FIR_TWARN : ECode := ⟨0x4104, 1⟩
def E.FIR_TRESUME : ECode := ⟨0x105, 0⟩
def E.FIR_FENSLIP : ECode := ⟨0x1106, 1⟩
def E.FIR_GOVSHAVE : ECode := ⟨0x1107, 1⟩
def E.POS_ENCERR : ECode := ⟨0x2141, 1⟩
def E.POS_BACKWARD : ECode := ⟨0x1142, 2⟩
def E.POS_EARLYTURN : ECode := ⟨0x1143, 1⟩
def E.POS_STARTLOST : ECode := ⟨0x1144, 1⟩
def E.POS_OVERSPEED : ECode := ⟨0x1145, 1⟩
def E.POS_PHCLAMP : ECode := ⟨0x6146, 1⟩
def E.POS_BCNLOST : ECode := ⟨0x2147, 2⟩
def E.POS_BCNJUMP : ECode := ⟨0x2148, 1⟩
def E.POS_CATCHUP : ECode := ⟨0x1149, 2⟩
def E.POS_CMD : ECode := ⟨0x614A, 1⟩
def E.TMB_STEP : ECode := ⟨0x181, 0⟩
def E.TMB_SYNCLOST : ECode := ⟨0x2182, 1⟩
def E.THL_TRAINFAIL : ECode := ⟨0x21C1, 1⟩
def E.THL_CAPCHG : ECode := ⟨0x21C2, 2⟩
def E.THL_MODFAULT : ECode := ⟨0x41C3, 2⟩
def E.THL_CMDTMO : ECode := ⟨0x21C4, 1⟩
def E.THL_RETIRE : ECode := ⟨0x21C5, 2⟩
def E.THL_CMD : ECode := ⟨0x61C6, 1⟩
def E.NZH_STATE : ECode := ⟨0x8201, 0⟩
def E.NZH_CLUSTER : ECode := ⟨0x8202, 1⟩
def E.NZH_MEASREJ : ECode := ⟨0x8203, 1⟩
def E.NZH_FOLDIFF : ECode := ⟨0x5204, 1⟩
def E.NZH_MAPLATE : ECode := ⟨0x5205, 1⟩
def E.NZH_MAPWR : ECode := ⟨0x6206, 1⟩
def E.NZH_WEIGHT : ECode := ⟨0x6207, 1⟩
def E.NZH_CMD : ECode := ⟨0x6208, 1⟩
def E.INS_NOTRIG : ECode := ⟨0x2241, 1⟩
def E.INS_FRAME : ECode := ⟨0x2242, 1⟩
def E.INS_FIFOOVF : ECode := ⟨0x2243, 1⟩
def E.INS_REGLOST : ECode := ⟨0x2244, 2⟩
def E.INS_PORTRET : ECode := ⟨0x2245, 2⟩
def E.INS_CMD : ECode := ⟨0x6246, 1⟩
def E.CAL_PUBLIMIT : ECode := ⟨0x8281, 1⟩
def E.CAL_CMD : ECode := ⟨0x6282, 1⟩
def E.FOL_CFG : ECode := ⟨0x52C1, 2⟩
def E.FOL_DIVERGE : ECode := ⟨0x52C2, 0⟩
def E.FOL_SEQ : ECode := ⟨0x52C3, 2⟩
def E.FOL_PEERLOST : ECode := ⟨0x52C4, 2⟩
def E.FOL_MODMIS : ECode := ⟨0x52C5, 1⟩
def E.FOL_SUSPECT : ECode := ⟨0x52C6, 2⟩
def E.FOL_SELFFAIL : ECode := ⟨0x52C7, 2⟩
def E.FOL_OWNFAIL : ECode := ⟨0x52C8, 2⟩
def E.FOL_PROMOTE : ECode := ⟨0x52C9, 1⟩
def E.FOL_REVERT : ECode := ⟨0x52CA, 0⟩
def E.FOL_RETIRE : ECode := ⟨0x52CB, 2⟩
def E.FOL_WRITE : ECode := ⟨0x62CC, 1⟩
def E.FOL_CMD : ECode := ⟨0x62CD, 1⟩
def E.MEM_CE : ECode := ⟨0x3301, 0⟩
def E.MEM_UE : ECode := ⟨0x3302, 2⟩
def E.MEM_RMWUE : ECode := ⟨0x3303, 2⟩
def E.MEM_POISONRD : ECode := ⟨0x3304, 1⟩
def E.MEM_HARD : ECode := ⟨0x3305, 1⟩
def E.MEM_DEVICE : ECode := ⟨0x3306, 1⟩
def E.MEM_QFULL : ECode := ⟨0x3307, 2⟩
def E.MEM_TRAINFAIL : ECode := ⟨0x3308, 2⟩
def E.MEM_DRIFT : ECode := ⟨0x3309, 0⟩
def E.MEM_DRAMHOT : ECode := ⟨0x430A, 1⟩
def E.MEM_RETIRE : ECode := ⟨0x330B, 2⟩
def E.MEM_CMD : ECode := ⟨0x630C, 1⟩
def E.SPN_TRAINFAIL : ECode := ⟨0x2341, 1⟩
def E.SPN_NOROUTE : ECode := ⟨0x2342, 1⟩
def E.SPN_HOPLIM : ECode := ⟨0x2343, 1⟩
def E.SPN_NBRID : ECode := ⟨0x7344, 2⟩
def E.SPN_FILTER : ECode := ⟨0x7345, 1⟩
def E.SPN_ADMIT : ECode := ⟨0x7346, 0⟩
def E.SPN_LANERET : ECode := ⟨0x2347, 2⟩
def E.SPN_PORTRET : ECode := ⟨0x2348, 2⟩
def E.SPN_WIDTH : ECode := ⟨0x2349, 1⟩
def E.SPN_CMD : ECode := ⟨0x634A, 1⟩
def E.MBX_OWNER : ECode := ⟨0x6381, 1⟩
def E.MBX_RINGFULL : ECode := ⟨0x6382, 1⟩
def E.MBX_RINGPTR : ECode := ⟨0x6383, 1⟩
def E.MBX_RINGMEM : ECode := ⟨0x3384, 2⟩
def E.MBX_LOCKFORCE : ECode := ⟨0x6385, 0⟩
def E.ERR_CLASS : ECode := ⟨0x63C1, 1⟩
def E.ERR_TAILPTR : ECode := ⟨0x63C2, 1⟩
def E.SMT_ACTREJ : ECode := ⟨0x6401, 1⟩
def E.SMT_FAULT : ECode := ⟨0x4402, 2⟩
def E.SMT_USER : ECode := ⟨0x6403, 0⟩
def E.SMT_CMD : ECode := ⟨0x6404, 1⟩
def E.SRAM_CE : ECode := ⟨0x3441, 0⟩
def E.SRAM_UE : ECode := ⟨0x3442, 2⟩

/-! Attention bits (R439). -/

def Att.RUNREF : Nat := 0
def Att.STARVED : Nat := 1
def Att.FENCUT : Nat := 2
def Att.TEMPWARN : Nat := 3
def Att.TEMPHARD : Nat := 4
def Att.LANEDOWN : Nat := 5
def Att.LANECAP : Nat := 6
def Att.LANERET : Nat := 7
def Att.ENCREV : Nat := 8
def Att.POSLOST : Nat := 9
def Att.NOZDEAD : Nat := 10
def Att.NOZCLUSTER : Nat := 11
def Att.CAMREG : Nat := 12
def Att.CAMLINK : Nat := 13
def Att.FOLCFG : Nat := 14
def Att.FOLDEGR : Nat := 15
def Att.FOLSUSP : Nat := 16
def Att.FOLFAIL : Nat := 17
def Att.FOLISO : Nat := 18
def Att.FOLRET : Nat := 19
def Att.MEMTRAIN : Nat := 20
def Att.MEMDEV : Nat := 21
def Att.MEMHARD : Nat := 22
def Att.MEMQFULL : Nat := 23
def Att.MEMHOT : Nat := 24
def Att.MEMRET : Nat := 25
def Att.SPNLINK : Nat := 26
def Att.SPNRET : Nat := 27
def Att.NODEQUAR : Nat := 28
def Att.RINGOVF : Nat := 29

/-! Supervisor events (R400). -/

def SEv.MBX_MSG : Nat := 0x1
def SEv.TB_EVT : Nat := 0x2
def SEv.FEN_CUT : Nat := 0xA
def SEv.THERMAL_HARD : Nat := 0xB
def SEv.THERMAL_RESUME : Nat := 0xC
def SEv.POS_REVERSE : Nat := 0xD
def SEv.HEAD_FAULT : Nat := 0xE
def SEv.LINK_RETIRED : Nat := 0xF
def SEv.FOLIO_PEERLOST : Nat := 0x10
def SEv.FOLIO_PROMOTE : Nat := 0x11
def SEv.FOLIO_HOLDREQ : Nat := 0x12
def SEv.MEM_HOT : Nat := 0x13
def SEv.MEM_RETIRED : Nat := 0x14
def SEv.SPINE_PORTDOWN : Nat := 0x15
def SEv.ENTER_STANDBY : Nat := 0x16
def SEv.ENTER_RUN : Nat := 0x17
def SEv.ENTER_HOLD : Nat := 0x18
def SEv.ENTER_FAULT : Nat := 0x19
def SEv.SIG_START : Nat := 0x1A
def SEv.ENDPAPER : Nat := 0x1B
def SEv.RUN_REFUSED : Nat := 0x1C
def SEv.STARVED : Nat := 0x1D
def SEv.ERR_SEVERE : Nat := 0x1E
def SEv.REQ_RUN : Nat := 0x1F
def SEv.REQ_HOLD : Nat := 0x20
def SEv.REQ_STOP : Nat := 0x21
def SEv.TIMER : Nat := 0x30
def SEv.CNTZERO : Nat := 0x31
def SEv.SW0 : Nat := 0x38

/-! Descriptor types (R368). -/

def DT.MBX_DONE : Nat := 0x1
def DT.ATTN_CHANGE : Nat := 0x2
def DT.QUIRE_RESEND : Nat := 0x10
def DT.TB_EVENT : Nat := 0x11
def DT.NOZZLE_CHANGE : Nat := 0x12
def DT.NOZZLE_MAP_DUMP : Nat := 0x13
def DT.CAL_PUBLISH : Nat := 0x14

/-! Frame types (R330). -/

def FT.RD_REQ : Nat := 0x1
def FT.WR_REQ : Nat := 0x2
def FT.WR_POST : Nat := 0x3
def FT.RESP : Nat := 0x4
def FT.NOTIFY : Nat := 0x8
def FT.QD : Nat := 0x10
def FT.HB_SYNC : Nat := 0x20
def FT.HB_PDREQ : Nat := 0x21
def FT.HB_PDRESP : Nat := 0x22
def FT.HB_BEACON : Nat := 0x23
def FT.FOL_LINE : Nat := 0x30
def FT.FOL_FWD : Nat := 0x31
def FT.FOL_START : Nat := 0x32
def FT.FOL_STATE : Nat := 0x33
def FT.FOL_DIGEST : Nat := 0x34
def FT.FOL_JOIN : Nat := 0x35
def FT.DISC : Nat := 0x40
def FT.DISC_RESP : Nat := 0x41
def FT.ATTEST_REQ : Nat := 0x50
def FT.ATTEST_RESP : Nat := 0x51

end Sys2Proof.Machine
end

