-- ==== Sys2Proof/Machine/State.lean ====
section
/-!
DEFINITION. The state of the block, all of it plain data: every register, table, queue, counter, mode and pin the spec gives the device,
the queue of waiting commands, and State.reset, the device just after it leaves RESET (R11, R410).
-/

namespace Sys2Proof.Machine

/-- The device states in the order of R18, from OFF = 0. -/
inductive Dev where
  | off | reset | load | fill | train | standby | run | hold | fault | quarantine | retired
  deriving DecidableEq, Repr

/-- The level of an output ball: high-impedance (not driven), low or high (R18, R20). -/
inductive Level where
  | z | low | high
  deriving DecidableEq, Repr

/-- Why a step stops with a fault: never. No meaning of this model faults; the type is kept for the host's interface. -/
inductive Fault where
  /-- Raised by no meaning: the spec describes the effect of every command, errors included. Safe. -/
  | none
  deriving DecidableEq, Repr

/-- Why a step is refused. -/
inductive Refusal where
  /-- Raised by an arm of `exec` whose command has no meaning yet. Safe: nothing follows from it. -/
  | notModelled (mnemonic : String)
  deriving DecidableEq, Repr

/-- A 66-bit block on a lane (R162): the physical lane, whether it is a control block, and its 8 bytes. -/
structure Blk where
  lane : Nat
  ctl : Bool
  b : Bytes
  deriving DecidableEq, Repr

/-- A flash transfer (R382, R394): the opcode, the address and its bytes, the dummy clocks, a four-lane data phase, the SCK code of R384, the data bytes to read (none: as many as SFDP takes), and
the data bytes written. -/
structure FlashOp where
  op : Nat
  addr : Option Nat := none
  addrBytes : Nat := 4
  dummy : Nat := 0
  quad : Bool := false
  sck : Nat := 0
  len : Option Nat := some 0
  data : Bytes := []
  deriving DecidableEq, Repr

/-- What a command put out: the blocks of a frame on a Spine port (R325), a link-control block on a lane of it, test-pattern bits on a Spine or Thread lane (R196, R353), a block
on a Thread lane, a flash transfer, the DRAM controller's response to a master (none: an error response), a captured JTAG data register, the flash's quad enable set as the BFPT's requirement code says (R382), the completion of a request of the
controller's own to its requester (R347: its response, or none: a timeout). [DESIGN CHOICE, log 86] -/
inductive Output where
  | spine (port : Nat) (bs : List Blk)
  | spineCtl (port lane ty : Nat) (b : Bytes)
  | spineCfg (port : Nat) (m : Cfg)
  | spineBadHeader (port lane : Nat)
  | spineBits (port lane : Nat) (bits : List Bool)
  | thread (lane : Nat) (ctl : Bool) (b : Bytes)
  | threadBits (lane : Nat) (bits : List Bool)
  | flash (x : FlashOp)
  | dram (master a : Nat) (b : Option Bytes)
  | tdo (bits v : Nat)
  | quadEnable (req : Nat)
  | completed (tag : Nat) (r : Option Frame)
  deriving DecidableEq, Repr

/-! ## Errors (R416 to R433) -/

/-- An error record (R416): timestamp, epoch, code, instance, context type, severity, flags, the 8 context bytes as a little-endian
number, the repeat count and the time of the latest event. -/
structure ErrRec where
  ts : Nat
  epoch : Nat
  code : Nat
  inst : Nat
  ctxType : Nat
  sev : Nat
  inj : Bool
  nested : Bool
  lostb : Bool
  ctx : Nat
  count : Nat
  last : Nat
  deriving DecidableEq, Repr

/-- An open record (R421): its key, its log index (none when it was lost to a full log), whether it closes after RUNGAP, and the
controller's clock (ns) at its latest event. -/
structure OpenRec where
  key : List Nat
  idx : Option Nat
  byGap : Bool
  lastNs : Nat
  deriving DecidableEq, Repr

/-- A pending injection (R432): identifier, instance, argument, and events of a multi-event injection still to come. -/
structure Inj where
  id : Nat
  inst : Nat
  arg : Nat
  left : Nat
  deriving DecidableEq, Repr

/-- The error block: the 256 log slots, the open records with the latest extended first, the pending injection, the word-0 latch of
the log window (slot and words 1 to 7, R423), the LOSTB that the next record written carries, the blocks handling an error now, and the
detectors with a pending handling, by key, with the log index of its record (R426). -/
structure ErrSt where
  log : Sparse (Option ErrRec) := []
  opened : List OpenRec := []
  inj : Option Inj := none
  latch : Option (Nat × List Nat) := none
  lostb : Bool := false
  handling : List Nat := []
  joins : List (List Nat × Option Nat) := []
  deriving DecidableEq, Repr

/-! ## Messaging (R358 to R380) -/

/-- A descriptor in the posting queue (R369): ring, type, status, epoch and timebase at posting, and the 16 body bytes. -/
structure Desc where
  ring : Nat
  ty : Nat
  status : Nat
  epoch : Nat
  tb : Nat
  body : Bytes
  deriving DecidableEq, Repr

/-- The age counter of a mailbox channel (R364): the clock (ns) at GO, and the age at which it stopped. -/
structure ChAge where
  start : Nat := 0
  stopped : Option Nat := some 0
  deriving DecidableEq, Repr

/-- What an upload compressor works on: input bytes still to come, the announcing descriptor's ring and type, and a caller's tag. -/
structure Upload where
  input : Bytes
  ring : Nat
  ty : Nat
  tag : Nat
  deriving DecidableEq, Repr

/-- An upload in progress (R372): the request, WPTR at the start, the reserved bytes, and QRE_UPCFG as sampled at its start (R69). -/
structure UpRun where
  req : Upload
  wptr : Nat
  resv : Nat
  cfg : Nat
  deriving DecidableEq, Repr

/-- The upload compressors (R68, R372): for each, the waiting requests in order and the one in progress. -/
structure UpSt where
  waiting : List Upload := []
  run : Option UpRun := none
  deriving DecidableEq, Repr

/-- The messaging block: each channel's age, the source of its GO and the port it came through (R362), the value of GLB_ATTN whose reasons have been announced (R378), the posting queue, the rings that lost a descriptor since the
last one written, the rings (256 for attention) with a NOTIFY waiting, when each sent its latest one (ns, R370), the locks' holders, and the compressors. -/
structure MbxSt where
  age : Sparse ChAge := []
  goSrc : Sparse (Src × Option Nat) := []
  attnSeen : Nat := 0
  postq : List Desc := []
  lostb : Sparse Bool := []
  notify : List Nat := []
  notifyAt : Sparse (Option Nat) := []
  locks : Sparse (Option Src) := []
  up : Sparse UpSt := []
  deriving DecidableEq, Repr

/-! ## The supervisor (R395 to R406) -/

/-- A supervisor machine (R395): state, condition flag, parameter, the clock (ns) at which its timer expires, counter, last action, last
event, the held channel, the pending local events as bits, the parameter slot of each local event, and the device state that an accepted action still waits for (CF is 1
once it has come, R401). -/
structure SmtMach where
  state : Nat := 0
  cf : Bool := false
  param : Nat := 0
  timer : Option Nat := none
  cnt : Nat := 0
  lastAct : Nat := 0
  lastEv : Nat := 0
  held : Option Nat := none
  pend : Nat := 0
  slots : Sparse Nat := []
  waits : Option Dev := none
  deriving DecidableEq, Repr

/-! ## The Colophon loader and start-up (R381 to R415) -/

/-- A usable image header (R384): length, sequence number, section count, SIGNED, SCK code and QUAD allowed. -/
structure ImgHdr where
  len : Nat
  seq : Nat
  sections : Nat
  signed : Bool
  sck : Nat
  quad : Bool
  deriving DecidableEq, Repr

/-- Where start-up stands: the steps of R408 to R410 from OFF through LOAD. -/
inductive BootStep where
  | off | resetHeld | pll | fuse | sram | discovery | headers | verify | apply | done
  deriving DecidableEq, Repr

/-- The loader: where start-up stands; the prepared read commands (one-lane opcode, quad opcode), the BFPT's quad-enable requirement, whether quad enable is set and 4-byte mode
entered; direction and length of the transfer of CLO_FCTL in progress (R394); whether an injection has failed a copy (R431); both headers where usable; the copies
still to attempt in order (false primary); the topology lock kept for R350; the rate in force; whether TRAINTMO has passed. [DEDUCED, log 3] -/
structure CloSt where
  step : BootStep := .discovery
  rdOp : Nat := 0
  quadOp : Option Nat := none
  quadReq : Nat := 0
  quadOn : Bool := false
  mode4 : Bool := false
  xfer : Option (Bool × Nat) := none
  injBad : Bool := false
  hdr0 : Option ImgHdr := none
  hdr1 : Option ImgHdr := none
  todo : List Bool := []
  topo : Option Bytes := none
  sck : Nat := 0
  timeUp : Bool := false
  deriving DecidableEq, Repr

/-- The JTAG port: the selected instruction, the boundary-scan hold and the 512 cells of the boundary register (R459), and the register-access path (R441): the access
in progress (write, address, data), what the next capture shows, and whether a START has been ignored since the latest one. [PRESUMED, log 116] -/
structure JtagSt where
  instr : Nat := 1
  hold : Bool := false
  cells : Nat := 0
  busy : Option (Bool × Nat × Word) := none
  data : Word := 0
  addr : Nat := 0
  write : Bool := false
  done : Bool := false
  err : Bool := false
  missed : Bool := false
  deriving DecidableEq, Repr

/-! ## Spine (R324 to R357) -/

/-- The stages of a Spine port (R332). -/
inductive PStage where
  | disabled | detect | train | align | config | active | recover | test | retired
  deriving DecidableEq, Repr

/-- A frame that an egress port sends: as it leaves, as it arrived, its ingress port (4: the endpoint), and the time at which it was queued. -/
structure Waiting where
  frame : Frame
  orig : Frame
  inp : Nat
  since : Nat
  deriving DecidableEq, Repr

/-- A frame in a replay buffer: its sequence, the frame, whether it is stomped (R335), and how often it has been replayed (R334). -/
structure Kept where
  seq : Nat
  w : Waiting
  stomped : Bool
  replays : Nat
  deriving DecidableEq, Repr

/-- A PRBS checker (R196): its reference's last 31 bits, how many bits it has taken to fill it, error-free bits so far, and whether it is
synchronised. [DEDUCED, log 52] -/
structure Prbs where
  hist : Nat := 0
  seen : Nat := 0
  good : Nat := 0
  lock : Bool := false
  deriving DecidableEq, Repr

/-- A PRBS generator (R196): its last 31 bits before inversion, and the bits sent since an error of INJRATE. [DESIGN CHOICE, log 98] -/
structure Gen where
  hist : Nat := 2 ^ 31 - 1
  n : Nat := 0
  deriving DecidableEq, Repr

/-- Pending injections of one Spine port (R356): `laneErr` by lane. -/
structure PortInj where
  fcrc : Bool := false
  hcrc : Bool := false
  ackDrop : Bool := false
  laneErr : Nat := 0
  blkLoss : Bool := false
  deriving DecidableEq, Repr

/-- A Spine port: bring-up (R332), link replay (R333, R334), credits per VL (R336), the egress queue with its round robin (R337),
retirement (R355: the clock in us at each RECOVER entry and each lane block error), the identity check (R350) and the lane test (R353; `loop`: the neighbour asks this port to
loop its bits back). `phase` is how far a RECOVER has come; `lastW` the width it last ran at; `injd` says that an injection has hit a frame not yet acknowledged (R431); `found` the lanes that DETECT found, `locked` those that TRAIN locked (R332); `admitted` the neighbour ID that software admitted (R352). `txLane` is the logical lane that
takes the next block (R325); `bip` and `sent` give each lane's parity and block count since the last AM (R327), `bipOpen` whether a CFG block, whose bits the spec does not give, is
among them. Credits are cumulative: the limits exchanged at CONFIG, granted by the far end, used here, freed here; `offer` are the limits that this port's CFG messages name. -/
structure Port where
  stage : PStage := .disabled
  phase : PStage := .train
  width : Nat := 0
  lastW : Option Nat := none
  admitted : Option Bytes := none
  lanesAct : Nat := 0
  found : Nat := 0
  locked : Nat := 0
  laneRet : Nat := 0
  mgmtOnly : Bool := false
  fails : Nat := 0
  waitRetry : Bool := false
  txSeq : Nat := 0
  rxSeq : Nat := 0
  nakSent : Bool := false
  sinceAck : Nat := 0
  replay : List Kept := []
  txq : List Waiting := []
  txLane : Nat := 0
  bip : Sparse Nat := []
  sent : Sparse Nat := []
  bipOpen : Bool := false
  offer : List Nat := [16, 64, 128, 48]
  limits : List Nat := [0, 0, 0, 0]
  granted : List Nat := [0, 0, 0, 0]
  used : List Nat := [0, 0, 0, 0]
  freed : List Nat := [0, 0, 0, 0]
  withheld : List Nat := [0, 0, 0, 0]
  drrVl : Nat := 1
  drrDef : List Nat := [0, 0, 0, 0]
  recTimes : List Nat := []
  laneErrs : Sparse (List Nat) := []
  prbs : Sparse Prbs := []
  gens : Sparse Gen := []
  loop : Bool := false
  injBits : Sparse Nat := []
  inj : PortInj := {}
  injd : Bool := false
  deriving DecidableEq, Repr

/-- A peer-delay exchange in progress on a port (R149). -/
structure PdReq where
  seq : Nat
  t1 : Nat
  deriving DecidableEq, Repr

/-- The switch and endpoint: the ports, frames waiting at the internal endpoint with their ingress port (4 for the endpoint itself),
the tags in use with their generation (R347), every tag's next generation and the requests that wait for a free tag (R29), the flood sequence, the attestation in progress (the request's
ingress port and frame, R349), and whether the endpoint has drawn an injected discard. -/
structure SpnSt where
  ports : Sparse Port := []
  inbox : List (Nat × Frame) := []
  tags : List (Nat × Nat) := []
  gens : Sparse Nat := []
  waits : List Frame := []
  floodSeq : Nat := 0
  rootSeq : Sparse Nat := []
  attest : Option (Nat × Frame) := none
  discBusy : Bool := false
  quarOwn : Bool := false
  deriving DecidableEq, Repr

/-! ## Quires (R33 to R67) -/

/-- Where a quire in the directory stands: stored and queued for fetch, being inflated, a re-send outstanding or waiting, its re-send ended without a good
copy (its lines are blank), released to look-ahead, or of an aborted signature (its ring bytes are blank, R55). -/
inductive QState where
  | stored | inflating | resend | blank | released | aborted
  deriving DecidableEq, Repr

/-- A quire in the directory (R44, R47): its header's fields, source node, store pages in order, state; whether a local retry has been used (R51),
whether its ring bytes are reserved (R55) and where in the ring they begin (R54), the released lines, how many of them gathering has passed; and its re-send: reason,
attempt (0: none posted yet) and the requested generation. -/
structure Quire where
  sig : Nat
  ctx : Nat
  first : Nat
  count : Nat
  bpn : Nat
  isStored : Bool
  last : Bool
  flush : Bool
  clen : Nat
  src : Nat
  pages : List Nat := []
  st : QState := .stored
  retried : Bool := false
  reserved : Bool := false
  ringAt : Nat := 0
  data : Bytes := []
  taken : Nat := 0
  order : Nat := 0
  reason : Nat := 0
  attempt : Nat := 0
  gen : Nat := 0
  deriving DecidableEq, Repr

/-- What ingress decided about a quire's header (R44): not yet seen, discarded, or accepted with these header bytes and pages. -/
inductive Verdict where
  | none | discard | accept (pages : List Nat)
  deriving DecidableEq, Repr

/-- A reassembly slot (R43): source node, bytes so far (kept while of use), how many, and the verdict. -/
structure Slot where
  src : Nat
  buf : Bytes := []
  verdict : Verdict := .none
  deriving DecidableEq, Repr

/-- The quire block: the directory in arrival order, reassembly slots, signatures with a fixed length, signatures with an accepted quire, aborted or ended
signatures, lines covered by a record (context, signature, first line, count; R45, R64), each context's generation counter and the last generation it issued (R71), where
in each context's ring the next quire begins (R54), requests waiting for an outstanding slot (R63), whether a start event has come since entry to RUN (R34), and the order counter. -/
structure QreSt where
  dir : List Quire := []
  slots : List Slot := []
  lsig : List (Nat × Nat) := []
  accepted : List Nat := []
  dead : List Nat := []
  covers : List (Nat × Nat × Nat × Nat) := []
  gens : Sparse Nat := []
  issued : Sparse Nat := []
  ringEnd : Sparse Nat := []
  waiting : List (Nat × Nat × Nat) := []
  started : Bool := false
  order : Nat := 0
  deriving DecidableEq, Repr

/-! ## Gathering and firing (R72 to R125) -/

/-- A bundle of a module-line (R178 to R181): the latest copy's generation, re-sends so far, acknowledged, late at its cut-off, and hit by an injection of
THL_INJ (R431). [DEDUCED, log 121] -/
structure Bund where
  gen : Nat := 0
  resends : Nat := 0
  acked : Bool := false
  late : Bool := false
  inj : Bool := false
  deriving DecidableEq, Repr

/-- One module's part of a gathered line: its 4,096 fire words in q order (empty: all blank), their energy, the counts of its governor, whether steps 1 to 7 have ended,
whether its line frame was sent, its bundles (empty: none sent), its fire time, whether that has come, the next slot's group, and whether FEN rose, and whether its rise
has been delayed. -/
structure ModLine where
  words : List Nat := []
  energy : Nat := 0
  lowered : Bool := false
  shaved : Nat := 0
  done : Bool := false
  sent : Bool := false
  bunds : List Bund := []
  tf : Option Nat := none
  came : Bool := false
  slot : Nat := 0
  fen : Bool := false
  slip : Bool := false
  deriving DecidableEq, Repr

/-- A gathered line: module-line number, signature, line, reverse swath, contexts fired blank (late ones), withheld in the line state (R123), fire offset of each module,
its own trigger's stamp and position once triggered, its proof-tap entry, whether its FEN has been counted as held, whether its index carries the withheld flag (R99), the
modules with a local cause, whether a status frame it needs is missing, whether its digest has gone out (R273), whether its trigger can no longer come (R132), and each
module's part. -/
structure Line where
  k : Nat
  sig : Nat
  line : Nat
  rev : Bool
  blank : Nat
  wh : Bool
  phi : List Nat
  trig : Option Nat := none
  pos : Int := 0
  ptEntry : Option Nat := none
  held : Bool := false
  idxWh : Bool := false
  cause : Nat := 0
  stale : Bool := false
  folSent : Bool := false
  dead : Bool := false
  mods : Sparse ModLine := []
  deriving DecidableEq, Repr

/-- The current signature (R87, R88): its number, lines gathered, direction, ended, a cut asked for at the next line boundary (R406), and L_sig as it stood at the end. -/
structure CurSig where
  sig : Nat
  n : Nat
  rev : Bool
  ended : Bool
  cut : Bool
  len : Option Nat := none
  deriving DecidableEq, Repr

/-- The line engine: the next module-line number, lines in flight (oldest first), the current signature, each module's history (latest slot first, a short or
empty list meaning zeros; R106) and energies of the latest window slots (R113), the nozzles flagged for pass substitution (R91), the last line boundary of a trim step, the
proof-tap entries begun since entry to RUN, and those of an earlier run not yet overwritten; recent late bundles of each module (module-line number, groups; R181); the frames
already sent whose fire time is still to come when line work stops (module, module-line number; R177, R412); where runs of consecutive lines began (module-line number, signature, line; latest first); and L_sig of signatures that have ended (latest first; R236). [DESIGN CHOICE, log 109] -/
structure GthSt where
  k : Nat := 0
  lines : List Line := []
  cur : Option CurSig := none
  hist : Sparse (List (List Nat)) := []
  win : Sparse (List Nat) := []
  psub : List Nat := []
  rampK : Option Nat := none
  ptNext : Nat := 0
  ptOld : Nat := 0
  lates : Sparse (List (Nat × Nat)) := []
  skips : List (Nat × Nat) := []
  recent : List (Nat × Nat × Nat) := []
  lens : List (Nat × Nat) := []
  deriving DecidableEq, Repr

/-- One FEN output (R103, R104, R117): the controller's internal drive, the ball high, the module-line it fires, the rise, the latest falling edge, the time before which an SK block
holds it low (R177), and an injected drive that lasts until a cut (R431). -/
structure Fen where
  drive : Bool := false
  high : Bool := false
  k : Nat := 0
  rise : Nat := 0
  fell : Option Nat := none
  skUntil : Option Nat := none
  stuck : Bool := false
  deriving DecidableEq, Repr

/-- A status frame's temperature report: module-line number, temperature code, hot after it, and injected (R108, R121). -/
structure TRep where
  k : Nat
  temp : Nat
  hot : Bool
  inj : Bool := false
  deriving DecidableEq, Repr

/-- The firing block: FEN outputs, each module's recent reports, modules hot and modules lost (as bits), the thermal gate, lines below `resumeK` that
the gate still holds, lines withheld since it was set, the loss-of-clock detector, modules whose last status frames an injection discarded, the LFN of each module's
latest good line status frame, whether an injection set the gate, and when the output path was last calibrated (R31). -/
structure FirSt where
  fen : Sparse Fen := []
  reps : Sparse (List TRep) := []
  hot : Nat := 0
  lost : Nat := 0
  gate : Bool := false
  resumeK : Nat := 0
  heldLines : Nat := 0
  clkLost : Bool := false
  statInj : Nat := 0
  statK : Sparse (Option Nat) := []
  gateInj : Bool := false
  calNs : Nat := 0
  deriving DecidableEq, Repr

/-! ## Position and timebase (R126 to R160) -/

/-- An encoder (R126, R127): the accepted levels of A and B, its 48-bit count and the one before it, index homing armed, the latched position, the stamp of the latest
count, that of the last accepted edge, illegal or not, and a loaded position that the next count takes up. -/
structure Enc where
  a : Bool := false
  b : Bool := false
  count : Int := 0
  zarm : Bool := false
  zlat : Int := 0
  prev : Int := 0
  lastEdge : Option Nat := none
  edgeAt : Option Nat := none
  load : Option Int := none
  deriving DecidableEq, Repr

/-- A signature's grid (R133 to R136): signature, B0 in 2^-16 counts, reverse, pitch in 2^-16 counts, the next boundary (negative: a pre-trigger), stopped, and for a previous
signature the last line that may still be triggered. -/
structure Grid where
  sig : Nat
  b0 : Int
  rev : Bool
  pitch : Nat
  next : Int
  stopped : Bool := false
  lim : Option Int := none
  deriving DecidableEq, Repr

/-- The beacon follower's states (R157), coded 0 to 4. -/
inductive Fol where
  | notFollower | acq | locked | extrap | hold
  deriving DecidableEq, Repr

/-- The beacon follower (R156 to R158): estimate, velocity in counts per 2^-16 ns, reference time, consecutive usable beacons, last sequence used, whether an estimate is held, whether this acquisition has loaded one, and
whether missed triggers are being issued (R158), and whether an injection has discarded beacons since the position was last whole (R431). -/
structure Follower where
  st : Fol := .notFollower
  p : Rat := 0
  v : Rat := 0
  tref : Nat := 0
  good : Nat := 0
  lastSeq : Option Nat := none
  valid : Bool := false
  loaded : Bool := false
  cu : Bool := false
  injd : Bool := false
  deriving DecidableEq, Repr

/-- The position block: encoders, extreme X, reverse, the excursion flag, the stamps of T_cnt (the latest count in the direction and the kept spacings, latest first),
the current and the previous grid, the previous start position, SRC 0b10's reference, the last trigger's stamp, the next signature, the position the block follows, the
follower, the owner's beacon sequence, a Z edge since the last beacon, the accepted levels of the TOF inputs (R135), and the place up to which start events have been formed where the
position has jumped past that (R135, R158). -/
structure PosSt where
  enc : Sparse Enc := []
  x : Int := 0
  rev : Bool := false
  exc : Bool := false
  stamp : Option Nat := none
  gaps : List Nat := []
  cur : Option Grid := none
  old : Option Grid := none
  sigPos : Int := 0
  repFrom : Option Int := none
  lastTrig : Option Nat := none
  nextSig : Nat := 0
  p : Int := 0
  fol : Follower := {}
  bcnSeq : Nat := 0
  zSeen : Bool := false
  tof : Sparse Bool := []
  seen : Option Int := none
  deriving DecidableEq, Repr

/-- Headband time synchronisation (R142 to R153): the servo's integral (2^-16 ns), consecutive syncs within the lock threshold, each port's last received hop count, the next sync
and request sequence, each port's exchange in progress and last delays (2^-16 ns, latest first), syncs since the epoch changed, the last accepted sync's flags, and the words that the reads of R146 latched. -/
structure TmbSt where
  integ : Rat := 0
  lockRun : Nat := 0
  hops : Sparse (Option Nat) := []
  syncSeq : Nat := 0
  pdSeq : Nat := 0
  pd : Sparse (Option PdReq) := []
  delays : Sparse (List Int) := []
  sinceEpoch : Nat := 16
  pps : Bool := false
  nowHi : Nat := 0
  epochLatch : Nat := 0
  posHi : Nat := 0
  zlatHi : Nat := 0
  sigposHi : Nat := 0
  deriving DecidableEq, Repr

/-! ## Thread lanes (R161 to R198) -/

/-- The stages of a lane (R168). -/
inductive LStage where
  | disabled | detect | train | bitlock | blocklock | capex | active | recover | test | retired
  deriving DecidableEq, Repr

/-- A command under way on a lane (R187): code, argument, repeats so far, and whether an injection discarded its response. -/
structure LCmd where
  code : Nat
  arg : Nat
  tries : Nat
  inj : Bool := false
  deriving DecidableEq, Repr

/-- A block that waits on a Thread lane: whether it is a control block, its 8 bytes, where in it the CRC of a bundle copy begins, if it does (R173,
R197), and its module-line and bundle. -/
structure LBlk where
  ctl : Bool
  b : Bytes
  crc : Option Nat := none
  bund : Nat × Nat := (0, 0)
  deriving DecidableEq, Repr

/-- A Thread lane (R168 to R197): stage, the stage that RECOVER repeats, consecutive failures, waiting 1 ms after one, 64 valid sync headers seen, the capability frame
of this BLOCKLOCK taken, a bring-up command not done, the stored capability frame (30 bytes), the command under way and those behind it, blocks since the last IDLE, the blocks that
wait to be sent (R175: SK, the copies of bundles asked for by module-line number and group, the rest of the BR group being sent, line frames, CM and TS) and the clock (hundredths of a ns) of the next block boundary, the module-line numbers of re-sends
(R194) and of the latest line frames sent, the clock (us) of each RECOVER entry, pending injections of THL_INJ, the PRBS checker and generator, injected PRBS bit errors to send, and the
equaliser state as it last stood still (R167). -/
structure Lane where
  stage : LStage := .disabled
  sub : Nat := 0
  fails : Nat := 0
  wait : Bool := false
  locked : Bool := false
  cpSeen : Bool := false
  bad : Bool := false
  cap : Option Bytes := none
  cmd : Option LCmd := none
  cmdq : List (Nat × Nat) := []
  blocks : Nat := 0
  txSk : List Bytes := []
  brq : List (Nat × Nat) := []
  txBr : List LBlk := []
  txData : List LBlk := []
  txCm : List Bytes := []
  txNext : Nat := 0
  resendK : List Nat := []
  sentK : List Nat := []
  recTimes : List Nat := []
  injBcrc : Bool := false
  injHcrc : Bool := false
  injAck : Bool := false
  injScrc : Bool := false
  prbs : Prbs := {}
  gen : Gen := {}
  injBits : Nat := 0
  eq : Nat := 0
  deriving DecidableEq, Repr

/-- The Thread lanes. -/
structure ThlSt where
  lane : Sparse Lane := []
  deriving DecidableEq, Repr

/-! ## Nozzle health (R199 to R220) -/

/-- A write to a nozzle-map entry (R202, R203): module, nozzle, its effective module-line (none: the next boundary), source (1 software,
2 classification, 3 calibration), the bits written, their values, and its condition: 0 none, 1 STATE equal to `from'`, 2 STATE good or weak, 3 STATE one from which the change can have been decided (R202: the forwarding frame does not carry it);
and whether an injection decided it. -/
structure MapW where
  m : Nat
  q : Nat
  e : Option Nat
  src : Nat
  mask : Nat
  val : Nat
  cond : Nat
  from' : Nat
  inj : Bool := false
  deriving DecidableEq, Repr

/-- A candidate change (R211): nozzle, new state, the state it was decided from, re-measurements still to agree, and whether an injected result made it. -/
structure Cand where
  q : Nat
  state : Nat
  from' : Nat
  left : Nat
  inj : Bool := false
  deriving DecidableEq, Repr

/-- A MEAS in progress (R206): first nozzle, count, whether it re-measures a candidate, and whether a status frame has been lost since. -/
structure Meas where
  first : Nat
  count : Nat
  confirm : Bool
  lost : Bool
  deriving DecidableEq, Repr

/-- The nozzle block: staging lists, writes that wait for space, window writes that wait for a boundary, candidates, measurements, nozzles left of each
module's sweep, the change sequence, dirty modules, a dirty dump to start when the present one ends, an armed injection, the standby's own decisions (R205),
and a dump whose blocks are being copied: the modules still to copy, and the bytes so far (R218). -/
structure NzhSt where
  staged : Sparse (List MapW) := []
  waiting : List MapW := []
  queue : List MapW := []
  cands : Sparse (List Cand) := []
  meas : Sparse (Option Meas) := []
  sweepLeft : Sparse Nat := []
  seq : Nat := 0
  dirty : Nat := 0
  autoNext : Bool := false
  inj : Bool := false
  own : List MapW := []
  dump : Option (List Nat × Bytes) := none
  deriving DecidableEq, Repr

/-! ## Inspection (R221 to R247) -/

/-- A pulse waiting to rise (R223): its time and its width in ns, and what its anchors hold (R224): signature, reverse, exposure position in 2^-16 counts, each module's fire offset. -/
structure Pulse where
  t : Nat
  wid : Nat
  sig : Nat
  rev : Bool
  px : Int
  phi : List Nat
  deriving DecidableEq, Repr

/-- A camera trigger or strobe output: the pin, when its latest pulse falls (R223), and the pulses waiting. -/
structure TrigOut where
  high : Bool := false
  fall : Nat := 0
  waiting : List Pulse := []
  deriving DecidableEq, Repr

/-- An anchor of a context (R224), with the clock (ns) at which it was queued. -/
structure Anchor where
  ns : Nat
  sig : Nat
  rev : Bool
  px : Int
  phi : List Nat
  deriving DecidableEq, Repr

/-- A row of a frame: its valid pixels (12 bits), those missing being pad, and whether it is a failed or a filled row, all pad (R226). -/
structure CamRow where
  px : List Nat
  failed : Bool
  deriving DecidableEq, Repr

/-- A frame of a context (R225 to R229): context, number, arrival order, anchor, rows, whether it has ended, its flags, and where the pipeline
has taken it the parameter words it copied, CFG to REGCOR. -/
structure CamFrame where
  ctx : Nat
  num : Nat
  order : Nat
  anchor : Option Anchor
  rows : List CamRow := []
  ended : Bool := false
  longF : Bool := false
  shortF : Bool := false
  crc : Bool := false
  noFe : Bool := false
  shortL : Nat := 0
  longL : Nat := 0
  limit : Option Nat := none
  params : List Nat := []
  injReg : Bool := false
  injFr : Bool := false
  deriving DecidableEq, Repr

/-- What a camera port receives in (R221): the lane states, contexts whose dropped frame still sends rows, the clock (ns) of each transient fault, and the injections armed (INS_INJ bits). -/
structure CamPort where
  hs : Bool := false
  ulps : Bool := false
  faults : List Nat := []
  inj : Nat := 0
  deriving DecidableEq, Repr

/-- The inspection block: trigger and strobe outputs, anchors, frames open or waiting in order of arrival, the frame in process, contexts whose dropped frame still arrives,
ports, the arrival counter, blank groups (module, signature, line, groups; oldest first), consecutive registration failures, the latch of a statistics record, and
the software writes of context registers at the present time (address and clock; R234, R262). -/
structure InsSt where
  ctrig : Sparse TrigOut := []
  lstb : Sparse TrigOut := []
  anchors : Sparse (List Anchor) := []
  frames : List CamFrame := []
  proc : Option CamFrame := none
  dropping : Nat := 0
  port : Sparse CamPort := []
  order : Nat := 0
  blanks : List (Nat × Nat × Nat × Nat) := []
  fails : Sparse Nat := []
  latch : Option (Nat × List Nat) := none
  wrote : List (Nat × Nat) := []
  deriving DecidableEq, Repr

/-! ## Calibration (R248 to R265) -/

/-- A publication running (R255): the module, the line of its step 1, its mean temperature, and the records it read: nozzle index over the bar, the six fields as signed values. -/
structure PubJob where
  m : Nat
  mean : Nat
  recs : List (Nat × List Int)
  deriving DecidableEq, Repr

/-- The calibration block: for each module the module-line since which the conditions of quiet have held, the last temperature codes (latest first), the
count of gathered lines at its last publication, and consecutive good publications; the lines gathered since reset (R254); the modules that a change of flat-field bank
has reached since the last line boundary (R249); the publication running; the contexts whose flat field runs; the sequence; an armed injection. -/
structure CalSt where
  since : Sparse (Option Nat) := []
  temps : Sparse (List Nat) := []
  lastPub : Sparse Nat := []
  conv : Sparse Nat := []
  lines : Nat := 0
  banked : Nat := 0
  job : Option PubJob := none
  ff : List Nat := []
  seq : Nat := 0
  inj : Bool := false
  deriving DecidableEq, Repr

/-! ## The folio pair (R266 to R287) -/

/-- A register or table write staged for its line (R270): effective module-line, address, mask and value. -/
structure RegW where
  e : Nat
  addr : Nat
  mask : Nat
  val : Nat
  deriving DecidableEq, Repr

/-- A line digest (R273): the payload of FOL_LINE, read. -/
structure LineDig where
  k : Nat
  sig : Nat
  line : Nat
  flags : Nat
  blank : Nat
  cause : Nat
  dig : List Nat
  deriving DecidableEq, Repr

/-- A self-check in progress (R276): K_c, whether the scrub pass has ended, whether it found a poisoned word, and how many of its 33 digests have agreed. -/
structure SelfChk where
  kc : Nat
  scrubbed : Bool := false
  agreed : Nat := 0
  deriving DecidableEq, Repr

/-- The folio block: the peer's state code, role, suspicion and ACTIVE lanes; the aligned change of hold (line and hold), whether it is one to STANDBY, whether that
is now due, and the aligned hold in force; own and peer line digests; how far each module is
tainted; the RUN request waiting for the handshake, the checks that its attempt failed at first; both digests exchanged (check, K, value); the self-check; clean lines in a row; the join this member waits for; the
join it grants (signature, K_r, modules copied); the latest FOL_START taken (signature, P_s, reverse); the line at which the join span ends; a revert or swap pending (k_r once known, modules, swap); staged register writes; the forwarded map writes that a joining member keeps for its K_j (R282); modules whose write came
late; whether this member rejoins at the primary's next line, the clock (ns) of the first of a run of missing peer lines, whether the primary's self-check is asked for, the
recent lines (mod 2^16) whose digests all agreed, and injections armed. -/
structure FolSt where
  peerDev : Nat := 0
  peerStandby : Bool := false
  peerSusp : Bool := false
  peerLanes : Nat := 0
  kh : Option (Nat × Bool) := none
  khStop : Bool := false
  stopDue : Bool := false
  hold : Bool := false
  own : List LineDig := []
  peer : List LineDig := []
  taint : Sparse Nat := []
  runReq : Bool := false
  runFails : List Nat := []
  digs : List (Nat × Nat × Nat) := []
  peerDigs : List (Nat × Nat × Nat) := []
  chk : Option SelfChk := none
  clean : Nat := 0
  joinSig : Option Nat := none
  grant : Option (Nat × Nat × Nat) := none
  joinEnd : Nat := 0
  lastStart : Option (Nat × Int × Bool) := none
  revert : Option (Option Nat × Nat × Bool) := none
  regs : List RegW := []
  joinW : List MapW := []
  lateMap : Nat := 0
  rejoin : Bool := false
  missNs : Option Nat := none
  askChk : Bool := false
  agreed : List Nat := []
  injCfg : Bool := false
  injDrop : Bool := false
  injDig : Bool := false
  deriving DecidableEq, Repr

/-! ## DRAM (R288 to R323) -/

/-- A request in a subchannel's queue (R304): master, A of its first byte, the bytes written (empty for a read), the length, its class
(0 URGENT to 4 BACKGROUND), its node where the master is SPINE, arrival order, the clock at arrival, whether its merge is done (a full
write), whether it is the read of a read-modify-write, whether it is a poison write-back, whether it is a write-back, whether its master takes no response (one
of the device's own), and the requesters (master and A) whose writes have been combined into it (R311). -/
structure MReq where
  master : Nat
  a : Nat
  wr : Bool
  data : Bytes
  mask : List Bool
  len : Nat
  cls : Nat
  node : Nat
  seq : Nat
  ns : Nat
  rmw : Bool
  poison : Bool
  wb : Bool
  quiet : Bool := false
  more : List (Nat × Nat) := []
  deriving DecidableEq, Repr

/-- The states of a subchannel (MEM_SCs_STS.STATE). -/
inductive ScState where
  | absent | init | filling | training | active | retired
  deriving DecidableEq, Repr

/-- A subchannel: its state, whether FILL steps 1 to 3 and TRAIN are done and how often the step has failed, its queues, the drain flag, the open row
of each bank and consecutive row hits, each rank's rate factor, owed refreshes and whether a decrease waits for
a second poll, the correction tracker (codeword, write-backs, most recent first), the clock (us) of each retry and of each device's corrected codewords,
the patrol position, whether the next tracking step is for writes, whether a full write queue is draining to 56, whether an immediate patrol
pass runs, the armed injections (R322) with the codewords whose stored copy an injection corrupted (R431), for each bank put in order the place up to which it is (R308),
the clock (ns) since which a retraining step is deferred (R299), and the clock (ns) at which the patrol's present round began (R317). -/
structure ScSt where
  st : ScState := .absent
  done : Nat := 0
  fails : Nat := 0
  rq : List MReq := []
  wq : List MReq := []
  drain : Bool := false
  openRow : Sparse Nat := []
  hits : Nat := 0
  rate : List Nat := [1, 1]
  owed : List Nat := [0, 0]
  lower : List Bool := [false, false]
  tracker : List (Nat × Nat) := []
  retries : List Nat := []
  devTimes : Sparse (List Nat) := []
  patrol : Nat := 0
  ptWrite : Bool := true
  full : Bool := false
  passing : Bool := false
  injArm : Option Nat := none
  injCrc : Bool := false
  injCws : List Nat := []
  ordered : Sparse Nat := []
  ptDue : Option Nat := none
  patrolAt : Nat := 0
  deriving DecidableEq, Repr

/-- The DRAM controller: its subchannels, the population read at the start of FILL (MEM_CFG then), the arrival counter, the ordering mode read at entry to RUN, and the
requests that their masters hold while a subchannel's queue is full (R29), oldest first. -/
structure MemSt where
  sc : Sparse ScSt := []
  cfg : Nat := 0x00421001
  seq : Nat := 0
  ordMode : Nat := 1
  held : List MReq := []
  filled : Bool := false
  trained : Bool := false
  deriving DecidableEq, Repr

/-! ## On-chip SRAM (R25, R430) -/

/-- The SRAM arrays: the poisoned words (array, word), and the words that an injection has flipped bits of (R431), with whether the error is uncorrectable. -/
structure SramSt where
  poisoned : List (Nat × Nat) := []
  flips : List (Nat × Nat × Bool) := []
  deriving DecidableEq, Repr

/-! ## The whole state -/

/-- The state of the device. `regs` holds every register's live (or shadow) copy by address, an unlisted register holding its reset value;
`active` the active copies of the boundary fields (R13); `win` the words of the table windows by address, cleared to 0 on leaving RESET;
`dram` the stored codewords (R293), 80 bytes a codeword. `tb` is the timebase (R142), `tbFrac` its accumulator, `ns` the controller's count
of TBCLK cycles, `free` the count of free values drawn (the model's own), `out` what the last command put out (the model's own). [DESIGN CHOICE, log 4] -/
structure State where
  pending : List Instr := []
  out : List Output := []
  free : Nat := 0
  tb : Time := 0
  tbFrac : Nat := 0
  ns : Nat := 0
  dev : Dev := .load
  prev : Dev := .reset
  hrb : Bool := false
  hrbFell : Option Nat := none
  fuses : Fuses := {}
  role : Bool := false
  regs : Sparse Word := []
  active : Sparse Word := []
  win : Sparse Word := []
  dram : List Host.Cell := []
  err : ErrSt := {}
  mbx : MbxSt := {}
  smt : Sparse SmtMach := []
  clo : CloSt := {}
  jtag : JtagSt := {}
  spn : SpnSt := {}
  qre : QreSt := {}
  gth : GthSt := {}
  fir : FirSt := {}
  pos : PosSt := {}
  tmb : TmbSt := {}
  thl : ThlSt := {}
  nzh : NzhSt := {}
  ins : InsSt := {}
  cal : CalSt := {}
  fol : FolSt := {}
  mem : MemSt := {}
  sram : SramSt := {}
  deriving DecidableEq, Repr

/-- The machine right after it leaves RESET (R11, R408, R410): in LOAD with flash discovery about to run, every register at its reset value,
memory listing nothing, no command waiting. [DEDUCED, log 3; DESIGN CHOICE, log 4, 5] -/
def State.reset : State := {}

end Sys2Proof.Machine
end

