-- ==== Sys2Proof/Machine/RegTable.lean ====
section
/-!
DEFINITION. The register table: every register family of the spec (the chapters' register tables and offset tables, R71, R100, R125, R160,
R198, R220, R247, R265, R287, R323, R357, R380, R415, R433, R438, R439) with its address, its repetition and its fields: bits, access code (R7),
reset value (R11) and class (R12). `F.<REGISTER>_<FIELD>` names one field; a family's indices are the field's arguments.
-/

namespace Sys2Proof.Machine

/-- The access codes of R7; reserved bits are those no field covers. -/
inductive Acc where
  | rw | ro | wo | w1c | rc
  deriving DecidableEq, Repr

/-- The classes of R12, a boundary class with its boundary. -/
inductive Cls where
  | non | s | l | bLine | bQuire | bSig | bSwath
  deriving DecidableEq, Repr

/-- One field of a register. -/
structure Fld where
  hi : Nat
  lo : Nat
  acc : Acc
  reset : Nat
  cls : Cls
  deriving DecidableEq, Repr

/-- A register family: registers at `base + stride * i + stride2 * j` with `i < n`, `j < n2`. -/
structure Fam where
  base : Nat
  n : Nat
  stride : Nat
  n2 : Nat
  stride2 : Nat
  flds : List Fld
  deriving DecidableEq, Repr

/-- A reference to one field: its register's address, its bits, and whether hardware uses the active copy (R13). -/
structure FR where
  addr : Nat
  hi : Nat
  lo : Nat
  sh : Bool
  deriving DecidableEq, Repr

/-- Registers of block GLB. -/
def famsGLB : List Fam := [
  ⟨0, 1, 0, 1, 0, [⟨31, 16, .ro, 0x7232, .non⟩, ⟨15, 0, .ro, 0x4b4d, .non⟩]⟩, -- GLB_ID
  ⟨4, 1, 0, 1, 0, [⟨9, 8, .ro, 0, .non⟩, ⟨7, 4, .ro, 0, .non⟩, ⟨3, 0, .ro, 0, .non⟩]⟩, -- GLB_REV
  ⟨8, 1, 0, 1, 0, [⟨31, 24, .ro, 0x1f, .non⟩, ⟨23, 16, .ro, 0x7f, .non⟩, ⟨15, 12, .ro, 7, .non⟩, ⟨11, 8, .ro, 4, .non⟩, ⟨7, 4, .ro, 4, .non⟩, ⟨3, 0, .ro, 0xf, .non⟩]⟩, -- GLB_CAP0
  ⟨0xc, 1, 0, 1, 0, [⟨31, 24, .ro, 0x7f, .non⟩, ⟨23, 16, .ro, 0xff, .non⟩, ⟨15, 10, .ro, 0x3f, .non⟩, ⟨9, 6, .ro, 0xc, .non⟩, ⟨5, 5, .ro, 1, .non⟩, ⟨4, 4, .ro, 1, .non⟩, ⟨3, 0, .ro, 0, .non⟩]⟩, -- GLB_CAP1
  ⟨0x10, 1, 0, 1, 0, [⟨0, 0, .rw, 0, .s⟩]⟩, -- GLB_CFG
  ⟨0x14, 1, 0, 1, 0, [⟨11, 8, .ro, 1, .non⟩, ⟨4, 4, .ro, 0, .non⟩, ⟨3, 0, .ro, 2, .non⟩]⟩, -- GLB_STATE
  ⟨0x1c, 1, 0, 1, 0, [⟨31, 31, .ro, 0, .non⟩, ⟨15, 0, .ro, 0, .non⟩]⟩, -- GLB_REFUSE
  ⟨0x20, 1, 0, 1, 0, [⟨23, 0, .ro, 0, .non⟩]⟩, -- GLB_REFADDR
  ⟨0x24, 1, 0, 1, 0, [⟨31, 31, .ro, 0, .non⟩, ⟨15, 0, .ro, 0, .non⟩]⟩, -- GLB_TJ
  ⟨0x28, 1, 0, 1, 0, [⟨31, 0, .rw, 0, .l⟩]⟩, -- GLB_SCRATCH
  ⟨0x30, 4, 4, 1, 0, [⟨31, 0, .ro, 0, .non⟩]⟩, -- GLB_UID
  ⟨0x18, 1, 0, 1, 0, [⟨0, 0, .w1c, 0, .l⟩, ⟨1, 1, .w1c, 0, .l⟩, ⟨2, 2, .ro, 0, .non⟩, ⟨3, 3, .ro, 0, .non⟩, ⟨4, 4, .ro, 0, .non⟩, ⟨5, 5, .w1c, 0, .l⟩, ⟨6, 6, .ro, 0, .non⟩, ⟨7, 7, .ro, 0, .non⟩, ⟨8, 8, .w1c, 0, .l⟩, ⟨9, 9, .ro, 0, .non⟩, ⟨10, 10, .w1c, 0, .l⟩, ⟨11, 11, .w1c, 0, .l⟩, ⟨12, 12, .w1c, 0, .l⟩, ⟨13, 13, .ro, 0, .non⟩, ⟨14, 14, .w1c, 0, .l⟩, ⟨15, 15, .w1c, 0, .l⟩, ⟨16, 16, .ro, 0, .non⟩, ⟨17, 17, .w1c, 0, .l⟩, ⟨18, 18, .ro, 0, .non⟩, ⟨19, 19, .ro, 0, .non⟩, ⟨20, 20, .w1c, 0, .l⟩, ⟨21, 21, .w1c, 0, .l⟩, ⟨22, 22, .w1c, 0, .l⟩, ⟨23, 23, .w1c, 0, .l⟩, ⟨24, 24, .ro, 0, .non⟩, ⟨25, 25, .ro, 0, .non⟩, ⟨26, 26, .w1c, 0, .l⟩, ⟨27, 27, .ro, 0, .non⟩, ⟨28, 28, .ro, 0, .non⟩, ⟨29, 29, .w1c, 0, .l⟩]⟩ -- GLB_ATTN
  ]

/-- Registers of block CLO. -/
def famsCLO : List Fam := [
  ⟨0x10000, 1, 0, 1, 0, [⟨7, 7, .ro, 0, .non⟩, ⟨6, 6, .ro, 0, .non⟩, ⟨5, 5, .ro, 0, .non⟩, ⟨4, 4, .ro, 0, .non⟩, ⟨3, 2, .ro, 0, .non⟩, ⟨1, 1, .ro, 0, .non⟩, ⟨0, 0, .ro, 0, .non⟩]⟩, -- CLO_STS
  ⟨0x10004, 1, 0, 1, 0, [⟨31, 16, .wo, 0, .l⟩, ⟨0, 0, .wo, 0, .l⟩]⟩, -- CLO_CMD
  ⟨0x10008, 1, 0, 1, 0, [⟨15, 0, .rw, 0x32, .s⟩]⟩, -- CLO_BOOTCFG
  ⟨0x1000c, 1, 0, 1, 0, [⟨31, 0, .ro, 0, .non⟩]⟩, -- CLO_SEQ
  ⟨0x10010, 1, 0, 1, 0, [⟨31, 0, .ro, 0, .non⟩]⟩, -- CLO_LEN
  ⟨0x1001c, 1, 0, 1, 0, [⟨0, 0, .ro, 0, .non⟩]⟩, -- CLO_FUSE
  ⟨0x10040, 1, 0, 1, 0, [⟨31, 31, .wo, 0, .l⟩, ⟨30, 30, .ro, 0, .non⟩, ⟨27, 24, .rw, 0, .l⟩, ⟨23, 22, .rw, 0, .l⟩, ⟨21, 21, .rw, 0, .l⟩, ⟨20, 20, .rw, 0, .l⟩, ⟨16, 8, .rw, 0, .l⟩, ⟨7, 0, .rw, 0, .l⟩]⟩, -- CLO_FCTL
  ⟨0x10044, 1, 0, 1, 0, [⟨31, 0, .rw, 0, .l⟩]⟩, -- CLO_FADDR
  ⟨0x10014, 2, 4, 1, 0, [⟨31, 8, .ro, 0, .non⟩, ⟨7, 0, .ro, 0, .non⟩]⟩, -- CLO_ERR
  ⟨0x10020, 8, 4, 1, 0, [⟨31, 0, .ro, 0, .non⟩]⟩, -- CLO_DIGEST
  ⟨0x10100, 64, 4, 1, 0, [⟨31, 0, .rw, 0, .l⟩]⟩ -- CLO_FBUF
  ]

/-- Registers of block QRE. -/
def famsQRE : List Fam := [
  ⟨0x20000, 1, 0, 1, 0, [⟨1, 1, .rw, 1, .l⟩, ⟨0, 0, .rw, 0, .l⟩]⟩, -- QRE_CTL
  ⟨0x20004, 1, 0, 1, 0, [⟨25, 16, .rw, 0x100, .s⟩, ⟨15, 8, .rw, 0x40, .s⟩, ⟨5, 4, .rw, 3, .s⟩]⟩, -- QRE_CFG
  ⟨0x20008, 1, 0, 1, 0, [⟨24, 16, .ro, 0, .non⟩, ⟨3, 3, .ro, 0, .non⟩, ⟨2, 2, .ro, 0, .non⟩, ⟨1, 1, .ro, 0, .non⟩, ⟨0, 0, .ro, 0, .non⟩]⟩, -- QRE_STS
  ⟨0x2000c, 1, 0, 1, 0, [⟨31, 0, .ro, 0, .non⟩]⟩, -- QRE_LARING
  ⟨0x20020, 1, 0, 1, 0, [⟨31, 12, .rw, 0, .s⟩]⟩, -- QRE_STBASE_LO
  ⟨0x20024, 1, 0, 1, 0, [⟨31, 0, .rw, 0, .s⟩]⟩, -- QRE_STBASE_HI
  ⟨0x20028, 1, 0, 1, 0, [⟨23, 0, .rw, 0, .s⟩]⟩, -- QRE_STPAGES
  ⟨0x2002c, 1, 0, 1, 0, [⟨23, 0, .ro, 0, .non⟩]⟩, -- QRE_STFREE
  ⟨0x20030, 1, 0, 1, 0, [⟨31, 16, .rw, 0x64, .s⟩, ⟨11, 8, .rw, 2, .s⟩, ⟨6, 0, .rw, 0, .s⟩]⟩, -- QRE_RSCFG
  ⟨0x20034, 1, 0, 1, 0, [⟨31, 0, .rw, 0, .s⟩]⟩, -- QRE_SIGBASE
  ⟨0x20038, 1, 0, 1, 0, [⟨31, 0, .ro, 0, .non⟩]⟩, -- QRE_SIGCUR
  ⟨0x2003c, 1, 0, 1, 0, [⟨31, 0, .rw, 0, .l⟩]⟩, -- QRE_SIGSEL
  ⟨0x20040, 1, 0, 1, 0, [⟨1, 0, .wo, 0, .l⟩]⟩, -- QRE_SIGCMD
  ⟨0x20044, 1, 0, 1, 0, [⟨31, 0, .ro, 0, .non⟩]⟩, -- QRE_LMIN
  ⟨0x20010, 4, 4, 1, 0, [⟨31, 0, .rw, 0, .s⟩]⟩, -- QRE_CTXEN
  ⟨0x20050, 4, 4, 1, 0, [⟨6, 4, .rw, 0, .l⟩, ⟨1, 0, .rw, 2, .l⟩]⟩, -- QRE_UPCFG
  ⟨0x21000, 128, 4, 1, 0, [⟨31, 24, .ro, 0, .non⟩, ⟨23, 12, .ro, 0, .non⟩, ⟨9, 8, .ro, 0, .non⟩, ⟨7, 5, .ro, 0, .non⟩, ⟨4, 4, .ro, 0, .non⟩, ⟨3, 3, .ro, 0, .non⟩]⟩, -- QRE_CTXSTS
  ⟨0x20080, 1, 0, 1, 0, [⟨31, 0, .rc, 0, .non⟩]⟩, -- QRE_CNT_HDR
  ⟨0x20084, 1, 0, 1, 0, [⟨31, 0, .rc, 0, .non⟩]⟩, -- QRE_CNT_PCRC
  ⟨0x20088, 1, 0, 1, 0, [⟨31, 0, .rc, 0, .non⟩]⟩, -- QRE_CNT_UCRC
  ⟨0x2008c, 1, 0, 1, 0, [⟨31, 0, .rc, 0, .non⟩]⟩, -- QRE_CNT_MALF
  ⟨0x20090, 1, 0, 1, 0, [⟨31, 0, .rc, 0, .non⟩]⟩, -- QRE_CNT_DUP
  ⟨0x20094, 1, 0, 1, 0, [⟨31, 0, .rc, 0, .non⟩]⟩, -- QRE_CNT_STALE
  ⟨0x20098, 1, 0, 1, 0, [⟨31, 0, .rc, 0, .non⟩]⟩, -- QRE_CNT_RSREQ
  ⟨0x2009c, 1, 0, 1, 0, [⟨31, 0, .rc, 0, .non⟩]⟩ -- QRE_CNT_RSOK
  ]

/-- Registers of block GTH. -/
def famsGTH : List Fam := [
  ⟨0x30000, 1, 0, 1, 0, [⟨2, 2, .rw, 1, .bSig⟩, ⟨1, 1, .rw, 1, .bLine⟩, ⟨0, 0, .rw, 1, .bLine⟩]⟩, -- GTH_CTL
  ⟨0x30004, 1, 0, 1, 0, [⟨1, 0, .rw, 2, .s⟩]⟩, -- GTH_CFG
  ⟨0x30008, 1, 0, 1, 0, [⟨2, 2, .ro, 0, .non⟩, ⟨1, 1, .ro, 0, .non⟩, ⟨0, 0, .ro, 0, .non⟩]⟩, -- GTH_STS
  ⟨0x3000c, 1, 0, 1, 0, [⟨31, 28, .rw, 0, .s⟩, ⟨27, 26, .rw, 0, .s⟩, ⟨25, 25, .rw, 0, .s⟩, ⟨16, 0, .rw, 0, .s⟩]⟩, -- GTH_SCANCFG
  ⟨0x30010, 1, 0, 1, 0, [⟨31, 0, .rw, 0x100000, .s⟩]⟩, -- GTH_SIGMAXL
  ⟨0x30014, 1, 0, 1, 0, [⟨31, 0, .ro, 0, .non⟩]⟩, -- GTH_MBUNDLE
  ⟨0x30018, 1, 0, 1, 0, [⟨31, 0, .ro, 0, .non⟩]⟩, -- GTH_LINECNT
  ⟨0x30020, 1, 0, 1, 0, [⟨31, 12, .rw, 0, .s⟩]⟩, -- GTH_PTBASE_LO
  ⟨0x30024, 1, 0, 1, 0, [⟨31, 0, .rw, 0, .s⟩]⟩, -- GTH_PTBASE_HI
  ⟨0x30028, 1, 0, 1, 0, [⟨31, 12, .rw, 0, .s⟩]⟩, -- GTH_PTIDX_LO
  ⟨0x3002c, 1, 0, 1, 0, [⟨31, 0, .rw, 0, .s⟩]⟩, -- GTH_PTIDX_HI
  ⟨0x30030, 1, 0, 1, 0, [⟨23, 0, .rw, 0, .s⟩]⟩, -- GTH_PTLINES
  ⟨0x30034, 1, 0, 1, 0, [⟨23, 0, .ro, 0, .non⟩]⟩, -- GTH_PTHEAD
  ⟨0x30040, 4, 4, 1, 0, [⟨11, 9, .rw, 5, .bSig⟩, ⟨8, 6, .rw, 3, .bSig⟩, ⟨5, 3, .rw, 1, .bSig⟩, ⟨2, 0, .rw, 1, .bSig⟩]⟩, -- GTH_EXPSET
  ⟨0x30080, 16, 4, 1, 0, [⟨16, 16, .rw, 0, .bSig⟩, ⟨15, 12, .rw, 0, .bLine⟩, ⟨11, 8, .rw, 0, .bLine⟩, ⟨7, 4, .rw, 0, .bLine⟩, ⟨3, 0, .rw, 0, .bLine⟩]⟩, -- GTH_SUBWT
  ⟨0x30100, 32, 4, 1, 0, [⟨31, 30, .rw, 0, .s⟩, ⟨27, 20, .rw, 0, .bSig⟩, ⟨16, 0, .rw, 0, .s⟩]⟩, -- GTH_MODCFG
  ⟨0x30200, 31, 4, 1, 0, [⟨10, 8, .rw, 0, .bSig⟩, ⟨5, 0, .rw, 0, .s⟩]⟩, -- GTH_SEAM
  ⟨0x30300, 1, 0, 1, 0, [⟨31, 0, .rc, 0, .non⟩]⟩, -- GTH_CNT_LATE
  ⟨0x30304, 1, 0, 1, 0, [⟨31, 0, .rc, 0, .non⟩]⟩, -- GTH_CNT_TIPSAT
  ⟨0x30308, 1, 0, 1, 0, [⟨31, 0, .rc, 0, .non⟩]⟩, -- GTH_CNT_TAKEOVER
  ⟨0x3030c, 1, 0, 1, 0, [⟨31, 0, .rc, 0, .non⟩]⟩ -- GTH_CNT_PSUBMISS
  ]

/-- Registers of block FIR. -/
def famsFIR : List Fam := [
  ⟨0x40000, 1, 0, 1, 0, [⟨0, 0, .rw, 1, .bSig⟩]⟩, -- FIR_CTL
  ⟨0x40004, 1, 0, 1, 0, [⟨27, 16, .rw, 0x64, .s⟩, ⟨11, 0, .rw, 0x12c, .s⟩]⟩, -- FIR_FGCFG
  ⟨0x40008, 1, 0, 1, 0, [⟨2, 2, .ro, 0, .non⟩, ⟨1, 1, .ro, 0, .non⟩, ⟨0, 0, .ro, 0, .non⟩]⟩, -- FIR_STS
  ⟨0x4000c, 1, 0, 1, 0, [⟨11, 8, .rw, 4, .bSig⟩, ⟨5, 3, .rw, 5, .bSig⟩, ⟨2, 0, .rw, 2, .bSig⟩]⟩, -- FIR_HCFG
  ⟨0x40010, 1, 0, 1, 0, [⟨31, 28, .rw, 0xc, .bSig⟩, ⟨27, 24, .rw, 0xf, .bSig⟩, ⟨23, 20, .rw, 0xe, .bSig⟩, ⟨19, 16, .rw, 8, .s⟩, ⟨15, 8, .rw, 0x10, .bSig⟩, ⟨3, 0, .rw, 4, .s⟩]⟩, -- FIR_TCFG
  ⟨0x40014, 1, 0, 1, 0, [⟨27, 16, .rw, 0, .l⟩, ⟨11, 0, .rw, 0, .l⟩]⟩, -- FIR_TLIM
  ⟨0x40018, 1, 0, 1, 0, [⟨15, 0, .rw, 0, .bSig⟩]⟩, -- FIR_FLOOR
  ⟨0x4001c, 1, 0, 1, 0, [⟨5, 0, .rw, 6, .s⟩]⟩, -- FIR_WDCFG
  ⟨0x40020, 1, 0, 1, 0, [⟨31, 0, .w1c, 0, .l⟩]⟩, -- FIR_WDSTS
  ⟨0x40024, 1, 0, 1, 0, [⟨23, 0, .rw, 0x1d4c0, .bSig⟩]⟩, -- FIR_GOVSLOT
  ⟨0x40028, 1, 0, 1, 0, [⟨23, 0, .rw, 0x16e360, .bSig⟩]⟩, -- FIR_GOVLINE
  ⟨0x4002c, 1, 0, 1, 0, [⟨23, 0, .rw, 0x249f0, .bSig⟩]⟩, -- FIR_GOVPWR
  ⟨0x40030, 1, 0, 1, 0, [⟨31, 0, .ro, 0, .non⟩]⟩, -- FIR_GOVWIN
  ⟨0x40040, 15, 4, 1, 0, [⟨11, 0, .rw, 0, .bSig⟩]⟩, -- FIR_TBTHR
  ⟨0x40080, 32, 4, 1, 0, [⟨7, 0, .rw, 0, .s⟩]⟩, -- FIR_MODCFG
  ⟨0x40100, 32, 4, 1, 0, [⟨31, 31, .ro, 0, .non⟩, ⟨30, 30, .ro, 0, .non⟩, ⟨29, 29, .ro, 0, .non⟩, ⟨27, 24, .ro, 0, .non⟩, ⟨11, 0, .ro, 0, .non⟩]⟩, -- FIR_TEMP
  ⟨0x40200, 4, 0x40, 16, 4, [⟨15, 0, .rw, 0x280, .s⟩]⟩, -- FIR_EPD
  ⟨0x40300, 1, 0, 1, 0, [⟨31, 0, .rc, 0, .non⟩]⟩, -- FIR_CNT_IDXLOW
  ⟨0x40304, 1, 0, 1, 0, [⟨31, 0, .rc, 0, .non⟩]⟩, -- FIR_CNT_SHAVE
  ⟨0x40308, 1, 0, 1, 0, [⟨31, 0, .rc, 0, .non⟩]⟩, -- FIR_CNT_DRSHAVE
  ⟨0x4030c, 1, 0, 1, 0, [⟨31, 0, .rc, 0, .non⟩]⟩, -- FIR_CNT_FENSLIP
  ⟨0x40310, 1, 0, 1, 0, [⟨31, 0, .rc, 0, .non⟩]⟩, -- FIR_CNT_TSTALE
  ⟨0x40314, 1, 0, 1, 0, [⟨31, 0, .rc, 0, .non⟩]⟩ -- FIR_CNT_WITHHELD
  ]

/-- Registers of block POS. -/
def famsPOS0 : List Fam := [
  ⟨0x50000, 1, 0, 1, 0, [⟨2, 2, .rw, 0, .s⟩, ⟨1, 0, .rw, 0, .s⟩]⟩, -- POS_CTL
  ⟨0x50004, 1, 0, 1, 0, [⟨10, 8, .ro, 0, .non⟩, ⟨2, 2, .ro, 0, .non⟩, ⟨1, 1, .ro, 0, .non⟩, ⟨0, 0, .ro, 0, .non⟩]⟩, -- POS_STS
  ⟨0x50008, 1, 0, 1, 0, [⟨1, 1, .wo, 0, .l⟩, ⟨0, 0, .wo, 0, .l⟩]⟩, -- POS_CMD
  ⟨0x5000c, 1, 0, 1, 0, [⟨18, 0, .rw, 0x30d40, .s⟩]⟩, -- POS_LRMAX
  ⟨0x50010, 1, 0, 1, 0, [⟨31, 0, .rw, 0xfa0000, .s⟩]⟩, -- POS_PITCH
  ⟨0x50014, 1, 0, 1, 0, [⟨31, 8, .rw, 0x3e8, .s⟩, ⟨2, 2, .rw, 0, .s⟩, ⟨1, 0, .rw, 0, .s⟩]⟩, -- POS_SIGCFG
  ⟨0x50018, 1, 0, 1, 0, [⟨31, 0, .rw, 0, .bSig⟩]⟩, -- POS_REPEAT
  ⟨0x5001c, 1, 0, 1, 0, [⟨31, 16, .rw, 0x40, .s⟩, ⟨11, 8, .rw, 3, .s⟩, ⟨3, 0, .rw, 4, .s⟩]⟩, -- POS_VCFG
  ⟨0x50028, 1, 0, 1, 0, [⟨31, 0, .rw, 0, .s⟩]⟩, -- POS_ZVAL_LO
  ⟨0x5002c, 1, 0, 1, 0, [⟨15, 0, .rw, 0, .s⟩]⟩, -- POS_ZVAL_HI
  ⟨0x50030, 1, 0, 1, 0, [⟨31, 0, .rw, 0, .bSwath⟩]⟩, -- POS_SWORGF_LO
  ⟨0x50034, 1, 0, 1, 0, [⟨15, 0, .rw, 0, .bSwath⟩]⟩, -- POS_SWORGF_HI
  ⟨0x50038, 1, 0, 1, 0, [⟨31, 0, .rw, 0, .bSwath⟩]⟩, -- POS_SWORGR_LO
  ⟨0x5003c, 1, 0, 1, 0, [⟨15, 0, .rw, 0, .bSwath⟩]⟩, -- POS_SWORGR_HI
  ⟨0x50040, 1, 0, 1, 0, [⟨31, 0, .ro, 0, .non⟩]⟩, -- POS_POS_LO
  ⟨0x50044, 1, 0, 1, 0, [⟨31, 0, .ro, 0, .non⟩]⟩, -- POS_POS_HI
  ⟨0x50048, 1, 0, 1, 0, [⟨31, 0, .ro, 0, .non⟩]⟩, -- POS_ZLAT_LO
  ⟨0x5004c, 1, 0, 1, 0, [⟨31, 0, .ro, 0, .non⟩]⟩, -- POS_ZLAT_HI
  ⟨0x50050, 1, 0, 1, 0, [⟨31, 0, .ro, 0, .non⟩]⟩, -- POS_SIGPOS_LO
  ⟨0x50054, 1, 0, 1, 0, [⟨31, 0, .ro, 0, .non⟩]⟩, -- POS_SIGPOS_HI
  ⟨0x50058, 1, 0, 1, 0, [⟨31, 16, .rw, 0, .s⟩, ⟨15, 8, .rw, 0x10, .l⟩, ⟨6, 4, .rw, 5, .s⟩, ⟨2, 0, .rw, 2, .s⟩]⟩, -- POS_BCNCFG
  ⟨0x50020, 2, 4, 1, 0, [⟨9, 8, .rw, 1, .s⟩, ⟨7, 7, .rw, 0, .s⟩, ⟨6, 4, .rw, 1, .s⟩]⟩, -- POS_ENCCFG
  ⟨0x50060, 8, 4, 1, 0, [⟨16, 16, .rw, 0, .s⟩, ⟨15, 0, .rw, 0, .s⟩]⟩, -- POS_BCNDST
  ⟨0x50100, 32, 4, 1, 0, [⟨31, 24, .rw, 0, .bSig⟩, ⟨23, 16, .rw, 0, .bSig⟩, ⟨7, 0, .rw, 0, .s⟩]⟩, -- POS_PHASE
  ⟨0x50200, 1, 0, 1, 0, [⟨31, 0, .rc, 0, .non⟩]⟩, -- POS_CNT_JITTER
  ⟨0x50204, 1, 0, 1, 0, [⟨31, 0, .rc, 0, .non⟩]⟩, -- POS_CNT_BACKWARD
  ⟨0x50208, 1, 0, 1, 0, [⟨31, 0, .rc, 0, .non⟩]⟩, -- POS_CNT_ENCERR
  ⟨0x5020c, 1, 0, 1, 0, [⟨31, 0, .rc, 0, .non⟩]⟩, -- POS_CNT_FAST
  ⟨0x50210, 1, 0, 1, 0, [⟨31, 0, .rc, 0, .non⟩]⟩, -- POS_CNT_PHCLIP
  ⟨0x50214, 1, 0, 1, 0, [⟨31, 0, .rc, 0, .non⟩]⟩ -- POS_CNT_BCNEPOCH
  ]

/-- Registers of block POS. -/
def famsPOS1 : List Fam := [
  ⟨0x50218, 1, 0, 1, 0, [⟨31, 0, .rc, 0, .non⟩]⟩ -- POS_CNT_CATCHUP
  ]

/-- Registers of block POS. -/
def famsPOS : List Fam := famsPOS0 ++ famsPOS1

/-- Registers of block TMB. -/
def famsTMB : List Fam := [
  ⟨0x60000, 1, 0, 1, 0, [⟨5, 5, .rw, 0, .s⟩, ⟨4, 2, .rw, 4, .s⟩, ⟨1, 0, .rw, 0, .s⟩]⟩, -- TMB_CTL
  ⟨0x60004, 1, 0, 1, 0, [⟨6, 4, .ro, 0, .non⟩, ⟨2, 2, .ro, 0, .non⟩, ⟨1, 1, .ro, 0, .non⟩, ⟨0, 0, .ro, 0, .non⟩]⟩, -- TMB_STS
  ⟨0x60008, 1, 0, 1, 0, [⟨31, 0, .ro, 0, .non⟩]⟩, -- TMB_NOW_LO
  ⟨0x6000c, 1, 0, 1, 0, [⟨31, 0, .ro, 0, .non⟩]⟩, -- TMB_NOW_HI
  ⟨0x60010, 1, 0, 1, 0, [⟨15, 0, .ro, 0, .non⟩]⟩, -- TMB_EPOCH
  ⟨0x60014, 1, 0, 1, 0, [⟨31, 0, .rw, 0, .l⟩]⟩, -- TMB_FADJ
  ⟨0x60018, 1, 0, 1, 0, [⟨31, 16, .rw, 0x7d, .s⟩, ⟨15, 0, .rw, 0x3e8, .s⟩]⟩, -- TMB_SYNCCFG
  ⟨0x6001c, 1, 0, 1, 0, [⟨23, 0, .rw, 0x3e8, .l⟩]⟩, -- TMB_STEPTHR
  ⟨0x60020, 1, 0, 1, 0, [⟨23, 16, .rw, 0x19, .s⟩, ⟨11, 8, .rw, 7, .s⟩, ⟨3, 0, .rw, 3, .s⟩]⟩, -- TMB_SERVO
  ⟨0x60024, 1, 0, 1, 0, [⟨31, 0, .ro, 0, .non⟩]⟩, -- TMB_OFFSET
  ⟨0x60028, 1, 0, 1, 0, [⟨31, 0, .rw, 0, .l⟩]⟩, -- TMB_SET_LO
  ⟨0x6002c, 1, 0, 1, 0, [⟨31, 0, .rw, 0, .l⟩]⟩, -- TMB_SET_HI
  ⟨0x60030, 1, 0, 1, 0, [⟨15, 0, .rw, 0, .s⟩]⟩, -- TMB_MASTER
  ⟨0x60034, 1, 0, 1, 0, [⟨0, 0, .wo, 0, .l⟩]⟩, -- TMB_CMD
  ⟨0x60040, 4, 4, 1, 0, [⟨31, 0, .ro, 0, .non⟩]⟩, -- TMB_PDELAY
  ⟨0x60050, 4, 4, 1, 0, [⟨15, 0, .rw, 0, .s⟩]⟩, -- TMB_ASYM
  ⟨0x60080, 8, 8, 1, 0, [⟨31, 0, .rw, 0, .l⟩]⟩, -- TMB_EVT_LO
  ⟨0x60084, 8, 8, 1, 0, [⟨31, 0, .rw, 0, .l⟩]⟩, -- TMB_EVT_HI
  ⟨0x600c0, 8, 4, 1, 0, [⟨8, 2, .rw, 0, .l⟩, ⟨1, 1, .rw, 0, .l⟩, ⟨0, 0, .rw, 0, .l⟩]⟩, -- TMB_EVTCTL
  ⟨0x60100, 1, 0, 1, 0, [⟨31, 0, .rc, 0, .non⟩]⟩, -- TMB_CNT_STEP
  ⟨0x60104, 1, 0, 1, 0, [⟨31, 0, .rc, 0, .non⟩]⟩, -- TMB_CNT_SYNCLOST
  ⟨0x60108, 1, 0, 1, 0, [⟨31, 0, .rc, 0, .non⟩]⟩ -- TMB_CNT_SYNCREJ
  ]

/-- Registers of block THL. -/
def famsTHL : List Fam := [
  ⟨0x80000, 32, 0x4000, 1, 0, [⟨0, 0, .rw, 0, .s⟩]⟩, -- THL_CTL
  ⟨0x80004, 32, 0x4000, 1, 0, [⟨31, 16, .rw, 0x81f, .l⟩, ⟨5, 5, .rw, 0, .s⟩, ⟨4, 4, .rw, 1, .s⟩, ⟨1, 0, .rw, 1, .s⟩]⟩, -- THL_CFG
  ⟨0x80008, 32, 0x4000, 1, 0, [⟨31, 28, .ro, 0, .non⟩, ⟨19, 19, .ro, 0, .non⟩, ⟨18, 18, .ro, 0, .non⟩, ⟨17, 17, .ro, 0, .non⟩, ⟨16, 16, .ro, 0, .non⟩, ⟨15, 0, .ro, 0, .non⟩]⟩, -- THL_LANESTS
  ⟨0x8000c, 32, 0x4000, 1, 0, [⟨25, 24, .rw, 2, .s⟩, ⟨11, 0, .rw, 0x12c, .s⟩]⟩, -- THL_RTCFG
  ⟨0x80010, 32, 0x4000, 1, 0, [⟨31, 0, .ro, 0, .non⟩]⟩, -- THL_BBUNDLE
  ⟨0x80014, 32, 0x4000, 1, 0, [⟨31, 24, .rw, 4, .s⟩, ⟨19, 16, .rw, 4, .s⟩, ⟨15, 0, .rw, 0x100, .s⟩]⟩, -- THL_RETCFG
  ⟨0x80018, 32, 0x4000, 1, 0, [⟨15, 12, .rw, 1, .s⟩, ⟨11, 8, .rw, 3, .s⟩, ⟨7, 4, .rw, 0, .s⟩, ⟨0, 0, .rw, 0, .l⟩]⟩, -- THL_EQCFG
  ⟨0x8001c, 32, 0x4000, 1, 0, [⟨31, 28, .ro, 0, .non⟩, ⟨24, 0, .ro, 0, .non⟩]⟩, -- THL_EQSTS
  ⟨0x80020, 32, 0x4000, 1, 0, [⟨31, 31, .ro, 0, .non⟩, ⟨15, 12, .rw, 0, .l⟩, ⟨6, 6, .wo, 0, .l⟩, ⟨5, 5, .rw, 0, .l⟩, ⟨4, 4, .rw, 0, .l⟩, ⟨3, 3, .rw, 0, .l⟩, ⟨1, 0, .rw, 3, .l⟩]⟩, -- THL_PRBS
  ⟨0x80024, 32, 0x4000, 1, 0, [⟨31, 0, .rc, 0, .non⟩]⟩, -- THL_PRBSERR
  ⟨0x80028, 32, 0x4000, 1, 0, [⟨4, 4, .wo, 0, .l⟩, ⟨3, 3, .wo, 0, .l⟩, ⟨2, 2, .wo, 0, .l⟩, ⟨1, 1, .wo, 0, .l⟩, ⟨0, 0, .wo, 0, .l⟩]⟩, -- THL_INJ
  ⟨0x8002c, 32, 0x4000, 1, 0, [⟨3, 3, .wo, 0, .l⟩, ⟨2, 2, .wo, 0, .l⟩, ⟨1, 1, .wo, 0, .l⟩, ⟨0, 0, .wo, 0, .l⟩]⟩, -- THL_CMD
  ⟨0x80030, 32, 0x4000, 6, 4, [⟨31, 0, .ro, 0, .non⟩]⟩, -- THL_CAP
  ⟨0x80050, 32, 0x4000, 3, 4, [⟨31, 0, .ro, 0, .non⟩]⟩, -- THL_LASTSTS
  ⟨0x80080, 32, 0x4000, 1, 0, [⟨31, 0, .rc, 0, .non⟩]⟩, -- THL_CNT_NAK
  ⟨0x80084, 32, 0x4000, 1, 0, [⟨31, 0, .rc, 0, .non⟩]⟩, -- THL_CNT_ACKTMO
  ⟨0x80088, 32, 0x4000, 1, 0, [⟨31, 0, .rc, 0, .non⟩]⟩, -- THL_CNT_RESENT
  ⟨0x8008c, 32, 0x4000, 1, 0, [⟨31, 0, .rc, 0, .non⟩]⟩, -- THL_CNT_ACKLOST
  ⟨0x80090, 32, 0x4000, 1, 0, [⟨31, 0, .rc, 0, .non⟩]⟩, -- THL_CNT_CTLBAD
  ⟨0x80094, 32, 0x4000, 1, 0, [⟨31, 0, .rc, 0, .non⟩]⟩, -- THL_CNT_STSCRC
  ⟨0x80098, 32, 0x4000, 1, 0, [⟨31, 0, .rc, 0, .non⟩]⟩, -- THL_CNT_RECOVER
  ⟨0x8009c, 32, 0x4000, 1, 0, [⟨31, 0, .rc, 0, .non⟩]⟩, -- THL_CNT_MISMATCH
  ⟨0x800a0, 32, 0x4000, 1, 0, [⟨31, 0, .rc, 0, .non⟩]⟩ -- THL_CNT_SKIP
  ]

/-- Registers of block NZH. -/
def famsNZH : List Fam := [
  ⟨0x100000, 1, 0, 1, 0, [⟨31, 24, .rw, 0, .l⟩, ⟨23, 20, .rw, 3, .l⟩, ⟨3, 3, .rw, 0, .s⟩, ⟨2, 2, .rw, 1, .l⟩, ⟨1, 1, .rw, 1, .l⟩, ⟨0, 0, .rw, 1, .l⟩]⟩, -- NZH_CTL
  ⟨0x100004, 1, 0, 1, 0, [⟨1, 1, .ro, 0, .non⟩, ⟨0, 0, .ro, 0, .non⟩]⟩, -- NZH_STS
  ⟨0x100008, 1, 0, 1, 0, [⟨2, 2, .wo, 0, .l⟩, ⟨1, 1, .wo, 0, .l⟩, ⟨0, 0, .wo, 0, .l⟩]⟩, -- NZH_CMD
  ⟨0x10000c, 1, 0, 1, 0, [⟨11, 0, .rw, 0x100, .s⟩]⟩, -- NZH_MEASCFG
  ⟨0x100010, 1, 0, 1, 0, [⟨4, 4, .rw, 0, .bSig⟩, ⟨1, 0, .rw, 1, .bSig⟩]⟩, -- NZH_CLSCFG
  ⟨0x100014, 1, 0, 1, 0, [⟨13, 8, .rw, 0x3f, .l⟩, ⟨7, 0, .rw, 0x10, .s⟩]⟩, -- NZH_MAPCFG
  ⟨0x100018, 1, 0, 1, 0, [⟨9, 8, .rw, 0, .s⟩, ⟨7, 7, .rw, 0, .l⟩, ⟨6, 0, .rw, 0, .s⟩]⟩, -- NZH_RPTCFG
  ⟨0x100040, 1, 0, 1, 0, [⟨31, 31, .wo, 0, .l⟩, ⟨20, 16, .rw, 0, .l⟩, ⟨9, 0, .rw, 0, .l⟩]⟩, -- NZH_INJ
  ⟨0x100020, 4, 4, 1, 0, [⟨25, 16, .rw, 0x3ff, .bSig⟩, ⟨9, 0, .rw, 0, .bSig⟩]⟩, -- NZH_CLSA
  ⟨0x100030, 4, 4, 1, 0, [⟨25, 16, .rw, 0x3fe, .bSig⟩, ⟨9, 0, .rw, 1, .bSig⟩]⟩, -- NZH_CLSB
  ⟨0x100100, 32, 4, 1, 0, [⟨31, 20, .ro, 0, .non⟩, ⟨19, 14, .ro, 0, .non⟩, ⟨13, 13, .ro, 0, .non⟩, ⟨12, 0, .ro, 0, .non⟩]⟩, -- NZH_MODSTS
  ⟨0x100200, 1, 0, 1, 0, [⟨31, 0, .rc, 0, .non⟩]⟩, -- NZH_CNT_MEAS
  ⟨0x100204, 1, 0, 1, 0, [⟨31, 0, .rc, 0, .non⟩]⟩, -- NZH_CNT_ABORT
  ⟨0x100208, 1, 0, 1, 0, [⟨31, 0, .rc, 0, .non⟩]⟩, -- NZH_CNT_INVALID
  ⟨0x10020c, 1, 0, 1, 0, [⟨31, 0, .rc, 0, .non⟩]⟩, -- NZH_CNT_CHANGE
  ⟨0x100210, 1, 0, 1, 0, [⟨31, 0, .rc, 0, .non⟩]⟩, -- NZH_CNT_UNCONF
  ⟨0x100214, 1, 0, 1, 0, [⟨31, 0, .rc, 0, .non⟩]⟩, -- NZH_CNT_PENDFULL
  ⟨0x100218, 1, 0, 1, 0, [⟨31, 0, .rc, 0, .non⟩]⟩, -- NZH_CNT_STALEWR
  ⟨0x10021c, 1, 0, 1, 0, [⟨31, 0, .rc, 0, .non⟩]⟩, -- NZH_CNT_MAPLATE
  ⟨0x100220, 1, 0, 1, 0, [⟨31, 0, .rc, 0, .non⟩]⟩, -- NZH_CNT_STAGEFULL
  ⟨0x100224, 1, 0, 1, 0, [⟨31, 0, .rc, 0, .non⟩]⟩, -- NZH_CNT_RPTLOST
  ⟨0x100228, 1, 0, 1, 0, [⟨31, 0, .rc, 0, .non⟩]⟩ -- NZH_CNT_FOLDIFF
  ]

/-- Registers of block INS. -/
def famsINS0 : List Fam := [
  ⟨0x110000, 1, 0, 1, 0, [⟨31, 24, .rw, 8, .l⟩, ⟨23, 16, .rw, 0x64, .l⟩, ⟨3, 3, .rw, 1, .l⟩, ⟨2, 2, .rw, 1, .l⟩, ⟨1, 1, .rw, 1, .l⟩, ⟨0, 0, .rw, 0, .s⟩]⟩, -- INS_CTL
  ⟨0x110004, 1, 0, 1, 0, [⟨19, 16, .ro, 0, .non⟩, ⟨15, 8, .ro, 0, .non⟩, ⟨3, 3, .ro, 0, .non⟩, ⟨2, 0, .ro, 0, .non⟩]⟩, -- INS_STS
  ⟨0x110008, 1, 0, 1, 0, [⟨7, 4, .wo, 0, .l⟩, ⟨0, 0, .wo, 0, .l⟩]⟩, -- INS_CMD
  ⟨0x11000c, 1, 0, 1, 0, [⟨31, 24, .rw, 0x10, .s⟩, ⟨23, 16, .rw, 0x80, .s⟩, ⟨15, 12, .rw, 0xf, .s⟩, ⟨4, 0, .rw, 0x1a, .s⟩]⟩, -- INS_COLCFG
  ⟨0x110010, 1, 0, 1, 0, [⟨31, 24, .rw, 0x99, .l⟩, ⟨23, 16, .rw, 0x10, .l⟩, ⟨15, 12, .rw, 8, .l⟩, ⟨11, 8, .rw, 8, .l⟩]⟩, -- INS_REGCFG
  ⟨0x110014, 1, 0, 1, 0, [⟨15, 0, .rw, 0x40, .s⟩]⟩, -- INS_RETCFG
  ⟨0x110018, 1, 0, 1, 0, [⟨5, 4, .rw, 0, .l⟩, ⟨3, 3, .wo, 0, .l⟩, ⟨2, 2, .wo, 0, .l⟩, ⟨1, 1, .wo, 0, .l⟩, ⟨0, 0, .wo, 0, .l⟩]⟩, -- INS_INJ
  ⟨0x110020, 4, 4, 1, 0, [⟨23, 16, .rw, 0xe4, .s⟩, ⟨15, 12, .rw, 0, .s⟩, ⟨11, 11, .rw, 0, .s⟩, ⟨2, 2, .rw, 0, .s⟩, ⟨1, 0, .rw, 2, .s⟩]⟩, -- INS_PORTCFG
  ⟨0x110030, 4, 4, 1, 0, [⟨3, 3, .ro, 0, .non⟩, ⟨2, 2, .ro, 0, .non⟩, ⟨1, 1, .ro, 0, .non⟩, ⟨0, 0, .ro, 0, .non⟩]⟩, -- INS_PORTSTS
  ⟨0x110040, 4, 0xc, 1, 0, [⟨31, 16, .rw, 0x1ed, .bSig⟩, ⟨15, 0, .rw, 0, .bSig⟩]⟩, -- INS_TRIG_CFG
  ⟨0x110044, 4, 0xc, 1, 0, [⟨31, 16, .rw, 0x64, .bSig⟩, ⟨15, 0, .rw, 0x3e8, .bSig⟩]⟩, -- INS_TRIG_CT
  ⟨0x110048, 4, 0xc, 1, 0, [⟨31, 16, .rw, 0xc8, .bSig⟩, ⟨15, 0, .rw, 0x190, .bSig⟩]⟩, -- INS_TRIG_LS
  ⟨0x110080, 4, 8, 1, 0, [⟨31, 0, .rw, 0, .s⟩]⟩, -- INS_LDT_LO
  ⟨0x110084, 4, 8, 1, 0, [⟨31, 0, .rw, 0, .s⟩]⟩, -- INS_LDT_HI
  ⟨0x110100, 8, 0x80, 1, 0, [⟨31, 31, .rw, 0, .s⟩, ⟨30, 29, .rw, 0, .s⟩, ⟨28, 27, .rw, 0, .s⟩, ⟨26, 26, .rw, 1, .s⟩, ⟨25, 24, .rw, 0, .l⟩, ⟨23, 22, .rw, 0, .s⟩, ⟨21, 20, .rw, 0, .l⟩, ⟨19, 18, .rw, 0, .l⟩, ⟨17, 17, .rw, 0, .l⟩, ⟨11, 0, .rw, 0, .l⟩]⟩, -- INS_CTX_CFG
  ⟨0x110104, 8, 0x80, 1, 0, [⟨28, 16, .rw, 0x1c00, .s⟩, ⟨11, 0, .rw, 0x40, .s⟩]⟩, -- INS_CTX_SIZE
  ⟨0x110108, 8, 0x80, 1, 0, [⟨27, 16, .rw, 0, .l⟩, ⟨11, 0, .rw, 0, .l⟩]⟩, -- INS_CTX_BLK01
  ⟨0x11010c, 8, 0x80, 1, 0, [⟨27, 16, .rw, 0, .l⟩, ⟨11, 0, .rw, 0, .l⟩]⟩, -- INS_CTX_BLK23
  ⟨0x110128, 8, 0x80, 1, 0, [⟨31, 16, .rw, 0, .l⟩, ⟨15, 0, .rw, 0, .l⟩]⟩, -- INS_CTX_OFS01
  ⟨0x11012c, 8, 0x80, 1, 0, [⟨31, 16, .rw, 0, .l⟩, ⟨15, 0, .rw, 0, .l⟩]⟩, -- INS_CTX_OFS23
  ⟨0x110130, 8, 0x80, 1, 0, [⟨31, 0, .rw, 0, .l⟩]⟩, -- INS_CTX_XORG
  ⟨0x110134, 8, 0x80, 1, 0, [⟨15, 0, .rw, 0x2300, .l⟩]⟩, -- INS_CTX_XPITCH
  ⟨0x110138, 8, 0x80, 1, 0, [⟨31, 0, .rw, 0, .l⟩]⟩, -- INS_CTX_CAMDY
  ⟨0x11013c, 8, 0x80, 1, 0, [⟨31, 0, .rw, 0x1100000, .l⟩]⟩, -- INS_CTX_RPITCH
  ⟨0x110140, 8, 0x80, 1, 0, [⟨31, 16, .rw, 0, .l⟩, ⟨15, 0, .rw, 0, .l⟩]⟩, -- INS_CTX_REGCOR
  ⟨0x110144, 8, 0x80, 1, 0, [⟨31, 31, .ro, 0, .non⟩, ⟨30, 30, .ro, 0, .non⟩, ⟨29, 29, .ro, 0, .non⟩, ⟨28, 28, .ro, 0, .non⟩, ⟨27, 27, .ro, 0, .non⟩, ⟨26, 26, .ro, 0, .non⟩, ⟨25, 25, .ro, 0, .non⟩, ⟨24, 24, .ro, 0, .non⟩, ⟨23, 12, .ro, 0, .non⟩, ⟨11, 0, .ro, 0, .non⟩]⟩, -- INS_CTX_FSTS
  ⟨0x110148, 8, 0x80, 1, 0, [⟨31, 16, .ro, 0, .non⟩, ⟨15, 0, .ro, 0, .non⟩]⟩, -- INS_CTX_FCNT
  ⟨0x110110, 8, 0x80, 1, 0, [⟨31, 16, .rw, 0, .l⟩, ⟨15, 0, .rw, 0x400, .l⟩]⟩, -- INS_CTX_CM0
  ⟨0x110114, 8, 0x80, 1, 0, [⟨31, 16, .rw, 0, .l⟩, ⟨15, 0, .rw, 0, .l⟩]⟩, -- INS_CTX_CM1
  ⟨0x110118, 8, 0x80, 1, 0, [⟨31, 16, .rw, 0, .l⟩, ⟨15, 0, .rw, 0x400, .l⟩]⟩ -- INS_CTX_CM2
  ]

/-- Registers of block INS. -/
def famsINS1 : List Fam := [
  ⟨0x11011c, 8, 0x80, 1, 0, [⟨31, 16, .rw, 0, .l⟩, ⟨15, 0, .rw, 0, .l⟩]⟩, -- INS_CTX_CM3
  ⟨0x110120, 8, 0x80, 1, 0, [⟨31, 16, .rw, 0, .l⟩, ⟨15, 0, .rw, 0x400, .l⟩]⟩, -- INS_CTX_CM4
  ⟨0x110124, 8, 0x80, 1, 0, [⟨31, 16, .rw, 0, .l⟩, ⟨15, 0, .rw, 0, .l⟩]⟩, -- INS_CTX_CM5
  ⟨0x110600, 32, 4, 1, 0, [⟨23, 0, .rw, 0, .s⟩]⟩, -- INS_MODX
  ⟨0x110680, 32, 4, 1, 0, [⟨15, 0, .rw, 0, .s⟩]⟩, -- INS_MODCH
  ⟨0x110800, 1, 0, 1, 0, [⟨31, 0, .rc, 0, .non⟩]⟩, -- INS_CNT_HDRCOR
  ⟨0x110804, 1, 0, 1, 0, [⟨31, 0, .rc, 0, .non⟩]⟩, -- INS_CNT_HDRERR
  ⟨0x110808, 1, 0, 1, 0, [⟨31, 0, .rc, 0, .non⟩]⟩, -- INS_CNT_PCRC
  ⟨0x11080c, 1, 0, 1, 0, [⟨31, 0, .rc, 0, .non⟩]⟩, -- INS_CNT_OTHERDT
  ⟨0x110810, 1, 0, 1, 0, [⟨31, 0, .rc, 0, .non⟩]⟩, -- INS_CNT_ORPHAN
  ⟨0x110814, 1, 0, 1, 0, [⟨31, 0, .rc, 0, .non⟩]⟩, -- INS_CNT_SHORTL
  ⟨0x110818, 1, 0, 1, 0, [⟨31, 0, .rc, 0, .non⟩]⟩, -- INS_CNT_LONGL
  ⟨0x11081c, 1, 0, 1, 0, [⟨31, 0, .rc, 0, .non⟩]⟩, -- INS_CNT_SHORTF
  ⟨0x110820, 1, 0, 1, 0, [⟨31, 0, .rc, 0, .non⟩]⟩, -- INS_CNT_LONGF
  ⟨0x110824, 1, 0, 1, 0, [⟨31, 0, .rc, 0, .non⟩]⟩, -- INS_CNT_DROP
  ⟨0x110828, 1, 0, 1, 0, [⟨31, 0, .rc, 0, .non⟩]⟩, -- INS_CNT_NOTRIG
  ⟨0x11082c, 1, 0, 1, 0, [⟨31, 0, .rc, 0, .non⟩]⟩, -- INS_CNT_NOFRAME
  ⟨0x110830, 1, 0, 1, 0, [⟨31, 0, .rc, 0, .non⟩]⟩, -- INS_CNT_REGFAIL
  ⟨0x110834, 1, 0, 1, 0, [⟨31, 0, .rc, 0, .non⟩]⟩, -- INS_CNT_PTMISS
  ⟨0x110838, 1, 0, 1, 0, [⟨31, 0, .rc, 0, .non⟩]⟩, -- INS_CNT_TRIGSKIP
  ⟨0x11083c, 1, 0, 1, 0, [⟨31, 0, .rc, 0, .non⟩]⟩, -- INS_CNT_BLLOST
  ⟨0x110840, 1, 0, 1, 0, [⟨31, 0, .rc, 0, .non⟩]⟩, -- INS_CNT_OVERCOL
  ⟨0x110844, 1, 0, 1, 0, [⟨31, 0, .rc, 0, .non⟩]⟩ -- INS_CNT_FRAMES
  ]

/-- Registers of block INS. -/
def famsINS : List Fam := famsINS0 ++ famsINS1

/-- Registers of block CAL. -/
def famsCAL : List Fam := [
  ⟨0x120000, 1, 0, 1, 0, [⟨14, 8, .rw, 0, .s⟩, ⟨3, 3, .rw, 0, .l⟩, ⟨2, 2, .rw, 1, .l⟩, ⟨1, 1, .rw, 1, .l⟩, ⟨0, 0, .rw, 0, .l⟩]⟩, -- CAL_CTL
  ⟨0x120004, 1, 0, 1, 0, [⟨6, 6, .ro, 0, .non⟩, ⟨5, 1, .ro, 0, .non⟩, ⟨0, 0, .ro, 0, .non⟩]⟩, -- CAL_STS
  ⟨0x120008, 1, 0, 1, 0, [⟨10, 8, .wo, 0, .l⟩, ⟨7, 7, .wo, 0, .l⟩, ⟨6, 2, .wo, 0, .l⟩, ⟨1, 1, .wo, 0, .l⟩, ⟨0, 0, .wo, 0, .l⟩]⟩, -- CAL_CMD
  ⟨0x12000c, 1, 0, 1, 0, [⟨31, 28, .rw, 4, .l⟩, ⟨27, 24, .rw, 3, .l⟩, ⟨22, 16, .rw, 0x10, .l⟩, ⟨15, 12, .rw, 8, .l⟩, ⟨11, 8, .rw, 0xa, .l⟩, ⟨3, 0, .rw, 8, .l⟩]⟩, -- CAL_CFG
  ⟨0x120010, 1, 0, 1, 0, [⟨31, 24, .rw, 0x64, .l⟩, ⟨20, 16, .rw, 0, .l⟩, ⟨11, 0, .rw, 0x30, .l⟩]⟩, -- CAL_PUBCFG
  ⟨0x120014, 1, 0, 1, 0, [⟨31, 24, .rw, 0xa, .l⟩, ⟨23, 16, .rw, 0x80, .l⟩, ⟨15, 8, .rw, 0x80, .l⟩, ⟨3, 0, .rw, 6, .l⟩]⟩, -- CAL_STRKCFG
  ⟨0x120018, 1, 0, 1, 0, [⟨31, 16, .rw, 0, .l⟩, ⟨15, 8, .rw, 0x10, .l⟩, ⟨3, 0, .rw, 0xa, .l⟩]⟩, -- CAL_FFCFG
  ⟨0x12001c, 1, 0, 1, 0, [⟨31, 31, .wo, 0, .l⟩, ⟨28, 24, .rw, 0, .l⟩, ⟨11, 0, .rw, 0, .l⟩]⟩, -- CAL_INJ
  ⟨0x120080, 32, 4, 1, 0, [⟨11, 0, .rw, 0xfff, .l⟩]⟩, -- CAL_TREF
  ⟨0x120100, 32, 4, 1, 0, [⟨31, 31, .ro, 0, .non⟩, ⟨30, 30, .ro, 0, .non⟩, ⟨29, 29, .ro, 0, .non⟩, ⟨23, 16, .ro, 0, .non⟩, ⟨15, 0, .ro, 0, .non⟩]⟩, -- CAL_MODSTS
  ⟨0x120200, 1, 0, 1, 0, [⟨31, 0, .rc, 0, .non⟩]⟩, -- CAL_CNT_PUB
  ⟨0x120204, 1, 0, 1, 0, [⟨31, 0, .rc, 0, .non⟩]⟩, -- CAL_CNT_UPD
  ⟨0x120208, 1, 0, 1, 0, [⟨31, 0, .rc, 0, .non⟩]⟩, -- CAL_CNT_TRIMSAT
  ⟨0x12020c, 1, 0, 1, 0, [⟨31, 0, .rc, 0, .non⟩]⟩, -- CAL_CNT_CLAMP
  ⟨0x120210, 1, 0, 1, 0, [⟨31, 0, .rc, 0, .non⟩]⟩, -- CAL_CNT_OUTLIER
  ⟨0x120214, 1, 0, 1, 0, [⟨31, 0, .rc, 0, .non⟩]⟩, -- CAL_CNT_DEAD
  ⟨0x120218, 1, 0, 1, 0, [⟨31, 0, .rc, 0, .non⟩]⟩, -- CAL_CNT_FFPUB
  ⟨0x12021c, 1, 0, 1, 0, [⟨31, 0, .rc, 0, .non⟩]⟩ -- CAL_CNT_FFCLAMP
  ]

/-- Registers of block FOL. -/
def famsFOL : List Fam := [
  ⟨0x130000, 1, 0, 1, 0, [⟨1, 1, .rw, 0, .l⟩, ⟨0, 0, .rw, 0, .s⟩]⟩, -- FOL_CTL
  ⟨0x130004, 1, 0, 1, 0, [⟨31, 24, .ro, 0, .non⟩, ⟨6, 6, .ro, 0, .non⟩, ⟨5, 5, .ro, 0, .non⟩, ⟨4, 4, .ro, 0, .non⟩, ⟨3, 3, .ro, 0, .non⟩, ⟨2, 2, .ro, 0, .non⟩, ⟨1, 1, .ro, 0, .non⟩, ⟨0, 0, .ro, 0, .non⟩]⟩, -- FOL_STS
  ⟨0x130008, 1, 0, 1, 0, [⟨2, 2, .wo, 0, .l⟩, ⟨1, 1, .wo, 0, .l⟩, ⟨0, 0, .wo, 0, .l⟩]⟩, -- FOL_CMD
  ⟨0x13000c, 1, 0, 1, 0, [⟨31, 28, .rw, 3, .l⟩, ⟨27, 27, .rw, 0, .s⟩, ⟨23, 16, .rw, 4, .s⟩, ⟨15, 8, .rw, 0x14, .s⟩, ⟨3, 0, .rw, 0xc, .l⟩]⟩, -- FOL_CFG
  ⟨0x130010, 1, 0, 1, 0, [⟨15, 0, .rw, 0, .s⟩]⟩, -- FOL_PEER
  ⟨0x130014, 1, 0, 1, 0, [⟨31, 0, .rw, 0, .l⟩]⟩, -- FOL_JOINSIG
  ⟨0x130018, 1, 0, 1, 0, [⟨31, 0, .ro, 0, .non⟩]⟩, -- FOL_OWNA
  ⟨0x13001c, 1, 0, 1, 0, [⟨31, 0, .ro, 0, .non⟩]⟩, -- FOL_CFGDIG
  ⟨0x130020, 1, 0, 1, 0, [⟨31, 0, .ro, 0, .non⟩]⟩, -- FOL_PEERDIG
  ⟨0x130024, 1, 0, 1, 0, [⟨7, 3, .rw, 0, .l⟩, ⟨2, 2, .wo, 0, .l⟩, ⟨1, 1, .wo, 0, .l⟩, ⟨0, 0, .wo, 0, .l⟩]⟩, -- FOL_INJ
  ⟨0x130080, 1, 0, 1, 0, [⟨31, 0, .rc, 0, .non⟩]⟩, -- FOL_CNT_EXPL
  ⟨0x130084, 1, 0, 1, 0, [⟨31, 0, .rc, 0, .non⟩]⟩, -- FOL_CNT_UNEXPL
  ⟨0x130088, 1, 0, 1, 0, [⟨31, 0, .rc, 0, .non⟩]⟩, -- FOL_CNT_PEERMISS
  ⟨0x13008c, 1, 0, 1, 0, [⟨31, 0, .rc, 0, .non⟩]⟩, -- FOL_CNT_FAILOVER
  ⟨0x130090, 1, 0, 1, 0, [⟨31, 0, .rc, 0, .non⟩]⟩, -- FOL_CNT_REVERT
  ⟨0x130094, 1, 0, 1, 0, [⟨31, 0, .rc, 0, .non⟩]⟩, -- FOL_CNT_JOIN
  ⟨0x130098, 1, 0, 1, 0, [⟨31, 0, .rc, 0, .non⟩]⟩, -- FOL_CNT_MODMIS
  ⟨0x13009c, 1, 0, 1, 0, [⟨31, 0, .rc, 0, .non⟩]⟩ -- FOL_CNT_SUSPECT
  ]

/-- Registers of block MEM. -/
def famsMEM0 : List Fam := [
  ⟨0x140000, 1, 0, 1, 0, [⟨2, 2, .rw, 1, .l⟩, ⟨1, 1, .rw, 1, .l⟩, ⟨0, 0, .rw, 1, .l⟩]⟩, -- MEM_CTL
  ⟨0x140004, 1, 0, 1, 0, [⟨23, 20, .rw, 4, .s⟩, ⟨17, 16, .rw, 2, .s⟩, ⟨12, 12, .rw, 1, .s⟩, ⟨8, 8, .rw, 0, .s⟩, ⟨5, 4, .rw, 0, .s⟩, ⟨2, 0, .rw, 1, .s⟩]⟩, -- MEM_CFG
  ⟨0x140008, 1, 0, 1, 0, [⟨31, 20, .ro, 0, .non⟩, ⟨15, 12, .ro, 0, .non⟩, ⟨11, 8, .ro, 0, .non⟩, ⟨2, 2, .ro, 0, .non⟩, ⟨1, 1, .ro, 0, .non⟩, ⟨0, 0, .ro, 0, .non⟩]⟩, -- MEM_STS
  ⟨0x14000c, 1, 0, 1, 0, [⟨0, 0, .rw, 1, .s⟩]⟩, -- MEM_ORD_MODE
  ⟨0x140010, 1, 0, 1, 0, [⟨31, 24, .rw, 0x14, .l⟩, ⟨23, 16, .rw, 0x20, .l⟩, ⟨13, 8, .rw, 0x30, .l⟩, ⟨5, 0, .rw, 0x10, .l⟩]⟩, -- MEM_ARB
  ⟨0x140014, 1, 0, 1, 0, [⟨23, 16, .rw, 4, .l⟩, ⟨3, 3, .rw, 0, .l⟩, ⟨2, 0, .rw, 4, .s⟩]⟩, -- MEM_RFCFG
  ⟨0x140018, 1, 0, 1, 0, [⟨31, 16, .rw, 0x64, .l⟩, ⟨11, 8, .rw, 4, .l⟩]⟩, -- MEM_PTCFG
  ⟨0x14001c, 1, 0, 1, 0, [⟨15, 0, .rw, 0xc, .l⟩]⟩, -- MEM_SCRUB
  ⟨0x140020, 1, 0, 1, 0, [⟨31, 24, .rw, 0x40, .l⟩, ⟨19, 16, .rw, 0xa, .l⟩, ⟨15, 0, .rw, 0x40, .l⟩]⟩, -- MEM_RETCFG
  ⟨0x140024, 1, 0, 1, 0, [⟨7, 4, .wo, 0, .l⟩, ⟨0, 0, .wo, 0, .l⟩]⟩, -- MEM_CMD
  ⟨0x140028, 1, 0, 1, 0, [⟨0, 0, .rw, 0, .l⟩]⟩, -- MEM_TEST
  ⟨0x14002c, 1, 0, 1, 0, [⟨31, 31, .wo, 0, .l⟩, ⟨30, 30, .wo, 0, .l⟩, ⟨29, 29, .rw, 0, .l⟩, ⟨28, 27, .rw, 0, .l⟩, ⟨23, 16, .rw, 0, .l⟩, ⟨14, 8, .rw, 0, .l⟩, ⟨6, 0, .rw, 0, .l⟩]⟩, -- MEM_INJ
  ⟨0x140030, 4, 4, 1, 0, [⟨31, 0, .rw, 0, .l⟩]⟩, -- MEM_TCHK
  ⟨0x140100, 4, 0x20, 1, 0, [⟨31, 28, .ro, 0, .non⟩, ⟨23, 22, .ro, 0, .non⟩, ⟨21, 20, .ro, 0, .non⟩, ⟨18, 16, .ro, 0, .non⟩, ⟨14, 12, .ro, 0, .non⟩]⟩, -- MEM_SC_STS
  ⟨0x140104, 4, 0x20, 1, 0, [⟨31, 0, .rc, 0, .non⟩]⟩, -- MEM_SC_DEVCE0
  ⟨0x140108, 4, 0x20, 1, 0, [⟨31, 0, .rc, 0, .non⟩]⟩, -- MEM_SC_DEVCE1
  ⟨0x14010c, 4, 0x20, 1, 0, [⟨15, 0, .rc, 0, .non⟩]⟩, -- MEM_SC_DEVCE2
  ⟨0x140400, 64, 4, 1, 0, [⟨31, 31, .rw, 0, .s⟩, ⟨23, 0, .rw, 0, .s⟩]⟩, -- MEM_QLIST
  ⟨0x140200, 1, 0, 1, 0, [⟨31, 0, .rc, 0, .non⟩]⟩, -- MEM_CNT_CE
  ⟨0x140204, 1, 0, 1, 0, [⟨31, 0, .rc, 0, .non⟩]⟩, -- MEM_CNT_UE
  ⟨0x140208, 1, 0, 1, 0, [⟨31, 0, .rc, 0, .non⟩]⟩, -- MEM_CNT_RDRETRY
  ⟨0x14020c, 1, 0, 1, 0, [⟨31, 0, .rc, 0, .non⟩]⟩, -- MEM_CNT_WCRC
  ⟨0x140210, 1, 0, 1, 0, [⟨31, 0, .rc, 0, .non⟩]⟩, -- MEM_CNT_FWD
  ⟨0x140214, 1, 0, 1, 0, [⟨31, 0, .rc, 0, .non⟩]⟩, -- MEM_CNT_RMW
  ⟨0x140218, 1, 0, 1, 0, [⟨31, 0, .rc, 0, .non⟩]⟩, -- MEM_CNT_POISONRD
  ⟨0x14021c, 1, 0, 1, 0, [⟨31, 0, .rc, 0, .non⟩]⟩, -- MEM_CNT_SCRUBWB
  ⟨0x140220, 1, 0, 1, 0, [⟨31, 0, .rc, 0, .non⟩]⟩, -- MEM_CNT_HARD
  ⟨0x140224, 1, 0, 1, 0, [⟨31, 0, .rc, 0, .non⟩]⟩, -- MEM_CNT_TRKEVICT
  ⟨0x140228, 1, 0, 1, 0, [⟨31, 0, .rc, 0, .non⟩]⟩, -- MEM_CNT_REFFORCE
  ⟨0x14022c, 1, 0, 1, 0, [⟨31, 0, .rc, 0, .non⟩]⟩ -- MEM_CNT_PAUSE
  ]

/-- Registers of block MEM. -/
def famsMEM1 : List Fam := [
  ⟨0x140230, 1, 0, 1, 0, [⟨31, 0, .rc, 0, .non⟩]⟩, -- MEM_CNT_RETRD
  ⟨0x140234, 1, 0, 1, 0, [⟨31, 0, .rc, 0, .non⟩]⟩ -- MEM_CNT_SCRUBPZ
  ]

/-- Registers of block MEM. -/
def famsMEM : List Fam := famsMEM0 ++ famsMEM1

/-- Registers of block SPN. -/
def famsSPN0 : List Fam := [
  ⟨0x180000, 4, 0x4000, 1, 0, [⟨3, 2, .rw, 2, .s⟩, ⟨1, 1, .rw, 0, .l⟩, ⟨0, 0, .rw, 0, .s⟩]⟩, -- SPN_PCTL
  ⟨0x180004, 4, 0x4000, 1, 0, [⟨31, 28, .ro, 0, .non⟩, ⟨27, 26, .ro, 0, .non⟩, ⟨24, 24, .ro, 0, .non⟩, ⟨23, 20, .ro, 0, .non⟩, ⟨19, 16, .ro, 0, .non⟩]⟩, -- SPN_PSTS
  ⟨0x180008, 4, 0x4000, 1, 0, [⟨31, 16, .rw, 0x7d0, .s⟩, ⟨7, 0, .rw, 0xc8, .s⟩]⟩, -- SPN_LINKCFG
  ⟨0x18000c, 4, 0x4000, 1, 0, [⟨31, 24, .rw, 4, .s⟩, ⟨19, 16, .rw, 0xa, .s⟩, ⟨15, 0, .rw, 0x100, .s⟩]⟩, -- SPN_RETCFG
  ⟨0x180010, 4, 0x4000, 1, 0, [⟨15, 12, .rw, 2, .s⟩, ⟨11, 8, .rw, 4, .s⟩, ⟨7, 4, .rw, 0, .s⟩, ⟨0, 0, .rw, 0, .l⟩]⟩, -- SPN_EQCFG
  ⟨0x180014, 4, 0x4000, 1, 0, [⟨31, 28, .ro, 0, .non⟩, ⟨15, 12, .rw, 0, .l⟩, ⟨9, 8, .rw, 0, .s⟩, ⟨6, 6, .wo, 0, .l⟩, ⟨5, 5, .rw, 0, .l⟩, ⟨4, 4, .rw, 0, .l⟩, ⟨3, 3, .rw, 0, .l⟩, ⟨1, 0, .rw, 3, .l⟩]⟩, -- SPN_PRBS
  ⟨0x180028, 4, 0x4000, 1, 0, [⟨31, 16, .wo, 0, .l⟩, ⟨4, 4, .wo, 0, .l⟩, ⟨3, 3, .wo, 0, .l⟩, ⟨2, 2, .wo, 0, .l⟩, ⟨1, 1, .wo, 0, .l⟩, ⟨0, 0, .wo, 0, .l⟩]⟩, -- SPN_PCMD
  ⟨0x18002c, 4, 0x4000, 1, 0, [⟨31, 0, .ro, 0, .non⟩]⟩, -- SPN_CRED
  ⟨0x180040, 4, 0x4000, 1, 0, [⟨19, 0, .ro, 0, .non⟩]⟩, -- SPN_NBRNODE
  ⟨0x180018, 4, 0x4000, 4, 4, [⟨31, 0, .rc, 0, .non⟩]⟩, -- SPN_PRBSERR
  ⟨0x180030, 4, 0x4000, 4, 4, [⟨31, 0, .ro, 0, .non⟩]⟩, -- SPN_NBRID
  ⟨0x181000, 1, 0, 1, 0, [⟨2, 2, .rw, 1, .l⟩, ⟨1, 1, .rw, 0, .s⟩, ⟨0, 0, .wo, 0, .l⟩]⟩, -- SPN_CTL
  ⟨0x181004, 1, 0, 1, 0, [⟨16, 16, .rw, 0, .s⟩, ⟨15, 8, .rw, 0, .s⟩, ⟨7, 0, .rw, 0, .s⟩]⟩, -- SPN_NODE
  ⟨0x181008, 1, 0, 1, 0, [⟨26, 16, .ro, 0, .non⟩, ⟨2, 2, .ro, 0, .non⟩, ⟨1, 1, .ro, 0, .non⟩, ⟨0, 0, .ro, 0, .non⟩]⟩, -- SPN_STS
  ⟨0x18100c, 1, 0, 1, 0, [⟨31, 16, .rw, 0x64, .l⟩, ⟨15, 8, .rw, 0x20, .l⟩]⟩, -- SPN_CFG
  ⟨0x181010, 1, 0, 1, 0, [⟨23, 16, .rw, 2, .l⟩, ⟨15, 8, .rw, 0xc, .l⟩, ⟨7, 0, .rw, 2, .l⟩]⟩, -- SPN_ARB
  ⟨0x181014, 1, 0, 1, 0, [⟨31, 31, .wo, 0, .l⟩, ⟨15, 0, .wo, 0, .l⟩]⟩, -- SPN_QCMD
  ⟨0x181018, 1, 0, 1, 0, [⟨8, 8, .wo, 0, .l⟩, ⟨7, 6, .rw, 0, .l⟩, ⟨5, 4, .rw, 0, .l⟩, ⟨3, 3, .wo, 0, .l⟩, ⟨2, 2, .wo, 0, .l⟩, ⟨1, 1, .wo, 0, .l⟩, ⟨0, 0, .wo, 0, .l⟩]⟩, -- SPN_INJ
  ⟨0x181020, 2, 4, 1, 0, [⟨31, 16, .ro, 0, .non⟩, ⟨15, 15, .ro, 0, .non⟩, ⟨14, 12, .ro, 0, .non⟩, ⟨7, 0, .ro, 0, .non⟩]⟩, -- SPN_ROOT
  ⟨0x182000, 256, 4, 1, 0, [⟨31, 31, .rw, 0, .l⟩, ⟨4, 0, .rw, 0, .l⟩]⟩, -- SPN_DOMTAB
  ⟨0x182400, 256, 4, 1, 0, [⟨31, 31, .rw, 0, .l⟩, ⟨4, 0, .rw, 0, .l⟩]⟩, -- SPN_LOCTAB
  ⟨0x180080, 4, 0x4000, 1, 0, [⟨31, 0, .rc, 0, .non⟩]⟩, -- SPN_CNT_FCRC
  ⟨0x180084, 4, 0x4000, 1, 0, [⟨31, 0, .rc, 0, .non⟩]⟩, -- SPN_CNT_HCRC
  ⟨0x180088, 4, 0x4000, 1, 0, [⟨31, 0, .rc, 0, .non⟩]⟩, -- SPN_CNT_NAKTX
  ⟨0x18008c, 4, 0x4000, 1, 0, [⟨31, 0, .rc, 0, .non⟩]⟩, -- SPN_CNT_NAKRX
  ⟨0x180090, 4, 0x4000, 1, 0, [⟨31, 0, .rc, 0, .non⟩]⟩, -- SPN_CNT_REPLAY
  ⟨0x180094, 4, 0x4000, 1, 0, [⟨31, 0, .rc, 0, .non⟩]⟩, -- SPN_CNT_RECOVER
  ⟨0x180098, 4, 0x4000, 4, 4, [⟨31, 0, .rc, 0, .non⟩]⟩, -- SPN_CNT_BLKERR
  ⟨0x181080, 1, 0, 1, 0, [⟨31, 0, .rc, 0, .non⟩]⟩, -- SPN_CNT_NOROUTE
  ⟨0x181084, 1, 0, 1, 0, [⟨31, 0, .rc, 0, .non⟩]⟩ -- SPN_CNT_HOPLIM
  ]

/-- Registers of block SPN. -/
def famsSPN1 : List Fam := [
  ⟨0x181088, 1, 0, 1, 0, [⟨31, 0, .rc, 0, .non⟩]⟩, -- SPN_CNT_STOMP
  ⟨0x18108c, 1, 0, 1, 0, [⟨31, 0, .rc, 0, .non⟩]⟩, -- SPN_CNT_LATERESP
  ⟨0x181090, 1, 0, 1, 0, [⟨31, 0, .rc, 0, .non⟩]⟩, -- SPN_CNT_QDSEQ
  ⟨0x181094, 1, 0, 1, 0, [⟨31, 0, .rc, 0, .non⟩]⟩, -- SPN_CNT_FILTER
  ⟨0x181098, 1, 0, 1, 0, [⟨31, 0, .rc, 0, .non⟩]⟩, -- SPN_CNT_CTO
  ⟨0x18109c, 1, 0, 1, 0, [⟨31, 0, .rc, 0, .non⟩]⟩ -- SPN_CNT_DISC
  ]

/-- Registers of block SPN. -/
def famsSPN : List Fam := famsSPN0 ++ famsSPN1

/-- Registers of block MBX. -/
def famsMBX : List Fam := [
  ⟨0x1c0000, 1, 0, 1, 0, [⟨8, 0, .ro, 0, .non⟩]⟩, -- MBX_STS
  ⟨0x1c0004, 1, 0, 1, 0, [⟨24, 24, .rw, 0, .l⟩, ⟨23, 23, .rw, 0, .l⟩, ⟨22, 16, .rw, 0, .l⟩, ⟨15, 0, .rw, 0, .l⟩]⟩, -- MBX_ATTNCFG
  ⟨0x1c0008, 1, 0, 1, 0, [⟨31, 31, .wo, 0, .l⟩, ⟨30, 30, .wo, 0, .l⟩, ⟨25, 24, .wo, 0, .l⟩, ⟨23, 16, .wo, 0, .l⟩, ⟨15, 0, .wo, 0, .l⟩]⟩, -- MBX_LOCKCMD
  ⟨0x1c0100, 4, 0x20, 1, 0, [⟨31, 12, .rw, 0, .s⟩]⟩, -- MBX_UP_BASE_LO
  ⟨0x1c0104, 4, 0x20, 1, 0, [⟨31, 0, .rw, 0, .s⟩]⟩, -- MBX_UP_BASE_HI
  ⟨0x1c0108, 4, 0x20, 1, 0, [⟨23, 0, .rw, 0, .s⟩]⟩, -- MBX_UP_SIZE
  ⟨0x1c010c, 4, 0x20, 1, 0, [⟨31, 0, .ro, 0, .non⟩]⟩, -- MBX_UP_WPTR
  ⟨0x1c0110, 4, 0x20, 1, 0, [⟨31, 0, .rw, 0, .l⟩]⟩, -- MBX_UP_TAIL
  ⟨0x1c1000, 64, 0x80, 16, 4, [⟨31, 0, .rw, 0, .l⟩]⟩, -- MBX_CH_MSG
  ⟨0x1c1040, 64, 0x80, 1, 0, [⟨19, 13, .rw, 0, .l⟩, ⟨12, 8, .rw, 0, .l⟩, ⟨1, 1, .wo, 0, .l⟩, ⟨0, 0, .wo, 0, .l⟩]⟩, -- MBX_CH_CTL
  ⟨0x1c1044, 64, 0x80, 1, 0, [⟨31, 24, .ro, 0, .non⟩, ⟨4, 4, .ro, 0, .non⟩, ⟨3, 3, .ro, 0, .non⟩, ⟨2, 2, .ro, 0, .non⟩, ⟨1, 1, .ro, 0, .non⟩, ⟨0, 0, .ro, 0, .non⟩]⟩, -- MBX_CH_STS
  ⟨0x1c1048, 64, 0x80, 1, 0, [⟨16, 16, .rw, 0, .l⟩, ⟨15, 0, .rw, 0, .l⟩]⟩, -- MBX_CH_OWNER
  ⟨0x1c104c, 64, 0x80, 1, 0, [⟨31, 0, .ro, 0, .non⟩]⟩, -- MBX_CH_AGE
  ⟨0x1c4000, 128, 0x20, 1, 0, [⟨31, 12, .rw, 0, .s⟩]⟩, -- MBX_RG_BASE_LO
  ⟨0x1c4004, 128, 0x20, 1, 0, [⟨31, 0, .rw, 0, .s⟩]⟩, -- MBX_RG_BASE_HI
  ⟨0x1c4008, 128, 0x20, 1, 0, [⟨31, 31, .rw, 0, .s⟩, ⟨30, 30, .rw, 0, .l⟩, ⟨28, 24, .rw, 8, .s⟩, ⟨23, 16, .rw, 4, .l⟩, ⟨15, 0, .rw, 0, .l⟩]⟩, -- MBX_RG_CFG
  ⟨0x1c400c, 128, 0x20, 1, 0, [⟨31, 0, .ro, 0, .non⟩]⟩, -- MBX_RG_HEAD
  ⟨0x1c4010, 128, 0x20, 1, 0, [⟨31, 0, .rw, 0, .l⟩]⟩, -- MBX_RG_TAIL
  ⟨0x1c4014, 128, 0x20, 1, 0, [⟨31, 31, .ro, 0, .non⟩, ⟨30, 30, .ro, 0, .non⟩, ⟨15, 0, .rc, 0, .non⟩]⟩, -- MBX_RG_STS
  ⟨0x1c6000, 256, 4, 1, 0, [⟨31, 0, .rw, 0, .l⟩]⟩, -- MBX_LOCK
  ⟨0x1c0200, 1, 0, 1, 0, [⟨31, 0, .rc, 0, .non⟩]⟩, -- MBX_CNT_LOST
  ⟨0x1c0204, 1, 0, 1, 0, [⟨31, 0, .rc, 0, .non⟩]⟩, -- MBX_CNT_NOTIFY
  ⟨0x1c0208, 1, 0, 1, 0, [⟨31, 0, .rc, 0, .non⟩]⟩, -- MBX_CNT_LOCKERR
  ⟨0x1c020c, 1, 0, 1, 0, [⟨31, 0, .rc, 0, .non⟩]⟩, -- MBX_CNT_UPNOSPACE
  ⟨0x1c0210, 1, 0, 1, 0, [⟨31, 0, .rc, 0, .non⟩]⟩, -- MBX_CNT_MSG
  ⟨0x1c0214, 1, 0, 1, 0, [⟨31, 0, .rc, 0, .non⟩]⟩ -- MBX_CNT_REJECT
  ]

/-- Registers of block ERR. -/
def famsERR : List Fam := [
  ⟨0x1d0000, 1, 0, 1, 0, [⟨31, 16, .rw, 0x3e8, .l⟩, ⟨15, 15, .rw, 0, .l⟩, ⟨14, 8, .rw, 0, .l⟩, ⟨7, 6, .rw, 2, .l⟩, ⟨5, 4, .rw, 2, .l⟩, ⟨3, 2, .rw, 0, .l⟩]⟩, -- ERR_CFG
  ⟨0x1d0004, 1, 0, 1, 0, [⟨31, 31, .ro, 0, .non⟩, ⟨30, 30, .ro, 0, .non⟩, ⟨24, 16, .ro, 0, .non⟩, ⟨5, 0, .ro, 0, .non⟩]⟩, -- ERR_STS
  ⟨0x1d0008, 1, 0, 1, 0, [⟨31, 0, .ro, 0, .non⟩]⟩, -- ERR_HEAD
  ⟨0x1d000c, 1, 0, 1, 0, [⟨31, 0, .rw, 0, .l⟩]⟩, -- ERR_TAIL
  ⟨0x1d0010, 1, 0, 1, 0, [⟨31, 0, .rc, 0, .non⟩]⟩, -- ERR_OVF
  ⟨0x1d0014, 1, 0, 1, 0, [⟨2, 2, .wo, 0, .l⟩, ⟨1, 1, .wo, 0, .l⟩, ⟨0, 0, .wo, 0, .l⟩]⟩, -- ERR_CMD
  ⟨0x1d0018, 1, 0, 1, 0, [⟨31, 31, .wo, 0, .l⟩, ⟨30, 24, .rw, 0, .l⟩, ⟨23, 16, .rw, 0, .l⟩, ⟨15, 0, .rw, 0, .l⟩]⟩, -- ERR_INJ
  ⟨0x1d0020, 8, 4, 1, 0, [⟨31, 0, .ro, 0, .non⟩]⟩, -- ERR_FIRST
  ⟨0x1d0040, 18, 4, 1, 0, [⟨31, 31, .ro, 0, .non⟩, ⟨30, 30, .ro, 0, .non⟩, ⟨23, 16, .ro, 0, .non⟩, ⟨15, 0, .ro, 0, .non⟩]⟩, -- ERR_BLKFIRST
  ⟨0x1d0100, 4, 4, 1, 0, [⟨31, 0, .rc, 0, .non⟩]⟩, -- ERR_CNT_SEV
  ⟨0x1d0110, 1, 0, 1, 0, [⟨31, 0, .rc, 0, .non⟩]⟩ -- ERR_CNT_INJ
  ]

/-- Registers of block SMT. -/
def famsSMT : List Fam := [
  ⟨0x1e0000, 1, 0, 1, 0, [⟨15, 0, .rw, 0, .s⟩]⟩, -- SMT_CTL
  ⟨0x1e0004, 1, 0, 1, 0, [⟨15, 0, .ro, 0, .non⟩]⟩, -- SMT_STS
  ⟨0x1e0008, 1, 0, 1, 0, [⟨31, 31, .wo, 0, .l⟩, ⟨29, 24, .wo, 0, .l⟩, ⟨15, 0, .wo, 0, .l⟩]⟩, -- SMT_EVCMD
  ⟨0x1e000c, 1, 0, 1, 0, [⟨3, 3, .wo, 0, .l⟩, ⟨2, 2, .wo, 0, .l⟩, ⟨1, 1, .wo, 0, .l⟩, ⟨0, 0, .wo, 0, .l⟩]⟩, -- SMT_DEVREQ
  ⟨0x1e0100, 2, 4, 1, 0, []⟩, -- SMT_GUARD0, SMT_GUARD1: reserved
  ⟨0x1e0108, 62, 4, 1, 0, [⟨31, 0, .rw, 0, .s⟩]⟩, -- SMT_GUARD
  ⟨0x1e0400, 16, 0x20, 8, 4, [⟨31, 0, .rw, 0, .s⟩]⟩, -- SMT_EVMAP
  ⟨0x1e0800, 16, 0x40, 1, 0, [⟨31, 26, .ro, 0, .non⟩, ⟨25, 25, .ro, 0, .non⟩, ⟨24, 24, .ro, 0, .non⟩, ⟨23, 16, .ro, 0, .non⟩, ⟨15, 15, .ro, 0, .non⟩, ⟨14, 9, .ro, 0, .non⟩, ⟨4, 0, .ro, 0, .non⟩]⟩, -- SMT_MSTS
  ⟨0x1e0804, 16, 0x40, 1, 0, [⟨31, 0, .w1c, 0, .l⟩]⟩, -- SMT_MPEND
  ⟨0x1e0808, 16, 0x40, 1, 0, [⟨15, 0, .ro, 0, .non⟩]⟩, -- SMT_MPARAM
  ⟨0x1e080c, 16, 0x40, 1, 0, [⟨31, 0, .ro, 0, .non⟩]⟩, -- SMT_MTIMER
  ⟨0x1e0810, 16, 0x40, 1, 0, [⟨11, 0, .ro, 0, .non⟩]⟩, -- SMT_MCNT
  ⟨0x1e0820, 16, 0x40, 4, 4, [⟨31, 0, .rw, 0, .l⟩]⟩, -- SMT_MSCR
  ⟨0x1e1000, 256, 0xc, 1, 0, [⟨28, 28, .rw, 0, .s⟩, ⟨27, 24, .rw, 0, .s⟩, ⟨23, 0, .rw, 0, .s⟩]⟩, -- SMT_WL_ADDR
  ⟨0x1e1004, 256, 0xc, 1, 0, [⟨31, 0, .rw, 0, .s⟩]⟩, -- SMT_WL_MASK
  ⟨0x1e1008, 256, 0xc, 1, 0, [⟨31, 0, .rw, 0, .s⟩]⟩, -- SMT_WL_VAL
  ⟨0x1e2000, 1, 0, 1, 0, [⟨31, 0, .rc, 0, .non⟩]⟩, -- SMT_CNT_TRANS
  ⟨0x1e2004, 1, 0, 1, 0, [⟨31, 0, .rc, 0, .non⟩]⟩, -- SMT_CNT_ACTREJ
  ⟨0x1e2008, 1, 0, 1, 0, [⟨31, 0, .rc, 0, .non⟩]⟩, -- SMT_CNT_DROP
  ⟨0x1e200c, 1, 0, 1, 0, [⟨31, 0, .rc, 0, .non⟩]⟩ -- SMT_CNT_INJ
  ]

/-- The families of the block that holds an address (R434). -/
def famsAt (a : Nat) : List Fam :=
  if a < 0x10000 then famsGLB
  else if a < 0x20000 then famsCLO
  else if a < 0x30000 then famsQRE
  else if a < 0x40000 then famsGTH
  else if a < 0x50000 then famsFIR
  else if a < 0x60000 then famsPOS
  else if a < 0x70000 then famsTMB
  else if a < 0x80000 then []
  else if a < 0x100000 then famsTHL
  else if a < 0x110000 then famsNZH
  else if a < 0x120000 then famsINS
  else if a < 0x130000 then famsCAL
  else if a < 0x140000 then famsFOL
  else if a < 0x180000 then famsMEM
  else if a < 0x1C0000 then famsSPN
  else if a < 0x1D0000 then famsMBX
  else if a < 0x1E0000 then famsERR
  else if a < 0x1F0000 then famsSMT
  else []

/-- Whether the family holds a register at address `a`. -/
def Fam.holds (f : Fam) (a : Nat) : Bool :=
  let o := a - f.base
  let i := o / f.stride
  let j := (o - f.stride * i) / f.stride2
  decide (i < f.n) && decide (j < f.n2) && f.base + f.stride * i + f.stride2 * j == a

/-- The register at an address, if any (R434). -/
def famOf (a : Nat) : Option Fam :=
  (famsAt a).find? fun f => f.base ≤ a && f.holds a

/-! Named fields. -/
def F.GLB_ID_PART : FR := ⟨0, 31, 16, false⟩
def F.GLB_ID_VENDOR : FR := ⟨0, 15, 0, false⟩
def F.GLB_REV_GRADE : FR := ⟨4, 9, 8, false⟩
def F.GLB_REV_MAJOR : FR := ⟨4, 7, 4, false⟩
def F.GLB_REV_MINOR : FR := ⟨4, 3, 0, false⟩
def F.GLB_CAP0_MODM1 : FR := ⟨8, 31, 24, false⟩
def F.GLB_CAP0_CTXM1 : FR := ⟨8, 23, 16, false⟩
def F.GLB_CAP0_CAMM1 : FR := ⟨8, 15, 12, false⟩
def F.GLB_CAP0_SPNPORTS : FR := ⟨8, 11, 8, false⟩
def F.GLB_CAP0_DDRSC : FR := ⟨8, 7, 4, false⟩
def F.GLB_CAP0_SMTM1 : FR := ⟨8, 3, 0, false⟩
def F.GLB_CAP1_RINGM1 : FR := ⟨0xc, 31, 24, false⟩
def F.GLB_CAP1_LOCKM1 : FR := ⟨0xc, 23, 16, false⟩
def F.GLB_CAP1_MBXM1 : FR := ⟨0xc, 15, 10, false⟩
def F.GLB_CAP1_SIGLG : FR := ⟨0xc, 9, 6, false⟩
def F.GLB_CAP1_FOLIO : FR := ⟨0xc, 5, 5, false⟩
def F.GLB_CAP1_SCAN : FR := ⟨0xc, 4, 4, false⟩
def F.GLB_CFG_MODE : FR := ⟨0x10, 0, 0, false⟩
def F.GLB_STATE_PREV : FR := ⟨0x14, 11, 8, false⟩
def F.GLB_STATE_HRB : FR := ⟨0x14, 4, 4, false⟩
def F.GLB_STATE_STATE : FR := ⟨0x14, 3, 0, false⟩
def F.GLB_REFUSE_VALID : FR := ⟨0x1c, 31, 31, false⟩
def F.GLB_REFUSE_FAILS : FR := ⟨0x1c, 15, 0, false⟩
def F.GLB_REFADDR_ADDR : FR := ⟨0x20, 23, 0, false⟩
def F.GLB_TJ_VALID : FR := ⟨0x24, 31, 31, false⟩
def F.GLB_TJ_TEMP : FR := ⟨0x24, 15, 0, false⟩
def F.GLB_SCRATCH_WORD : FR := ⟨0x28, 31, 0, false⟩
def F.GLB_UID_ID (i : Nat) : FR := ⟨0x30 + 4 * i, 31, 0, false⟩
def F.CLO_STS_RECOVERY : FR := ⟨0x10000, 7, 7, false⟩
def F.CLO_STS_QUAD : FR := ⟨0x10000, 6, 6, false⟩
def F.CLO_STS_AUTH : FR := ⟨0x10000, 5, 5, false⟩
def F.CLO_STS_TOPO : FR := ⟨0x10000, 4, 4, false⟩
def F.CLO_STS_ATTEMPTS : FR := ⟨0x10000, 3, 2, false⟩
def F.CLO_STS_COPY : FR := ⟨0x10000, 1, 1, false⟩
def F.CLO_STS_LOADED : FR := ⟨0x10000, 0, 0, false⟩
def F.CLO_CMD_KEY : FR := ⟨0x10004, 31, 16, false⟩
def F.CLO_CMD_REBOOT : FR := ⟨0x10004, 0, 0, false⟩
def F.CLO_BOOTCFG_TRAINTMO : FR := ⟨0x10008, 15, 0, false⟩
def F.CLO_SEQ_SEQ : FR := ⟨0x1000c, 31, 0, false⟩
def F.CLO_LEN_BYTES : FR := ⟨0x10010, 31, 0, false⟩
def F.CLO_FUSE_KEYSET : FR := ⟨0x1001c, 0, 0, false⟩
def F.CLO_FCTL_GO : FR := ⟨0x10040, 31, 31, false⟩
def F.CLO_FCTL_BUSY : FR := ⟨0x10040, 30, 30, false⟩
def F.CLO_FCTL_DUMMY : FR := ⟨0x10040, 27, 24, false⟩
def F.CLO_FCTL_ADDRB : FR := ⟨0x10040, 23, 22, false⟩
def F.CLO_FCTL_DIR : FR := ⟨0x10040, 21, 21, false⟩
def F.CLO_FCTL_QUAD : FR := ⟨0x10040, 20, 20, false⟩
def F.CLO_FCTL_LEN : FR := ⟨0x10040, 16, 8, false⟩
def F.CLO_FCTL_OPCODE : FR := ⟨0x10040, 7, 0, false⟩
def F.CLO_FADDR_ADDR : FR := ⟨0x10044, 31, 0, false⟩
def F.CLO_ERR_OFFSET (i : Nat) : FR := ⟨0x10014 + 4 * i, 31, 8, false⟩
def F.CLO_ERR_CODE (i : Nat) : FR := ⟨0x10014 + 4 * i, 7, 0, false⟩
def F.CLO_DIGEST_D (i : Nat) : FR := ⟨0x10020 + 4 * i, 31, 0, false⟩
def F.CLO_FBUF_DATA (i : Nat) : FR := ⟨0x10100 + 4 * i, 31, 0, false⟩
def F.QRE_CTL_RSEN : FR := ⟨0x20000, 1, 1, false⟩
def F.QRE_CTL_ACCEPT : FR := ⟨0x20000, 0, 0, false⟩
def F.QRE_CFG_DIRK : FR := ⟨0x20004, 25, 16, false⟩
def F.QRE_CFG_QMAXKIB : FR := ⟨0x20004, 15, 8, false⟩
def F.QRE_CFG_MAXBPN : FR := ⟨0x20004, 5, 4, false⟩
def F.QRE_STS_RSOUT : FR := ⟨0x20008, 24, 16, false⟩
def F.QRE_STS_SIGQFULL : FR := ⟨0x20008, 3, 3, false⟩
def F.QRE_STS_DIRFULL : FR := ⟨0x20008, 2, 2, false⟩
def F.QRE_STS_STFULL : FR := ⟨0x20008, 1, 1, false⟩
def F.QRE_STS_BLOCKED : FR := ⟨0x20008, 0, 0, false⟩
def F.QRE_LARING_SIZE : FR := ⟨0x2000c, 31, 0, false⟩
def F.QRE_STBASE_LO_ADDR : FR := ⟨0x20020, 31, 12, false⟩
def F.QRE_STBASE_HI_ADDR : FR := ⟨0x20024, 31, 0, false⟩
def F.QRE_STPAGES_PAGES : FR := ⟨0x20028, 23, 0, false⟩
def F.QRE_STFREE_PAGES : FR := ⟨0x2002c, 23, 0, false⟩
def F.QRE_RSCFG_TMO : FR := ⟨0x20030, 31, 16, false⟩
def F.QRE_RSCFG_MAX : FR := ⟨0x20030, 11, 8, false⟩
def F.QRE_RSCFG_RING : FR := ⟨0x20030, 6, 0, false⟩
def F.QRE_SIGBASE_NUM : FR := ⟨0x20034, 31, 0, false⟩
def F.QRE_SIGCUR_NUM : FR := ⟨0x20038, 31, 0, false⟩
def F.QRE_SIGSEL_NUM : FR := ⟨0x2003c, 31, 0, false⟩
def F.QRE_SIGCMD_CMD : FR := ⟨0x20040, 1, 0, false⟩
def F.QRE_LMIN_NS : FR := ⟨0x20044, 31, 0, false⟩
def F.QRE_CTXEN_EN (i : Nat) : FR := ⟨0x20010 + 4 * i, 31, 0, false⟩
def F.QRE_UPCFG_EFFORT (i : Nat) : FR := ⟨0x20050 + 4 * i, 6, 4, false⟩
def F.QRE_UPCFG_TABLES (i : Nat) : FR := ⟨0x20050 + 4 * i, 1, 0, false⟩
def F.QRE_CTXSTS_GEN (i : Nat) : FR := ⟨0x21000 + 4 * i, 31, 24, false⟩
def F.QRE_CTXSTS_LEAD (i : Nat) : FR := ⟨0x21000 + 4 * i, 23, 12, false⟩
def F.QRE_CTXSTS_BPN (i : Nat) : FR := ⟨0x21000 + 4 * i, 9, 8, false⟩
def F.QRE_CTXSTS_QUEUED (i : Nat) : FR := ⟨0x21000 + 4 * i, 7, 5, false⟩
def F.QRE_CTXSTS_RSPEND (i : Nat) : FR := ⟨0x21000 + 4 * i, 4, 4, false⟩
def F.QRE_CTXSTS_INFLATING (i : Nat) : FR := ⟨0x21000 + 4 * i, 3, 3, false⟩
def F.GTH_CTL_STITCHEN : FR := ⟨0x30000, 2, 2, true⟩
def F.GTH_CTL_TIPEN : FR := ⟨0x30000, 1, 1, true⟩
def F.GTH_CTL_TRIMEN : FR := ⟨0x30000, 0, 0, true⟩
def F.GTH_CFG_LEAD : FR := ⟨0x30004, 1, 0, false⟩
def F.GTH_STS_STARVED : FR := ⟨0x30008, 2, 2, false⟩
def F.GTH_STS_LENOPEN : FR := ⟨0x30008, 1, 1, false⟩
def F.GTH_STS_RUNNING : FR := ⟨0x30008, 0, 0, false⟩
def F.GTH_SCANCFG_PM1 : FR := ⟨0x3000c, 31, 28, false⟩
def F.GTH_SCANCFG_ILACE : FR := ⟨0x3000c, 27, 26, false⟩
def F.GTH_SCANCFG_PSUB : FR := ⟨0x3000c, 25, 25, false⟩
def F.GTH_SCANCFG_BANDW : FR := ⟨0x3000c, 16, 0, false⟩
def F.GTH_SIGMAXL_LINES : FR := ⟨0x30010, 31, 0, false⟩
def F.GTH_MBUNDLE_NS : FR := ⟨0x30014, 31, 0, false⟩
def F.GTH_LINECNT_COUNT : FR := ⟨0x30018, 31, 0, false⟩
def F.GTH_PTBASE_LO_ADDR : FR := ⟨0x30020, 31, 12, false⟩
def F.GTH_PTBASE_HI_ADDR : FR := ⟨0x30024, 31, 0, false⟩
def F.GTH_PTIDX_LO_ADDR : FR := ⟨0x30028, 31, 12, false⟩
def F.GTH_PTIDX_HI_ADDR : FR := ⟨0x3002c, 31, 0, false⟩
def F.GTH_PTLINES_LINES : FR := ⟨0x30030, 23, 0, false⟩
def F.GTH_PTHEAD_INDEX : FR := ⟨0x30034, 23, 0, false⟩
def F.GTH_EXPSET_L2C3 (i : Nat) : FR := ⟨0x30040 + 4 * i, 11, 9, true⟩
def F.GTH_EXPSET_L2C2 (i : Nat) : FR := ⟨0x30040 + 4 * i, 8, 6, true⟩
def F.GTH_EXPSET_L2C1 (i : Nat) : FR := ⟨0x30040 + 4 * i, 5, 3, true⟩
def F.GTH_EXPSET_L1C1 (i : Nat) : FR := ⟨0x30040 + 4 * i, 2, 0, true⟩
def F.GTH_SUBWT_PSUB (i : Nat) : FR := ⟨0x30080 + 4 * i, 16, 16, true⟩
def F.GTH_SUBWT_WM2 (i : Nat) : FR := ⟨0x30080 + 4 * i, 15, 12, true⟩
def F.GTH_SUBWT_WM1 (i : Nat) : FR := ⟨0x30080 + 4 * i, 11, 8, true⟩
def F.GTH_SUBWT_WP1 (i : Nat) : FR := ⟨0x30080 + 4 * i, 7, 4, true⟩
def F.GTH_SUBWT_WP2 (i : Nat) : FR := ⟨0x30080 + 4 * i, 3, 0, true⟩
def F.GTH_MODCFG_LAYOUT (i : Nat) : FR := ⟨0x30100 + 4 * i, 31, 30, false⟩
def F.GTH_MODCFG_EXP (i : Nat) : FR := ⟨0x30100 + 4 * i, 27, 20, true⟩
def F.GTH_MODCFG_BASE (i : Nat) : FR := ⟨0x30100 + 4 * i, 16, 0, false⟩
def F.GTH_SEAM_TABLE (i : Nat) : FR := ⟨0x30200 + 4 * i, 10, 8, true⟩
def F.GTH_SEAM_OVL (i : Nat) : FR := ⟨0x30200 + 4 * i, 5, 0, false⟩
def F.FIR_CTL_HISTEN : FR := ⟨0x40000, 0, 0, true⟩
def F.FIR_FGCFG_MINLOW : FR := ⟨0x40004, 27, 16, false⟩
def F.FIR_FGCFG_SLOT : FR := ⟨0x40004, 11, 0, false⟩
def F.FIR_STS_THROTTLE : FR := ⟨0x40008, 2, 2, false⟩
def F.FIR_STS_WARN : FR := ⟨0x40008, 1, 1, false⟩
def F.FIR_STS_GATE : FR := ⟨0x40008, 0, 0, false⟩
def F.FIR_HCFG_H34T : FR := ⟨0x4000c, 11, 8, true⟩
def F.FIR_HCFG_Q2B : FR := ⟨0x4000c, 5, 3, true⟩
def F.FIR_HCFG_Q2A : FR := ⟨0x4000c, 2, 0, true⟩
def F.FIR_TCFG_THRSCL : FR := ⟨0x40010, 31, 28, true⟩
def F.FIR_TCFG_THRBAND : FR := ⟨0x40010, 27, 24, true⟩
def F.FIR_TCFG_WARNBAND : FR := ⟨0x40010, 23, 20, true⟩
def F.FIR_TCFG_INITBAND : FR := ⟨0x40010, 19, 16, false⟩
def F.FIR_TCFG_HYST : FR := ⟨0x40010, 15, 8, true⟩
def F.FIR_TCFG_TDLY : FR := ⟨0x40010, 3, 0, false⟩
def F.FIR_TLIM_HARD : FR := ⟨0x40014, 27, 16, false⟩
def F.FIR_TLIM_RESUME : FR := ⟨0x40014, 11, 0, false⟩
def F.FIR_FLOOR_FLt : FR := ⟨0x40018, 15, 0, true⟩
def F.FIR_WDCFG_LIMIT : FR := ⟨0x4001c, 5, 0, false⟩
def F.FIR_WDSTS_CUT : FR := ⟨0x40020, 31, 0, false⟩
def F.FIR_GOVSLOT_NJ : FR := ⟨0x40024, 23, 0, true⟩
def F.FIR_GOVLINE_NJ : FR := ⟨0x40028, 23, 0, true⟩
def F.FIR_GOVPWR_MW : FR := ⟨0x4002c, 23, 0, true⟩
def F.FIR_GOVWIN_UJ : FR := ⟨0x40030, 31, 0, false⟩
def F.FIR_TBTHR_TEMP (i : Nat) : FR := ⟨0x40040 + 4 * i, 11, 0, true⟩
def F.FIR_MODCFG_RTYPE (i : Nat) : FR := ⟨0x40080 + 4 * i, 7, 0, false⟩
def F.FIR_TEMP_STALE (i : Nat) : FR := ⟨0x40100 + 4 * i, 31, 31, false⟩
def F.FIR_TEMP_HOT (i : Nat) : FR := ⟨0x40100 + 4 * i, 30, 30, false⟩
def F.FIR_TEMP_WARN (i : Nat) : FR := ⟨0x40100 + 4 * i, 29, 29, false⟩
def F.FIR_TEMP_BAND (i : Nat) : FR := ⟨0x40100 + 4 * i, 27, 24, false⟩
def F.FIR_TEMP_TEMP (i : Nat) : FR := ⟨0x40100 + 4 * i, 11, 0, false⟩
def F.FIR_EPD_E (i : Nat) (j : Nat) : FR := ⟨0x40200 + 0x40 * i + 4 * j, 15, 0, false⟩
def F.POS_CTL_BCNTX : FR := ⟨0x50000, 2, 2, false⟩
def F.POS_CTL_SRC : FR := ⟨0x50000, 1, 0, false⟩
def F.POS_STS_FOLST : FR := ⟨0x50004, 10, 8, false⟩
def F.POS_STS_INSIG : FR := ⟨0x50004, 2, 2, false⟩
def F.POS_STS_DIR : FR := ⟨0x50004, 1, 1, false⟩
def F.POS_STS_BACKERR : FR := ⟨0x50004, 0, 0, false⟩
def F.POS_CMD_ZARM : FR := ⟨0x50008, 1, 1, false⟩
def F.POS_CMD_START : FR := ⟨0x50008, 0, 0, false⟩
def F.POS_LRMAX_HZ : FR := ⟨0x5000c, 18, 0, false⟩
def F.POS_PITCH_COUNTS : FR := ⟨0x50010, 31, 0, false⟩
def F.POS_SIGCFG_DLY : FR := ⟨0x50014, 31, 8, false⟩
def F.POS_SIGCFG_TOFPOL : FR := ⟨0x50014, 2, 2, false⟩
def F.POS_SIGCFG_SRC : FR := ⟨0x50014, 1, 0, false⟩
def F.POS_REPEAT_COUNTS : FR := ⟨0x50018, 31, 0, true⟩
def F.POS_VCFG_MINADV : FR := ⟨0x5001c, 31, 16, false⟩
def F.POS_VCFG_HYST : FR := ⟨0x5001c, 11, 8, false⟩
def F.POS_VCFG_VWIN : FR := ⟨0x5001c, 3, 0, false⟩
def F.POS_ZVAL_LO_VAL : FR := ⟨0x50028, 31, 0, false⟩
def F.POS_ZVAL_HI_VAL : FR := ⟨0x5002c, 15, 0, false⟩
def F.POS_SWORGF_LO_VAL : FR := ⟨0x50030, 31, 0, true⟩
def F.POS_SWORGF_HI_VAL : FR := ⟨0x50034, 15, 0, true⟩
def F.POS_SWORGR_LO_VAL : FR := ⟨0x50038, 31, 0, true⟩
def F.POS_SWORGR_HI_VAL : FR := ⟨0x5003c, 15, 0, true⟩
def F.POS_POS_LO_VAL : FR := ⟨0x50040, 31, 0, false⟩
def F.POS_POS_HI_VAL : FR := ⟨0x50044, 31, 0, false⟩
def F.POS_ZLAT_LO_VAL : FR := ⟨0x50048, 31, 0, false⟩
def F.POS_ZLAT_HI_VAL : FR := ⟨0x5004c, 31, 0, false⟩
def F.POS_SIGPOS_LO_VAL : FR := ⟨0x50050, 31, 0, false⟩
def F.POS_SIGPOS_HI_VAL : FR := ⟨0x50054, 31, 0, false⟩
def F.POS_BCNCFG_SRCNODE : FR := ⟨0x50058, 31, 16, false⟩
def F.POS_BCNCFG_MAXRES : FR := ⟨0x50058, 15, 8, false⟩
def F.POS_BCNCFG_BSH : FR := ⟨0x50058, 6, 4, false⟩
def F.POS_BCNCFG_ASH : FR := ⟨0x50058, 2, 0, false⟩
def F.POS_ENCCFG_ZMODE (i : Nat) : FR := ⟨0x50020 + 4 * i, 9, 8, false⟩
def F.POS_ENCCFG_INV (i : Nat) : FR := ⟨0x50020 + 4 * i, 7, 7, false⟩
def F.POS_ENCCFG_FILT (i : Nat) : FR := ⟨0x50020 + 4 * i, 6, 4, false⟩
def F.POS_BCNDST_EN (i : Nat) : FR := ⟨0x50060 + 4 * i, 16, 16, false⟩
def F.POS_BCNDST_NODE (i : Nat) : FR := ⟨0x50060 + 4 * i, 15, 0, false⟩
def F.POS_PHASE_ALIGNR (i : Nat) : FR := ⟨0x50100 + 4 * i, 31, 24, true⟩
def F.POS_PHASE_ALIGNF (i : Nat) : FR := ⟨0x50100 + 4 * i, 23, 16, true⟩
def F.POS_PHASE_PHASE (i : Nat) : FR := ⟨0x50100 + 4 * i, 7, 0, false⟩
def F.TMB_CTL_PPSPOL : FR := ⟨0x60000, 5, 5, false⟩
def F.TMB_CTL_UPPORT : FR := ⟨0x60000, 4, 2, false⟩
def F.TMB_CTL_ROLE : FR := ⟨0x60000, 1, 0, false⟩
def F.TMB_STS_UPSEL : FR := ⟨0x60004, 6, 4, false⟩
def F.TMB_STS_HOLDOVER : FR := ⟨0x60004, 2, 2, false⟩
def F.TMB_STS_LOCK : FR := ⟨0x60004, 1, 1, false⟩
def F.TMB_STS_SYNCSEEN : FR := ⟨0x60004, 0, 0, false⟩
def F.TMB_NOW_LO_VAL : FR := ⟨0x60008, 31, 0, false⟩
def F.TMB_NOW_HI_VAL : FR := ⟨0x6000c, 31, 0, false⟩
def F.TMB_EPOCH_EPOCH : FR := ⟨0x60010, 15, 0, false⟩
def F.TMB_FADJ_ADJ : FR := ⟨0x60014, 31, 0, false⟩
def F.TMB_SYNCCFG_PDINT : FR := ⟨0x60018, 31, 16, false⟩
def F.TMB_SYNCCFG_INT : FR := ⟨0x60018, 15, 0, false⟩
def F.TMB_STEPTHR_NS : FR := ⟨0x6001c, 23, 0, false⟩
def F.TMB_SERVO_LOCKTHR : FR := ⟨0x60020, 23, 16, false⟩
def F.TMB_SERVO_KISH : FR := ⟨0x60020, 11, 8, false⟩
def F.TMB_SERVO_KPSH : FR := ⟨0x60020, 3, 0, false⟩
def F.TMB_OFFSET_PS : FR := ⟨0x60024, 31, 0, false⟩
def F.TMB_SET_LO_VAL : FR := ⟨0x60028, 31, 0, false⟩
def F.TMB_SET_HI_VAL : FR := ⟨0x6002c, 31, 0, false⟩
def F.TMB_MASTER_NODE : FR := ⟨0x60030, 15, 0, false⟩
def F.TMB_CMD_SET : FR := ⟨0x60034, 0, 0, false⟩
def F.TMB_PDELAY_PS (i : Nat) : FR := ⟨0x60040 + 4 * i, 31, 0, false⟩
def F.TMB_ASYM_PS (i : Nat) : FR := ⟨0x60050 + 4 * i, 15, 0, false⟩
def F.TMB_EVT_LO_VAL (i : Nat) : FR := ⟨0x60080 + 8 * i, 31, 0, false⟩
def F.TMB_EVT_HI_VAL (i : Nat) : FR := ⟨0x60084 + 8 * i, 31, 0, false⟩
def F.TMB_EVTCTL_RING (i : Nat) : FR := ⟨0x600c0 + 4 * i, 8, 2, false⟩
def F.TMB_EVTCTL_RINGEN (i : Nat) : FR := ⟨0x600c0 + 4 * i, 1, 1, false⟩
def F.TMB_EVTCTL_ARMED (i : Nat) : FR := ⟨0x600c0 + 4 * i, 0, 0, false⟩
def F.THL_CTL_EN (i : Nat) : FR := ⟨0x80000 + 0x4000 * i, 0, 0, false⟩
def F.THL_CFG_FAULTMASK (i : Nat) : FR := ⟨0x80004 + 0x4000 * i, 31, 16, false⟩
def F.THL_CFG_DUAL (i : Nat) : FR := ⟨0x80004 + 0x4000 * i, 5, 5, false⟩
def F.THL_CFG_REFIRE (i : Nat) : FR := ⟨0x80004 + 0x4000 * i, 4, 4, false⟩
def F.THL_CFG_RATE (i : Nat) : FR := ⟨0x80004 + 0x4000 * i, 1, 0, false⟩
def F.THL_LANESTS_STAGE (i : Nat) : FR := ⟨0x80008 + 0x4000 * i, 31, 28, false⟩
def F.THL_LANESTS_OTHERGOOD (i : Nat) : FR := ⟨0x80008 + 0x4000 * i, 19, 19, false⟩
def F.THL_LANESTS_OWNER (i : Nat) : FR := ⟨0x80008 + 0x4000 * i, 18, 18, false⟩
def F.THL_LANESTS_PORTB (i : Nat) : FR := ⟨0x80008 + 0x4000 * i, 17, 17, false⟩
def F.THL_LANESTS_CAPOK (i : Nat) : FR := ⟨0x80008 + 0x4000 * i, 16, 16, false⟩
def F.THL_LANESTS_LFN (i : Nat) : FR := ⟨0x80008 + 0x4000 * i, 15, 0, false⟩
def F.THL_RTCFG_NRS (i : Nat) : FR := ⟨0x8000c + 0x4000 * i, 25, 24, false⟩
def F.THL_RTCFG_TACK (i : Nat) : FR := ⟨0x8000c + 0x4000 * i, 11, 0, false⟩
def F.THL_BBUNDLE_NS (i : Nat) : FR := ⟨0x80010 + 0x4000 * i, 31, 0, false⟩
def F.THL_RETCFG_RECMAX (i : Nat) : FR := ⟨0x80014 + 0x4000 * i, 31, 24, false⟩
def F.THL_RETCFG_WIN (i : Nat) : FR := ⟨0x80014 + 0x4000 * i, 19, 16, false⟩
def F.THL_RETCFG_THR (i : Nat) : FR := ⟨0x80014 + 0x4000 * i, 15, 0, false⟩
def F.THL_EQCFG_TXPRE (i : Nat) : FR := ⟨0x80018 + 0x4000 * i, 15, 12, false⟩
def F.THL_EQCFG_TXPOST (i : Nat) : FR := ⟨0x80018 + 0x4000 * i, 11, 8, false⟩
def F.THL_EQCFG_CTLE (i : Nat) : FR := ⟨0x80018 + 0x4000 * i, 7, 4, false⟩
def F.THL_EQCFG_FREEZE (i : Nat) : FR := ⟨0x80018 + 0x4000 * i, 0, 0, false⟩
def F.THL_EQSTS_CTLE (i : Nat) : FR := ⟨0x8001c + 0x4000 * i, 31, 28, false⟩
def F.THL_EQSTS_DFE (i : Nat) : FR := ⟨0x8001c + 0x4000 * i, 24, 0, false⟩
def F.THL_PRBS_LOCK (i : Nat) : FR := ⟨0x80020 + 0x4000 * i, 31, 31, false⟩
def F.THL_PRBS_INJRATE (i : Nat) : FR := ⟨0x80020 + 0x4000 * i, 15, 12, false⟩
def F.THL_PRBS_INJ1 (i : Nat) : FR := ⟨0x80020 + 0x4000 * i, 6, 6, false⟩
def F.THL_PRBS_INV (i : Nat) : FR := ⟨0x80020 + 0x4000 * i, 5, 5, false⟩
def F.THL_PRBS_CHKEN (i : Nat) : FR := ⟨0x80020 + 0x4000 * i, 4, 4, false⟩
def F.THL_PRBS_GENEN (i : Nat) : FR := ⟨0x80020 + 0x4000 * i, 3, 3, false⟩
def F.THL_PRBS_POLY (i : Nat) : FR := ⟨0x80020 + 0x4000 * i, 1, 0, false⟩
def F.THL_PRBSERR_COUNT (i : Nat) : FR := ⟨0x80024 + 0x4000 * i, 31, 0, false⟩
def F.THL_INJ_BLKLOSS (i : Nat) : FR := ⟨0x80028 + 0x4000 * i, 4, 4, false⟩
def F.THL_INJ_SCRC (i : Nat) : FR := ⟨0x80028 + 0x4000 * i, 3, 3, false⟩
def F.THL_INJ_ACKDROP (i : Nat) : FR := ⟨0x80028 + 0x4000 * i, 2, 2, false⟩
def F.THL_INJ_HCRC (i : Nat) : FR := ⟨0x80028 + 0x4000 * i, 1, 1, false⟩
def F.THL_INJ_BCRC (i : Nat) : FR := ⟨0x80028 + 0x4000 * i, 0, 0, false⟩
def F.THL_CMD_TESTEXIT (i : Nat) : FR := ⟨0x8002c + 0x4000 * i, 3, 3, false⟩
def F.THL_CMD_TEST (i : Nat) : FR := ⟨0x8002c + 0x4000 * i, 2, 2, false⟩
def F.THL_CMD_RESTORE (i : Nat) : FR := ⟨0x8002c + 0x4000 * i, 1, 1, false⟩
def F.THL_CMD_RETRAIN (i : Nat) : FR := ⟨0x8002c + 0x4000 * i, 0, 0, false⟩
def F.THL_CAP_VAL (i : Nat) (j : Nat) : FR := ⟨0x80030 + 0x4000 * i + 4 * j, 31, 0, false⟩
def F.THL_LASTSTS_VAL (i : Nat) (j : Nat) : FR := ⟨0x80050 + 0x4000 * i + 4 * j, 31, 0, false⟩
def F.NZH_CTL_DEADTHR : FR := ⟨0x100000, 31, 24, false⟩
def F.NZH_CTL_CLUSTER : FR := ⟨0x100000, 23, 20, false⟩
def F.NZH_CTL_BOOTSWEEP : FR := ⟨0x100000, 3, 3, false⟩
def F.NZH_CTL_ENDPEN : FR := ⟨0x100000, 2, 2, false⟩
def F.NZH_CTL_CLSEN : FR := ⟨0x100000, 1, 1, false⟩
def F.NZH_CTL_MEASEN : FR := ⟨0x100000, 0, 0, false⟩
def F.NZH_STS_DUMPBUSY : FR := ⟨0x100004, 1, 1, false⟩
def F.NZH_STS_SWEEPING : FR := ⟨0x100004, 0, 0, false⟩
def F.NZH_CMD_DUMPDIRTY : FR := ⟨0x100008, 2, 2, false⟩
def F.NZH_CMD_DUMP : FR := ⟨0x100008, 1, 1, false⟩
def F.NZH_CMD_SWEEP : FR := ⟨0x100008, 0, 0, false⟩
def F.NZH_MEASCFG_CHUNK : FR := ⟨0x10000c, 11, 0, false⟩
def F.NZH_CLSCFG_RECOV : FR := ⟨0x100010, 4, 4, true⟩
def F.NZH_CLSCFG_CONFM1 : FR := ⟨0x100010, 1, 0, true⟩
def F.NZH_MAPCFG_WRMASK : FR := ⟨0x100014, 13, 8, false⟩
def F.NZH_MAPCFG_ADLY : FR := ⟨0x100014, 7, 0, false⟩
def F.NZH_RPTCFG_COMP : FR := ⟨0x100018, 9, 8, false⟩
def F.NZH_RPTCFG_AUTODUMP : FR := ⟨0x100018, 7, 7, false⟩
def F.NZH_RPTCFG_RING : FR := ⟨0x100018, 6, 0, false⟩
def F.NZH_INJ_ARM : FR := ⟨0x100040, 31, 31, false⟩
def F.NZH_INJ_MOD : FR := ⟨0x100040, 20, 16, false⟩
def F.NZH_INJ_CODE : FR := ⟨0x100040, 9, 0, false⟩
def F.NZH_CLSA_OPENMIN (i : Nat) : FR := ⟨0x100020 + 4 * i, 25, 16, true⟩
def F.NZH_CLSA_SHORTMAX (i : Nat) : FR := ⟨0x100020 + 4 * i, 9, 0, true⟩
def F.NZH_CLSB_WEAKHI (i : Nat) : FR := ⟨0x100030 + 4 * i, 25, 16, true⟩
def F.NZH_CLSB_WEAKLO (i : Nat) : FR := ⟨0x100030 + 4 * i, 9, 0, true⟩
def F.NZH_MODSTS_PTR (i : Nat) : FR := ⟨0x100100 + 4 * i, 31, 20, false⟩
def F.NZH_MODSTS_PEND (i : Nat) : FR := ⟨0x100100 + 4 * i, 19, 14, false⟩
def F.NZH_MODSTS_MEASURING (i : Nat) : FR := ⟨0x100100 + 4 * i, 13, 13, false⟩
def F.NZH_MODSTS_DEAD (i : Nat) : FR := ⟨0x100100 + 4 * i, 12, 0, false⟩
def F.INS_CTL_EDGT : FR := ⟨0x110000, 31, 24, false⟩
def F.INS_CTL_FSWIN : FR := ⟨0x110000, 23, 16, false⟩
def F.INS_CTL_SUBEN : FR := ⟨0x110000, 3, 3, false⟩
def F.INS_CTL_COLEN : FR := ⟨0x110000, 2, 2, false⟩
def F.INS_CTL_REGEN : FR := ⟨0x110000, 1, 1, false⟩
def F.INS_CTL_EN : FR := ⟨0x110000, 0, 0, false⟩
def F.INS_STS_RETIRED : FR := ⟨0x110004, 19, 16, false⟩
def F.INS_STS_WAITING : FR := ⟨0x110004, 15, 8, false⟩
def F.INS_STS_BUSY : FR := ⟨0x110004, 3, 3, false⟩
def F.INS_STS_ACTIVE : FR := ⟨0x110004, 2, 0, false⟩
def F.INS_CMD_RESTORE : FR := ⟨0x110008, 7, 4, false⟩
def F.INS_CMD_CLRSTAT : FR := ⟨0x110008, 0, 0, false⟩
def F.INS_COLCFG_EMIN : FR := ⟨0x11000c, 31, 24, false⟩
def F.INS_COLCFG_DEFF : FR := ⟨0x11000c, 23, 16, false⟩
def F.INS_COLCFG_NHALF : FR := ⟨0x11000c, 15, 12, false⟩
def F.INS_COLCFG_BLUR : FR := ⟨0x11000c, 4, 0, false⟩
def F.INS_REGCFG_REGMIN : FR := ⟨0x110010, 31, 24, false⟩
def F.INS_REGCFG_REGMINV : FR := ⟨0x110010, 23, 16, false⟩
def F.INS_REGCFG_REGGAIN : FR := ⟨0x110010, 15, 12, false⟩
def F.INS_REGCFG_FAILN : FR := ⟨0x110010, 11, 8, false⟩
def F.INS_RETCFG_THR : FR := ⟨0x110014, 15, 0, false⟩
def F.INS_INJ_PORT : FR := ⟨0x110018, 5, 4, false⟩
def F.INS_INJ_REGFAIL : FR := ⟨0x110018, 3, 3, false⟩
def F.INS_INJ_OVF : FR := ⟨0x110018, 2, 2, false⟩
def F.INS_INJ_PCRC : FR := ⟨0x110018, 1, 1, false⟩
def F.INS_INJ_HDRECC : FR := ⟨0x110018, 0, 0, false⟩
def F.INS_PORTCFG_LMAP (i : Nat) : FR := ⟨0x110020 + 4 * i, 23, 16, false⟩
def F.INS_PORTCFG_POLINV (i : Nat) : FR := ⟨0x110020 + 4 * i, 15, 12, false⟩
def F.INS_PORTCFG_CLKINV (i : Nat) : FR := ⟨0x110020 + 4 * i, 11, 11, false⟩
def F.INS_PORTCFG_EN (i : Nat) : FR := ⟨0x110020 + 4 * i, 2, 2, false⟩
def F.INS_PORTCFG_LANES (i : Nat) : FR := ⟨0x110020 + 4 * i, 1, 0, false⟩
def F.INS_PORTSTS_RETIRED (i : Nat) : FR := ⟨0x110030 + 4 * i, 3, 3, false⟩
def F.INS_PORTSTS_ULPS (i : Nat) : FR := ⟨0x110030 + 4 * i, 2, 2, false⟩
def F.INS_PORTSTS_DESKEWED (i : Nat) : FR := ⟨0x110030 + 4 * i, 1, 1, false⟩
def F.INS_PORTSTS_HS (i : Nat) : FR := ⟨0x110030 + 4 * i, 0, 0, false⟩
def F.INS_TRIG_CFG_EVERY (i : Nat) : FR := ⟨0x110040 + 0xc * i, 31, 16, true⟩
def F.INS_TRIG_CFG_START (i : Nat) : FR := ⟨0x110040 + 0xc * i, 15, 0, true⟩
def F.INS_TRIG_CT_CDLY (i : Nat) : FR := ⟨0x110044 + 0xc * i, 31, 16, true⟩
def F.INS_TRIG_CT_CWID (i : Nat) : FR := ⟨0x110044 + 0xc * i, 15, 0, true⟩
def F.INS_TRIG_LS_SDLY (i : Nat) : FR := ⟨0x110048 + 0xc * i, 31, 16, true⟩
def F.INS_TRIG_LS_SWID (i : Nat) : FR := ⟨0x110048 + 0xc * i, 15, 0, true⟩
def F.INS_LDT_LO_VAL (i : Nat) : FR := ⟨0x110080 + 8 * i, 31, 0, false⟩
def F.INS_LDT_HI_VAL (i : Nat) : FR := ⟨0x110084 + 8 * i, 31, 0, false⟩
def F.INS_CTX_CFG_EN (i : Nat) : FR := ⟨0x110100 + 0x80 * i, 31, 31, false⟩
def F.INS_CTX_CFG_PORT (i : Nat) : FR := ⟨0x110100 + 0x80 * i, 30, 29, false⟩
def F.INS_CTX_CFG_VC (i : Nat) : FR := ⟨0x110100 + 0x80 * i, 28, 27, false⟩
def F.INS_CTX_CFG_RAW12 (i : Nat) : FR := ⟨0x110100 + 0x80 * i, 26, 26, false⟩
def F.INS_CTX_CFG_BAYER (i : Nat) : FR := ⟨0x110100 + 0x80 * i, 25, 24, false⟩
def F.INS_CTX_CFG_TSEL (i : Nat) : FR := ⟨0x110100 + 0x80 * i, 23, 22, false⟩
def F.INS_CTX_CFG_DIRSEL (i : Nat) : FR := ⟨0x110100 + 0x80 * i, 21, 20, false⟩
def F.INS_CTX_CFG_REGCH (i : Nat) : FR := ⟨0x110100 + 0x80 * i, 19, 18, false⟩
def F.INS_CTX_CFG_FFBANK (i : Nat) : FR := ⟨0x110100 + 0x80 * i, 17, 17, false⟩
def F.INS_CTX_CFG_PAD (i : Nat) : FR := ⟨0x110100 + 0x80 * i, 11, 0, false⟩
def F.INS_CTX_SIZE_WIDTH (i : Nat) : FR := ⟨0x110104 + 0x80 * i, 28, 16, false⟩
def F.INS_CTX_SIZE_HEIGHT (i : Nat) : FR := ⟨0x110104 + 0x80 * i, 11, 0, false⟩
def F.INS_CTX_BLK01_HI (i : Nat) : FR := ⟨0x110108 + 0x80 * i, 27, 16, false⟩
def F.INS_CTX_BLK01_LO (i : Nat) : FR := ⟨0x110108 + 0x80 * i, 11, 0, false⟩
def F.INS_CTX_BLK23_HI (i : Nat) : FR := ⟨0x11010c + 0x80 * i, 27, 16, false⟩
def F.INS_CTX_BLK23_LO (i : Nat) : FR := ⟨0x11010c + 0x80 * i, 11, 0, false⟩
def F.INS_CTX_OFS01_HI (i : Nat) : FR := ⟨0x110128 + 0x80 * i, 31, 16, false⟩
def F.INS_CTX_OFS01_LO (i : Nat) : FR := ⟨0x110128 + 0x80 * i, 15, 0, false⟩
def F.INS_CTX_OFS23_HI (i : Nat) : FR := ⟨0x11012c + 0x80 * i, 31, 16, false⟩
def F.INS_CTX_OFS23_LO (i : Nat) : FR := ⟨0x11012c + 0x80 * i, 15, 0, false⟩
def F.INS_CTX_XORG_VAL (i : Nat) : FR := ⟨0x110130 + 0x80 * i, 31, 0, false⟩
def F.INS_CTX_XPITCH_VAL (i : Nat) : FR := ⟨0x110134 + 0x80 * i, 15, 0, false⟩
def F.INS_CTX_CAMDY_VAL (i : Nat) : FR := ⟨0x110138 + 0x80 * i, 31, 0, false⟩
def F.INS_CTX_RPITCH_VAL (i : Nat) : FR := ⟨0x11013c + 0x80 * i, 31, 0, false⟩
def F.INS_CTX_REGCOR_DXC (i : Nat) : FR := ⟨0x110140 + 0x80 * i, 31, 16, false⟩
def F.INS_CTX_REGCOR_DYC (i : Nat) : FR := ⟨0x110140 + 0x80 * i, 15, 0, false⟩
def F.INS_CTX_FSTS_DROP (i : Nat) : FR := ⟨0x110144 + 0x80 * i, 31, 31, false⟩
def F.INS_CTX_FSTS_LONGF (i : Nat) : FR := ⟨0x110144 + 0x80 * i, 30, 30, false⟩
def F.INS_CTX_FSTS_SHORTF (i : Nat) : FR := ⟨0x110144 + 0x80 * i, 29, 29, false⟩
def F.INS_CTX_FSTS_CRC (i : Nat) : FR := ⟨0x110144 + 0x80 * i, 28, 28, false⟩
def F.INS_CTX_FSTS_NOFE (i : Nat) : FR := ⟨0x110144 + 0x80 * i, 27, 27, false⟩
def F.INS_CTX_FSTS_NOTRIG (i : Nat) : FR := ⟨0x110144 + 0x80 * i, 26, 26, false⟩
def F.INS_CTX_FSTS_REGFAIL (i : Nat) : FR := ⟨0x110144 + 0x80 * i, 25, 25, false⟩
def F.INS_CTX_FSTS_REGSKIP (i : Nat) : FR := ⟨0x110144 + 0x80 * i, 24, 24, false⟩
def F.INS_CTX_FSTS_SHORTL (i : Nat) : FR := ⟨0x110144 + 0x80 * i, 23, 12, false⟩
def F.INS_CTX_FSTS_LONGL (i : Nat) : FR := ⟨0x110144 + 0x80 * i, 11, 0, false⟩
def F.INS_CTX_FCNT_FRAMENUM (i : Nat) : FR := ⟨0x110148 + 0x80 * i, 31, 16, false⟩
def F.INS_CTX_FCNT_COUNT (i : Nat) : FR := ⟨0x110148 + 0x80 * i, 15, 0, false⟩
def F.INS_CTX_CM0_HI (i : Nat) : FR := ⟨0x110110 + 0x80 * i, 31, 16, false⟩
def F.INS_CTX_CM0_LO (i : Nat) : FR := ⟨0x110110 + 0x80 * i, 15, 0, false⟩
def F.INS_CTX_CM1_HI (i : Nat) : FR := ⟨0x110114 + 0x80 * i, 31, 16, false⟩
def F.INS_CTX_CM1_LO (i : Nat) : FR := ⟨0x110114 + 0x80 * i, 15, 0, false⟩
def F.INS_CTX_CM2_HI (i : Nat) : FR := ⟨0x110118 + 0x80 * i, 31, 16, false⟩
def F.INS_CTX_CM2_LO (i : Nat) : FR := ⟨0x110118 + 0x80 * i, 15, 0, false⟩
def F.INS_CTX_CM3_HI (i : Nat) : FR := ⟨0x11011c + 0x80 * i, 31, 16, false⟩
def F.INS_CTX_CM3_LO (i : Nat) : FR := ⟨0x11011c + 0x80 * i, 15, 0, false⟩
def F.INS_CTX_CM4_HI (i : Nat) : FR := ⟨0x110120 + 0x80 * i, 31, 16, false⟩
def F.INS_CTX_CM4_LO (i : Nat) : FR := ⟨0x110120 + 0x80 * i, 15, 0, false⟩
def F.INS_CTX_CM5_HI (i : Nat) : FR := ⟨0x110124 + 0x80 * i, 31, 16, false⟩
def F.INS_CTX_CM5_LO (i : Nat) : FR := ⟨0x110124 + 0x80 * i, 15, 0, false⟩
def F.INS_MODX_X0 (i : Nat) : FR := ⟨0x110600 + 4 * i, 23, 0, false⟩
def F.INS_MODCH_MAP (i : Nat) : FR := ⟨0x110680 + 4 * i, 15, 0, false⟩
def F.CAL_CTL_RING : FR := ⟨0x120000, 14, 8, false⟩
def F.CAL_CTL_FFAUTO : FR := ⟨0x120000, 3, 3, false⟩
def F.CAL_CTL_STRKEN : FR := ⟨0x120000, 2, 2, false⟩
def F.CAL_CTL_AUTOPUB : FR := ⟨0x120000, 1, 1, false⟩
def F.CAL_CTL_EN : FR := ⟨0x120000, 0, 0, false⟩
def F.CAL_STS_FFBUSY : FR := ⟨0x120004, 6, 6, false⟩
def F.CAL_STS_MOD : FR := ⟨0x120004, 5, 1, false⟩
def F.CAL_STS_BUSY : FR := ⟨0x120004, 0, 0, false⟩
def F.CAL_CMD_CTX : FR := ⟨0x120008, 10, 8, false⟩
def F.CAL_CMD_ALL : FR := ⟨0x120008, 7, 7, false⟩
def F.CAL_CMD_MOD : FR := ⟨0x120008, 6, 2, false⟩
def F.CAL_CMD_FF : FR := ⟨0x120008, 1, 1, false⟩
def F.CAL_CMD_PUBLISH : FR := ⟨0x120008, 0, 0, false⟩
def F.CAL_CFG_SETTLE : FR := ⟨0x12000c, 31, 28, false⟩
def F.CAL_CFG_CONVN : FR := ⟨0x12000c, 27, 24, false⟩
def F.CAL_CFG_MAXSTEP : FR := ⟨0x12000c, 22, 16, false⟩
def F.CAL_CFG_ITER : FR := ⟨0x12000c, 15, 12, false⟩
def F.CAL_CFG_NMINLG : FR := ⟨0x12000c, 11, 8, false⟩
def F.CAL_CFG_GAIN : FR := ⟨0x12000c, 3, 0, false⟩
def F.CAL_PUBCFG_OUTLIM : FR := ⟨0x120010, 31, 24, false⟩
def F.CAL_PUBCFG_INTLG : FR := ⟨0x120010, 20, 16, false⟩
def F.CAL_PUBCFG_TTHR : FR := ⟨0x120010, 11, 0, false⟩
def F.CAL_STRKCFG_PERIOD : FR := ⟨0x120014, 31, 24, false⟩
def F.CAL_STRKCFG_DEADG : FR := ⟨0x120014, 23, 16, false⟩
def F.CAL_STRKCFG_DEADF : FR := ⟨0x120014, 15, 8, false⟩
def F.CAL_STRKCFG_DEADNLG : FR := ⟨0x120014, 3, 0, false⟩
def F.CAL_FFCFG_FFPER : FR := ⟨0x120018, 31, 16, false⟩
def F.CAL_FFCFG_FFSTEP : FR := ⟨0x120018, 15, 8, false⟩
def F.CAL_FFCFG_FFMINLG : FR := ⟨0x120018, 3, 0, false⟩
def F.CAL_INJ_ARM : FR := ⟨0x12001c, 31, 31, false⟩
def F.CAL_INJ_MOD : FR := ⟨0x12001c, 28, 24, false⟩
def F.CAL_INJ_Q : FR := ⟨0x12001c, 11, 0, false⟩
def F.CAL_TREF_TEMP (i : Nat) : FR := ⟨0x120080 + 4 * i, 11, 0, false⟩
def F.CAL_MODSTS_QUIET (i : Nat) : FR := ⟨0x120100 + 4 * i, 31, 31, false⟩
def F.CAL_MODSTS_CONV (i : Nat) : FR := ⟨0x120100 + 4 * i, 30, 30, false⟩
def F.CAL_MODSTS_PEND (i : Nat) : FR := ⟨0x120100 + 4 * i, 29, 29, false⟩
def F.CAL_MODSTS_PUBS (i : Nat) : FR := ⟨0x120100 + 4 * i, 23, 16, false⟩
def F.CAL_MODSTS_FLOOR (i : Nat) : FR := ⟨0x120100 + 4 * i, 15, 0, false⟩
def F.FOL_CTL_NOREVERT : FR := ⟨0x130000, 1, 1, false⟩
def F.FOL_CTL_EN : FR := ⟨0x130000, 0, 0, false⟩
def F.FOL_STS_SUSPCNT : FR := ⟨0x130004, 31, 24, false⟩
def F.FOL_STS_SELFCHK : FR := ⟨0x130004, 6, 6, false⟩
def F.FOL_STS_JOINING : FR := ⟨0x130004, 5, 5, false⟩
def F.FOL_STS_ISOLATED : FR := ⟨0x130004, 4, 4, false⟩
def F.FOL_STS_SUSPECT : FR := ⟨0x130004, 3, 3, false⟩
def F.FOL_STS_PEERUP : FR := ⟨0x130004, 2, 2, false⟩
def F.FOL_STS_ACTROLE : FR := ⟨0x130004, 1, 1, false⟩
def F.FOL_STS_HOMEROLE : FR := ⟨0x130004, 0, 0, false⟩
def F.FOL_CMD_SELFCHK : FR := ⟨0x130008, 2, 2, false⟩
def F.FOL_CMD_JOIN : FR := ⟨0x130008, 1, 1, false⟩
def F.FOL_CMD_SWAP : FR := ⟨0x130008, 0, 0, false⟩
def F.FOL_CFG_SUSPMAX : FR := ⟨0x13000c, 31, 28, false⟩
def F.FOL_CFG_REQBOTH : FR := ⟨0x13000c, 27, 27, false⟩
def F.FOL_CFG_HDLY : FR := ⟨0x13000c, 23, 16, false⟩
def F.FOL_CFG_PTMO : FR := ⟨0x13000c, 15, 8, false⟩
def F.FOL_CFG_CLEARN : FR := ⟨0x13000c, 3, 0, false⟩
def F.FOL_PEER_NODE : FR := ⟨0x130010, 15, 0, false⟩
def F.FOL_JOINSIG_NUM : FR := ⟨0x130014, 31, 0, false⟩
def F.FOL_OWNA_MAP : FR := ⟨0x130018, 31, 0, false⟩
def F.FOL_CFGDIG_CRC : FR := ⟨0x13001c, 31, 0, false⟩
def F.FOL_PEERDIG_CRC : FR := ⟨0x130020, 31, 0, false⟩
def F.FOL_INJ_MOD : FR := ⟨0x130024, 7, 3, false⟩
def F.FOL_INJ_CFGDIG : FR := ⟨0x130024, 2, 2, false⟩
def F.FOL_INJ_DROP : FR := ⟨0x130024, 1, 1, false⟩
def F.FOL_INJ_DIGEST : FR := ⟨0x130024, 0, 0, false⟩
def F.MEM_CTL_PTEN : FR := ⟨0x140000, 2, 2, false⟩
def F.MEM_CTL_PATROL : FR := ⟨0x140000, 1, 1, false⟩
def F.MEM_CTL_RETEN : FR := ⟨0x140000, 0, 0, false⟩
def F.MEM_CFG_SPEED : FR := ⟨0x140004, 23, 20, false⟩
def F.MEM_CFG_SCN : FR := ⟨0x140004, 17, 16, false⟩
def F.MEM_CFG_HASH : FR := ⟨0x140004, 12, 12, false⟩
def F.MEM_CFG_RANKS : FR := ⟨0x140004, 8, 8, false⟩
def F.MEM_CFG_WIDTH : FR := ⟨0x140004, 5, 4, false⟩
def F.MEM_CFG_DENS : FR := ⟨0x140004, 2, 0, false⟩
def F.MEM_STS_CAP : FR := ⟨0x140008, 31, 20, false⟩
def F.MEM_STS_RETIRED : FR := ⟨0x140008, 15, 12, false⟩
def F.MEM_STS_ACTIVE : FR := ⟨0x140008, 11, 8, false⟩
def F.MEM_STS_BYPASSED : FR := ⟨0x140008, 2, 2, false⟩
def F.MEM_STS_TRAINED : FR := ⟨0x140008, 1, 1, false⟩
def F.MEM_STS_FILLED : FR := ⟨0x140008, 0, 0, false⟩
def F.MEM_ORD_MODE_MODE : FR := ⟨0x14000c, 0, 0, false⟩
def F.MEM_ARB_AGE : FR := ⟨0x140010, 31, 24, false⟩
def F.MEM_ARB_URGLN : FR := ⟨0x140010, 23, 16, false⟩
def F.MEM_ARB_WHI : FR := ⟨0x140010, 13, 8, false⟩
def F.MEM_ARB_WLO : FR := ⟨0x140010, 5, 0, false⟩
def F.MEM_RFCFG_POLL : FR := ⟨0x140014, 23, 16, false⟩
def F.MEM_RFCFG_FORCE2X : FR := ⟨0x140014, 3, 3, false⟩
def F.MEM_RFCFG_POSTMAX : FR := ⟨0x140014, 2, 0, false⟩
def F.MEM_PTCFG_INT : FR := ⟨0x140018, 31, 16, false⟩
def F.MEM_PTCFG_DRIFT : FR := ⟨0x140018, 11, 8, false⟩
def F.MEM_SCRUB_PERIOD : FR := ⟨0x14001c, 15, 0, false⟩
def F.MEM_RETCFG_DEVTHR : FR := ⟨0x140020, 31, 24, false⟩
def F.MEM_RETCFG_WIN : FR := ⟨0x140020, 19, 16, false⟩
def F.MEM_RETCFG_THR : FR := ⟨0x140020, 15, 0, false⟩
def F.MEM_CMD_RESTORE : FR := ⟨0x140024, 7, 4, false⟩
def F.MEM_CMD_PASS : FR := ⟨0x140024, 0, 0, false⟩
def F.MEM_TEST_BYPASS : FR := ⟨0x140028, 0, 0, false⟩
def F.MEM_INJ_ARM : FR := ⟨0x14002c, 31, 31, false⟩
def F.MEM_INJ_WCRC : FR := ⟨0x14002c, 30, 30, false⟩
def F.MEM_INJ_DEVMODE : FR := ⟨0x14002c, 29, 29, false⟩
def F.MEM_INJ_SC : FR := ⟨0x14002c, 28, 27, false⟩
def F.MEM_INJ_VAL : FR := ⟨0x14002c, 23, 16, false⟩
def F.MEM_INJ_S2 : FR := ⟨0x14002c, 14, 8, false⟩
def F.MEM_INJ_S1 : FR := ⟨0x14002c, 6, 0, false⟩
def F.MEM_TCHK_CHK (i : Nat) : FR := ⟨0x140030 + 4 * i, 31, 0, false⟩
def F.MEM_SC_STS_STATE (i : Nat) : FR := ⟨0x140100 + 0x20 * i, 31, 28, false⟩
def F.MEM_SC_STS_RATE0 (i : Nat) : FR := ⟨0x140100 + 0x20 * i, 23, 22, false⟩
def F.MEM_SC_STS_RATE1 (i : Nat) : FR := ⟨0x140100 + 0x20 * i, 21, 20, false⟩
def F.MEM_SC_STS_OWED0 (i : Nat) : FR := ⟨0x140100 + 0x20 * i, 18, 16, false⟩
def F.MEM_SC_STS_OWED1 (i : Nat) : FR := ⟨0x140100 + 0x20 * i, 14, 12, false⟩
def F.MEM_SC_DEVCE0_VAL (i : Nat) : FR := ⟨0x140104 + 0x20 * i, 31, 0, false⟩
def F.MEM_SC_DEVCE1_VAL (i : Nat) : FR := ⟨0x140108 + 0x20 * i, 31, 0, false⟩
def F.MEM_SC_DEVCE2_VAL (i : Nat) : FR := ⟨0x14010c + 0x20 * i, 15, 0, false⟩
def F.MEM_QLIST_VALID (i : Nat) : FR := ⟨0x140400 + 4 * i, 31, 31, false⟩
def F.MEM_QLIST_PAGE (i : Nat) : FR := ⟨0x140400 + 4 * i, 23, 0, false⟩
def F.SPN_PCTL_WMAX (i : Nat) : FR := ⟨0x180000 + 0x4000 * i, 3, 2, false⟩
def F.SPN_PCTL_MGMT (i : Nat) : FR := ⟨0x180000 + 0x4000 * i, 1, 1, false⟩
def F.SPN_PCTL_EN (i : Nat) : FR := ⟨0x180000 + 0x4000 * i, 0, 0, false⟩
def F.SPN_PSTS_STAGE (i : Nat) : FR := ⟨0x180004 + 0x4000 * i, 31, 28, false⟩
def F.SPN_PSTS_WIDTH (i : Nat) : FR := ⟨0x180004 + 0x4000 * i, 27, 26, false⟩
def F.SPN_PSTS_MGMTONLY (i : Nat) : FR := ⟨0x180004 + 0x4000 * i, 24, 24, false⟩
def F.SPN_PSTS_LANERET (i : Nat) : FR := ⟨0x180004 + 0x4000 * i, 23, 20, false⟩
def F.SPN_PSTS_LANEACT (i : Nat) : FR := ⟨0x180004 + 0x4000 * i, 19, 16, false⟩
def F.SPN_LINKCFG_RTMO (i : Nat) : FR := ⟨0x180008 + 0x4000 * i, 31, 16, false⟩
def F.SPN_LINKCFG_ACKINT (i : Nat) : FR := ⟨0x180008 + 0x4000 * i, 7, 0, false⟩
def F.SPN_RETCFG_RECMAX (i : Nat) : FR := ⟨0x18000c + 0x4000 * i, 31, 24, false⟩
def F.SPN_RETCFG_WIN (i : Nat) : FR := ⟨0x18000c + 0x4000 * i, 19, 16, false⟩
def F.SPN_RETCFG_THR (i : Nat) : FR := ⟨0x18000c + 0x4000 * i, 15, 0, false⟩
def F.SPN_EQCFG_TXPRE (i : Nat) : FR := ⟨0x180010 + 0x4000 * i, 15, 12, false⟩
def F.SPN_EQCFG_TXPOST (i : Nat) : FR := ⟨0x180010 + 0x4000 * i, 11, 8, false⟩
def F.SPN_EQCFG_CTLE (i : Nat) : FR := ⟨0x180010 + 0x4000 * i, 7, 4, false⟩
def F.SPN_EQCFG_FREEZE (i : Nat) : FR := ⟨0x180010 + 0x4000 * i, 0, 0, false⟩
def F.SPN_PRBS_LOCK (i : Nat) : FR := ⟨0x180014 + 0x4000 * i, 31, 28, false⟩
def F.SPN_PRBS_INJRATE (i : Nat) : FR := ⟨0x180014 + 0x4000 * i, 15, 12, false⟩
def F.SPN_PRBS_LOOP (i : Nat) : FR := ⟨0x180014 + 0x4000 * i, 9, 8, false⟩
def F.SPN_PRBS_INJ1 (i : Nat) : FR := ⟨0x180014 + 0x4000 * i, 6, 6, false⟩
def F.SPN_PRBS_INV (i : Nat) : FR := ⟨0x180014 + 0x4000 * i, 5, 5, false⟩
def F.SPN_PRBS_CHKEN (i : Nat) : FR := ⟨0x180014 + 0x4000 * i, 4, 4, false⟩
def F.SPN_PRBS_GENEN (i : Nat) : FR := ⟨0x180014 + 0x4000 * i, 3, 3, false⟩
def F.SPN_PRBS_POLY (i : Nat) : FR := ⟨0x180014 + 0x4000 * i, 1, 0, false⟩
def F.SPN_PCMD_CHECK (i : Nat) : FR := ⟨0x180028 + 0x4000 * i, 31, 16, false⟩
def F.SPN_PCMD_ADMIT (i : Nat) : FR := ⟨0x180028 + 0x4000 * i, 4, 4, false⟩
def F.SPN_PCMD_TESTEXIT (i : Nat) : FR := ⟨0x180028 + 0x4000 * i, 3, 3, false⟩
def F.SPN_PCMD_TEST (i : Nat) : FR := ⟨0x180028 + 0x4000 * i, 2, 2, false⟩
def F.SPN_PCMD_RESTORE (i : Nat) : FR := ⟨0x180028 + 0x4000 * i, 1, 1, false⟩
def F.SPN_PCMD_RETRAIN (i : Nat) : FR := ⟨0x180028 + 0x4000 * i, 0, 0, false⟩
def F.SPN_CRED_CREDITS (i : Nat) : FR := ⟨0x18002c + 0x4000 * i, 31, 0, false⟩
def F.SPN_NBRNODE_VAL (i : Nat) : FR := ⟨0x180040 + 0x4000 * i, 19, 0, false⟩
def F.SPN_PRBSERR_COUNT (i : Nat) (j : Nat) : FR := ⟨0x180018 + 0x4000 * i + 4 * j, 31, 0, false⟩
def F.SPN_NBRID_ID (i : Nat) (j : Nat) : FR := ⟨0x180030 + 0x4000 * i + 4 * j, 31, 0, false⟩
def F.SPN_CTL_DISCFWD : FR := ⟨0x181000, 2, 2, false⟩
def F.SPN_CTL_ROOT : FR := ⟨0x181000, 1, 1, false⟩
def F.SPN_CTL_DISCGO : FR := ⟨0x181000, 0, 0, false⟩
def F.SPN_NODE_VALID : FR := ⟨0x181004, 16, 16, false⟩
def F.SPN_NODE_DOMAIN : FR := ⟨0x181004, 15, 8, false⟩
def F.SPN_NODE_NODE : FR := ⟨0x181004, 7, 0, false⟩
def F.SPN_STS_TAGS : FR := ⟨0x181008, 26, 16, false⟩
def F.SPN_STS_QUAROWN : FR := ⟨0x181008, 2, 2, false⟩
def F.SPN_STS_TAGFULL : FR := ⟨0x181008, 1, 1, false⟩
def F.SPN_STS_DISCBUSY : FR := ⟨0x181008, 0, 0, false⟩
def F.SPN_CFG_CTO : FR := ⟨0x18100c, 31, 16, false⟩
def F.SPN_CFG_HOPLIM : FR := ⟨0x18100c, 15, 8, false⟩
def F.SPN_ARB_W3 : FR := ⟨0x181010, 23, 16, false⟩
def F.SPN_ARB_W2 : FR := ⟨0x181010, 15, 8, false⟩
def F.SPN_ARB_W1 : FR := ⟨0x181010, 7, 0, false⟩
def F.SPN_QCMD_ADMIT : FR := ⟨0x181014, 31, 31, false⟩
def F.SPN_QCMD_CHECK : FR := ⟨0x181014, 15, 0, false⟩
def F.SPN_INJ_HCRC : FR := ⟨0x181018, 8, 8, false⟩
def F.SPN_INJ_PORT : FR := ⟨0x181018, 7, 6, false⟩
def F.SPN_INJ_LANE : FR := ⟨0x181018, 5, 4, false⟩
def F.SPN_INJ_BLKLOSS : FR := ⟨0x181018, 3, 3, false⟩
def F.SPN_INJ_LANEERR : FR := ⟨0x181018, 2, 2, false⟩
def F.SPN_INJ_ACKDROP : FR := ⟨0x181018, 1, 1, false⟩
def F.SPN_INJ_FCRC : FR := ⟨0x181018, 0, 0, false⟩
def F.SPN_ROOT_NODE (i : Nat) : FR := ⟨0x181020 + 4 * i, 31, 16, false⟩
def F.SPN_ROOT_VALID (i : Nat) : FR := ⟨0x181020 + 4 * i, 15, 15, false⟩
def F.SPN_ROOT_UPPORT (i : Nat) : FR := ⟨0x181020 + 4 * i, 14, 12, false⟩
def F.SPN_ROOT_HOPS (i : Nat) : FR := ⟨0x181020 + 4 * i, 7, 0, false⟩
def F.SPN_DOMTAB_VALID (i : Nat) : FR := ⟨0x182000 + 4 * i, 31, 31, false⟩
def F.SPN_DOMTAB_PORTS (i : Nat) : FR := ⟨0x182000 + 4 * i, 4, 0, false⟩
def F.SPN_LOCTAB_VALID (i : Nat) : FR := ⟨0x182400 + 4 * i, 31, 31, false⟩
def F.SPN_LOCTAB_PORTS (i : Nat) : FR := ⟨0x182400 + 4 * i, 4, 0, false⟩
def F.MBX_STS_POSTQ : FR := ⟨0x1c0000, 8, 0, false⟩
def F.MBX_ATTNCFG_RINGEN : FR := ⟨0x1c0004, 24, 24, false⟩
def F.MBX_ATTNCFG_NOTEN : FR := ⟨0x1c0004, 23, 23, false⟩
def F.MBX_ATTNCFG_RING : FR := ⟨0x1c0004, 22, 16, false⟩
def F.MBX_ATTNCFG_NODE : FR := ⟨0x1c0004, 15, 0, false⟩
def F.MBX_LOCKCMD_FORCE : FR := ⟨0x1c0008, 31, 31, false⟩
def F.MBX_LOCKCMD_ALLNODE : FR := ⟨0x1c0008, 30, 30, false⟩
def F.MBX_LOCKCMD_SRC : FR := ⟨0x1c0008, 25, 24, false⟩
def F.MBX_LOCKCMD_INDEX : FR := ⟨0x1c0008, 23, 16, false⟩
def F.MBX_LOCKCMD_NODE : FR := ⟨0x1c0008, 15, 0, false⟩
def F.MBX_UP_BASE_LO_ADDR (i : Nat) : FR := ⟨0x1c0100 + 0x20 * i, 31, 12, false⟩
def F.MBX_UP_BASE_HI_ADDR (i : Nat) : FR := ⟨0x1c0104 + 0x20 * i, 31, 0, false⟩
def F.MBX_UP_SIZE_PAGES (i : Nat) : FR := ⟨0x1c0108 + 0x20 * i, 23, 0, false⟩
def F.MBX_UP_WPTR_BYTES (i : Nat) : FR := ⟨0x1c010c + 0x20 * i, 31, 0, false⟩
def F.MBX_UP_TAIL_BYTES (i : Nat) : FR := ⟨0x1c0110 + 0x20 * i, 31, 0, false⟩
def F.MBX_CH_MSG_WORD (i : Nat) (j : Nat) : FR := ⟨0x1c1000 + 0x80 * i + 4 * j, 31, 0, false⟩
def F.MBX_CH_CTL_RING (i : Nat) : FR := ⟨0x1c1040 + 0x80 * i, 19, 13, false⟩
def F.MBX_CH_CTL_LEN (i : Nat) : FR := ⟨0x1c1040 + 0x80 * i, 12, 8, false⟩
def F.MBX_CH_CTL_WITHDRAW (i : Nat) : FR := ⟨0x1c1040 + 0x80 * i, 1, 1, false⟩
def F.MBX_CH_CTL_GO (i : Nat) : FR := ⟨0x1c1040 + 0x80 * i, 0, 0, false⟩
def F.MBX_CH_STS_RESULT (i : Nat) : FR := ⟨0x1c1044 + 0x80 * i, 31, 24, false⟩
def F.MBX_CH_STS_WDREF (i : Nat) : FR := ⟨0x1c1044 + 0x80 * i, 4, 4, false⟩
def F.MBX_CH_STS_DONE (i : Nat) : FR := ⟨0x1c1044 + 0x80 * i, 3, 3, false⟩
def F.MBX_CH_STS_ACCEPTED (i : Nat) : FR := ⟨0x1c1044 + 0x80 * i, 2, 2, false⟩
def F.MBX_CH_STS_PENDING (i : Nat) : FR := ⟨0x1c1044 + 0x80 * i, 1, 1, false⟩
def F.MBX_CH_STS_WDRAWN (i : Nat) : FR := ⟨0x1c1044 + 0x80 * i, 0, 0, false⟩
def F.MBX_CH_OWNER_VALID (i : Nat) : FR := ⟨0x1c1048 + 0x80 * i, 16, 16, false⟩
def F.MBX_CH_OWNER_NODE (i : Nat) : FR := ⟨0x1c1048 + 0x80 * i, 15, 0, false⟩
def F.MBX_CH_AGE_US (i : Nat) : FR := ⟨0x1c104c + 0x80 * i, 31, 0, false⟩
def F.MBX_RG_BASE_LO_ADDR (i : Nat) : FR := ⟨0x1c4000 + 0x20 * i, 31, 12, false⟩
def F.MBX_RG_BASE_HI_ADDR (i : Nat) : FR := ⟨0x1c4004 + 0x20 * i, 31, 0, false⟩
def F.MBX_RG_CFG_EN (i : Nat) : FR := ⟨0x1c4008 + 0x20 * i, 31, 31, false⟩
def F.MBX_RG_CFG_NOTEN (i : Nat) : FR := ⟨0x1c4008 + 0x20 * i, 30, 30, false⟩
def F.MBX_RG_CFG_SIZELG (i : Nat) : FR := ⟨0x1c4008 + 0x20 * i, 28, 24, false⟩
def F.MBX_RG_CFG_MOD (i : Nat) : FR := ⟨0x1c4008 + 0x20 * i, 23, 16, false⟩
def F.MBX_RG_CFG_NODE (i : Nat) : FR := ⟨0x1c4008 + 0x20 * i, 15, 0, false⟩
def F.MBX_RG_HEAD_INDEX (i : Nat) : FR := ⟨0x1c400c + 0x20 * i, 31, 0, false⟩
def F.MBX_RG_TAIL_INDEX (i : Nat) : FR := ⟨0x1c4010 + 0x20 * i, 31, 0, false⟩
def F.MBX_RG_STS_FAULT (i : Nat) : FR := ⟨0x1c4014 + 0x20 * i, 31, 31, false⟩
def F.MBX_RG_STS_FULL (i : Nat) : FR := ⟨0x1c4014 + 0x20 * i, 30, 30, false⟩
def F.MBX_RG_STS_LOST (i : Nat) : FR := ⟨0x1c4014 + 0x20 * i, 15, 0, false⟩
def F.MBX_LOCK_VALUE (i : Nat) : FR := ⟨0x1c6000 + 4 * i, 31, 0, false⟩
def F.ERR_CFG_RUNGAP : FR := ⟨0x1d0000, 31, 16, false⟩
def F.ERR_CFG_RINGEN : FR := ⟨0x1d0000, 15, 15, false⟩
def F.ERR_CFG_RING : FR := ⟨0x1d0000, 14, 8, false⟩
def F.ERR_CFG_NOTSEV : FR := ⟨0x1d0000, 7, 6, false⟩
def F.ERR_CFG_FSEV : FR := ⟨0x1d0000, 5, 4, false⟩
def F.ERR_CFG_COMP : FR := ⟨0x1d0000, 3, 2, false⟩
def F.ERR_STS_FIRSTV : FR := ⟨0x1d0004, 31, 31, false⟩
def F.ERR_STS_INJPEND : FR := ⟨0x1d0004, 30, 30, false⟩
def F.ERR_STS_COUNT : FR := ⟨0x1d0004, 24, 16, false⟩
def F.ERR_STS_OPEN : FR := ⟨0x1d0004, 5, 0, false⟩
def F.ERR_HEAD_INDEX : FR := ⟨0x1d0008, 31, 0, false⟩
def F.ERR_TAIL_INDEX : FR := ⟨0x1d000c, 31, 0, false⟩
def F.ERR_OVF_COUNT : FR := ⟨0x1d0010, 31, 0, false⟩
def F.ERR_CMD_DUMP : FR := ⟨0x1d0014, 2, 2, false⟩
def F.ERR_CMD_BLKCLR : FR := ⟨0x1d0014, 1, 1, false⟩
def F.ERR_CMD_FIRSTCLR : FR := ⟨0x1d0014, 0, 0, false⟩
def F.ERR_INJ_ARM : FR := ⟨0x1d0018, 31, 31, false⟩
def F.ERR_INJ_ID : FR := ⟨0x1d0018, 30, 24, false⟩
def F.ERR_INJ_INST : FR := ⟨0x1d0018, 23, 16, false⟩
def F.ERR_INJ_ARG : FR := ⟨0x1d0018, 15, 0, false⟩
def F.ERR_FIRST_WORD (i : Nat) : FR := ⟨0x1d0020 + 4 * i, 31, 0, false⟩
def F.ERR_BLKFIRST_VALID (i : Nat) : FR := ⟨0x1d0040 + 4 * i, 31, 31, false⟩
def F.ERR_BLKFIRST_LOST (i : Nat) : FR := ⟨0x1d0040 + 4 * i, 30, 30, false⟩
def F.ERR_BLKFIRST_INDEX (i : Nat) : FR := ⟨0x1d0040 + 4 * i, 23, 16, false⟩
def F.ERR_BLKFIRST_CODE (i : Nat) : FR := ⟨0x1d0040 + 4 * i, 15, 0, false⟩
def F.ERR_CNT_SEV_COUNT (i : Nat) : FR := ⟨0x1d0100 + 4 * i, 31, 0, false⟩
def F.ERR_CNT_INJ_COUNT : FR := ⟨0x1d0110, 31, 0, false⟩
def F.SMT_CTL_MEN : FR := ⟨0x1e0000, 15, 0, false⟩
def F.SMT_STS_PEND : FR := ⟨0x1e0004, 15, 0, false⟩
def F.SMT_EVCMD_GO : FR := ⟨0x1e0008, 31, 31, false⟩
def F.SMT_EVCMD_CODE : FR := ⟨0x1e0008, 29, 24, false⟩
def F.SMT_EVCMD_PARAM : FR := ⟨0x1e0008, 15, 0, false⟩
def F.SMT_DEVREQ_CUT : FR := ⟨0x1e000c, 3, 3, false⟩
def F.SMT_DEVREQ_STOP : FR := ⟨0x1e000c, 2, 2, false⟩
def F.SMT_DEVREQ_HOLD : FR := ⟨0x1e000c, 1, 1, false⟩
def F.SMT_DEVREQ_RUN : FR := ⟨0x1e000c, 0, 0, false⟩
def F.SMT_GUARD_VAL (i : Nat) : FR := ⟨0x1e0100 + 4 * i, 31, 0, false⟩
def F.SMT_EVMAP_VAL (i : Nat) (j : Nat) : FR := ⟨0x1e0400 + 0x20 * i + 4 * j, 31, 0, false⟩
def F.SMT_MSTS_STATE (i : Nat) : FR := ⟨0x1e0800 + 0x40 * i, 31, 26, false⟩
def F.SMT_MSTS_CF (i : Nat) : FR := ⟨0x1e0800 + 0x40 * i, 25, 25, false⟩
def F.SMT_MSTS_TIMERRUN (i : Nat) : FR := ⟨0x1e0800 + 0x40 * i, 24, 24, false⟩
def F.SMT_MSTS_LASTACT (i : Nat) : FR := ⟨0x1e0800 + 0x40 * i, 23, 16, false⟩
def F.SMT_MSTS_MSGHELD (i : Nat) : FR := ⟨0x1e0800 + 0x40 * i, 15, 15, false⟩
def F.SMT_MSTS_MSGCH (i : Nat) : FR := ⟨0x1e0800 + 0x40 * i, 14, 9, false⟩
def F.SMT_MSTS_LASTEV (i : Nat) : FR := ⟨0x1e0800 + 0x40 * i, 4, 0, false⟩
def F.SMT_MPEND_PEND (i : Nat) : FR := ⟨0x1e0804 + 0x40 * i, 31, 0, false⟩
def F.SMT_MPARAM_PARAM (i : Nat) : FR := ⟨0x1e0808 + 0x40 * i, 15, 0, false⟩
def F.SMT_MTIMER_US (i : Nat) : FR := ⟨0x1e080c + 0x40 * i, 31, 0, false⟩
def F.SMT_MCNT_COUNT (i : Nat) : FR := ⟨0x1e0810 + 0x40 * i, 11, 0, false⟩
def F.SMT_MSCR_WORD (i : Nat) (j : Nat) : FR := ⟨0x1e0820 + 0x40 * i + 4 * j, 31, 0, false⟩
def F.SMT_WL_ADDR_STRIDE (i : Nat) : FR := ⟨0x1e1000 + 0xc * i, 28, 28, false⟩
def F.SMT_WL_ADDR_SHIFT (i : Nat) : FR := ⟨0x1e1000 + 0xc * i, 27, 24, false⟩
def F.SMT_WL_ADDR_ADDR (i : Nat) : FR := ⟨0x1e1000 + 0xc * i, 23, 0, false⟩
def F.SMT_WL_MASK_MASK (i : Nat) : FR := ⟨0x1e1004 + 0xc * i, 31, 0, false⟩
def F.SMT_WL_VAL_VAL (i : Nat) : FR := ⟨0x1e1008 + 0xc * i, 31, 0, false⟩
def F.QRE_CNT_HDR_COUNT : FR := ⟨0x20080, 31, 0, false⟩
def F.QRE_CNT_PCRC_COUNT : FR := ⟨0x20084, 31, 0, false⟩
def F.QRE_CNT_UCRC_COUNT : FR := ⟨0x20088, 31, 0, false⟩
def F.QRE_CNT_MALF_COUNT : FR := ⟨0x2008c, 31, 0, false⟩
def F.QRE_CNT_DUP_COUNT : FR := ⟨0x20090, 31, 0, false⟩
def F.QRE_CNT_STALE_COUNT : FR := ⟨0x20094, 31, 0, false⟩
def F.QRE_CNT_RSREQ_COUNT : FR := ⟨0x20098, 31, 0, false⟩
def F.QRE_CNT_RSOK_COUNT : FR := ⟨0x2009c, 31, 0, false⟩
def F.GTH_CNT_LATE_COUNT : FR := ⟨0x30300, 31, 0, false⟩
def F.GTH_CNT_TIPSAT_COUNT : FR := ⟨0x30304, 31, 0, false⟩
def F.GTH_CNT_TAKEOVER_COUNT : FR := ⟨0x30308, 31, 0, false⟩
def F.GTH_CNT_PSUBMISS_COUNT : FR := ⟨0x3030c, 31, 0, false⟩
def F.FIR_CNT_IDXLOW_COUNT : FR := ⟨0x40300, 31, 0, false⟩
def F.FIR_CNT_SHAVE_COUNT : FR := ⟨0x40304, 31, 0, false⟩
def F.FIR_CNT_DRSHAVE_COUNT : FR := ⟨0x40308, 31, 0, false⟩
def F.FIR_CNT_FENSLIP_COUNT : FR := ⟨0x4030c, 31, 0, false⟩
def F.FIR_CNT_TSTALE_COUNT : FR := ⟨0x40310, 31, 0, false⟩
def F.FIR_CNT_WITHHELD_COUNT : FR := ⟨0x40314, 31, 0, false⟩
def F.POS_CNT_JITTER_COUNT : FR := ⟨0x50200, 31, 0, false⟩
def F.POS_CNT_BACKWARD_COUNT : FR := ⟨0x50204, 31, 0, false⟩
def F.POS_CNT_ENCERR_COUNT : FR := ⟨0x50208, 31, 0, false⟩
def F.POS_CNT_FAST_COUNT : FR := ⟨0x5020c, 31, 0, false⟩
def F.POS_CNT_PHCLIP_COUNT : FR := ⟨0x50210, 31, 0, false⟩
def F.POS_CNT_BCNEPOCH_COUNT : FR := ⟨0x50214, 31, 0, false⟩
def F.POS_CNT_CATCHUP_COUNT : FR := ⟨0x50218, 31, 0, false⟩
def F.TMB_CNT_STEP_COUNT : FR := ⟨0x60100, 31, 0, false⟩
def F.TMB_CNT_SYNCLOST_COUNT : FR := ⟨0x60104, 31, 0, false⟩
def F.TMB_CNT_SYNCREJ_COUNT : FR := ⟨0x60108, 31, 0, false⟩
def F.THL_CNT_NAK_COUNT (i : Nat) : FR := ⟨0x80080 + 0x4000 * i, 31, 0, false⟩
def F.THL_CNT_ACKTMO_COUNT (i : Nat) : FR := ⟨0x80084 + 0x4000 * i, 31, 0, false⟩
def F.THL_CNT_RESENT_COUNT (i : Nat) : FR := ⟨0x80088 + 0x4000 * i, 31, 0, false⟩
def F.THL_CNT_ACKLOST_COUNT (i : Nat) : FR := ⟨0x8008c + 0x4000 * i, 31, 0, false⟩
def F.THL_CNT_CTLBAD_COUNT (i : Nat) : FR := ⟨0x80090 + 0x4000 * i, 31, 0, false⟩
def F.THL_CNT_STSCRC_COUNT (i : Nat) : FR := ⟨0x80094 + 0x4000 * i, 31, 0, false⟩
def F.THL_CNT_RECOVER_COUNT (i : Nat) : FR := ⟨0x80098 + 0x4000 * i, 31, 0, false⟩
def F.THL_CNT_MISMATCH_COUNT (i : Nat) : FR := ⟨0x8009c + 0x4000 * i, 31, 0, false⟩
def F.THL_CNT_SKIP_COUNT (i : Nat) : FR := ⟨0x800a0 + 0x4000 * i, 31, 0, false⟩
def F.NZH_CNT_MEAS_COUNT : FR := ⟨0x100200, 31, 0, false⟩
def F.NZH_CNT_ABORT_COUNT : FR := ⟨0x100204, 31, 0, false⟩
def F.NZH_CNT_INVALID_COUNT : FR := ⟨0x100208, 31, 0, false⟩
def F.NZH_CNT_CHANGE_COUNT : FR := ⟨0x10020c, 31, 0, false⟩
def F.NZH_CNT_UNCONF_COUNT : FR := ⟨0x100210, 31, 0, false⟩
def F.NZH_CNT_PENDFULL_COUNT : FR := ⟨0x100214, 31, 0, false⟩
def F.NZH_CNT_STALEWR_COUNT : FR := ⟨0x100218, 31, 0, false⟩
def F.NZH_CNT_MAPLATE_COUNT : FR := ⟨0x10021c, 31, 0, false⟩
def F.NZH_CNT_STAGEFULL_COUNT : FR := ⟨0x100220, 31, 0, false⟩
def F.NZH_CNT_RPTLOST_COUNT : FR := ⟨0x100224, 31, 0, false⟩
def F.NZH_CNT_FOLDIFF_COUNT : FR := ⟨0x100228, 31, 0, false⟩
def F.INS_CNT_HDRCOR_COUNT : FR := ⟨0x110800, 31, 0, false⟩
def F.INS_CNT_HDRERR_COUNT : FR := ⟨0x110804, 31, 0, false⟩
def F.INS_CNT_PCRC_COUNT : FR := ⟨0x110808, 31, 0, false⟩
def F.INS_CNT_OTHERDT_COUNT : FR := ⟨0x11080c, 31, 0, false⟩
def F.INS_CNT_ORPHAN_COUNT : FR := ⟨0x110810, 31, 0, false⟩
def F.INS_CNT_SHORTL_COUNT : FR := ⟨0x110814, 31, 0, false⟩
def F.INS_CNT_LONGL_COUNT : FR := ⟨0x110818, 31, 0, false⟩
def F.INS_CNT_SHORTF_COUNT : FR := ⟨0x11081c, 31, 0, false⟩
def F.INS_CNT_LONGF_COUNT : FR := ⟨0x110820, 31, 0, false⟩
def F.INS_CNT_DROP_COUNT : FR := ⟨0x110824, 31, 0, false⟩
def F.INS_CNT_NOTRIG_COUNT : FR := ⟨0x110828, 31, 0, false⟩
def F.INS_CNT_NOFRAME_COUNT : FR := ⟨0x11082c, 31, 0, false⟩
def F.INS_CNT_REGFAIL_COUNT : FR := ⟨0x110830, 31, 0, false⟩
def F.INS_CNT_PTMISS_COUNT : FR := ⟨0x110834, 31, 0, false⟩
def F.INS_CNT_TRIGSKIP_COUNT : FR := ⟨0x110838, 31, 0, false⟩
def F.INS_CNT_BLLOST_COUNT : FR := ⟨0x11083c, 31, 0, false⟩
def F.INS_CNT_OVERCOL_COUNT : FR := ⟨0x110840, 31, 0, false⟩
def F.INS_CNT_FRAMES_COUNT : FR := ⟨0x110844, 31, 0, false⟩
def F.CAL_CNT_PUB_COUNT : FR := ⟨0x120200, 31, 0, false⟩
def F.CAL_CNT_UPD_COUNT : FR := ⟨0x120204, 31, 0, false⟩
def F.CAL_CNT_TRIMSAT_COUNT : FR := ⟨0x120208, 31, 0, false⟩
def F.CAL_CNT_CLAMP_COUNT : FR := ⟨0x12020c, 31, 0, false⟩
def F.CAL_CNT_OUTLIER_COUNT : FR := ⟨0x120210, 31, 0, false⟩
def F.CAL_CNT_DEAD_COUNT : FR := ⟨0x120214, 31, 0, false⟩
def F.CAL_CNT_FFPUB_COUNT : FR := ⟨0x120218, 31, 0, false⟩
def F.CAL_CNT_FFCLAMP_COUNT : FR := ⟨0x12021c, 31, 0, false⟩
def F.FOL_CNT_EXPL_COUNT : FR := ⟨0x130080, 31, 0, false⟩
def F.FOL_CNT_UNEXPL_COUNT : FR := ⟨0x130084, 31, 0, false⟩
def F.FOL_CNT_PEERMISS_COUNT : FR := ⟨0x130088, 31, 0, false⟩
def F.FOL_CNT_FAILOVER_COUNT : FR := ⟨0x13008c, 31, 0, false⟩
def F.FOL_CNT_REVERT_COUNT : FR := ⟨0x130090, 31, 0, false⟩
def F.FOL_CNT_JOIN_COUNT : FR := ⟨0x130094, 31, 0, false⟩
def F.FOL_CNT_MODMIS_COUNT : FR := ⟨0x130098, 31, 0, false⟩
def F.FOL_CNT_SUSPECT_COUNT : FR := ⟨0x13009c, 31, 0, false⟩
def F.MEM_CNT_CE_COUNT : FR := ⟨0x140200, 31, 0, false⟩
def F.MEM_CNT_UE_COUNT : FR := ⟨0x140204, 31, 0, false⟩
def F.MEM_CNT_RDRETRY_COUNT : FR := ⟨0x140208, 31, 0, false⟩
def F.MEM_CNT_WCRC_COUNT : FR := ⟨0x14020c, 31, 0, false⟩
def F.MEM_CNT_FWD_COUNT : FR := ⟨0x140210, 31, 0, false⟩
def F.MEM_CNT_RMW_COUNT : FR := ⟨0x140214, 31, 0, false⟩
def F.MEM_CNT_POISONRD_COUNT : FR := ⟨0x140218, 31, 0, false⟩
def F.MEM_CNT_SCRUBWB_COUNT : FR := ⟨0x14021c, 31, 0, false⟩
def F.MEM_CNT_HARD_COUNT : FR := ⟨0x140220, 31, 0, false⟩
def F.MEM_CNT_TRKEVICT_COUNT : FR := ⟨0x140224, 31, 0, false⟩
def F.MEM_CNT_REFFORCE_COUNT : FR := ⟨0x140228, 31, 0, false⟩
def F.MEM_CNT_PAUSE_COUNT : FR := ⟨0x14022c, 31, 0, false⟩
def F.MEM_CNT_RETRD_COUNT : FR := ⟨0x140230, 31, 0, false⟩
def F.MEM_CNT_SCRUBPZ_COUNT : FR := ⟨0x140234, 31, 0, false⟩
def F.SPN_CNT_FCRC_COUNT (i : Nat) : FR := ⟨0x180080 + 0x4000 * i, 31, 0, false⟩
def F.SPN_CNT_HCRC_COUNT (i : Nat) : FR := ⟨0x180084 + 0x4000 * i, 31, 0, false⟩
def F.SPN_CNT_NAKTX_COUNT (i : Nat) : FR := ⟨0x180088 + 0x4000 * i, 31, 0, false⟩
def F.SPN_CNT_NAKRX_COUNT (i : Nat) : FR := ⟨0x18008c + 0x4000 * i, 31, 0, false⟩
def F.SPN_CNT_REPLAY_COUNT (i : Nat) : FR := ⟨0x180090 + 0x4000 * i, 31, 0, false⟩
def F.SPN_CNT_RECOVER_COUNT (i : Nat) : FR := ⟨0x180094 + 0x4000 * i, 31, 0, false⟩
def F.SPN_CNT_BLKERR_COUNT (i : Nat) (j : Nat) : FR := ⟨0x180098 + 0x4000 * i + 4 * j, 31, 0, false⟩
def F.SPN_CNT_NOROUTE_COUNT : FR := ⟨0x181080, 31, 0, false⟩
def F.SPN_CNT_HOPLIM_COUNT : FR := ⟨0x181084, 31, 0, false⟩
def F.SPN_CNT_STOMP_COUNT : FR := ⟨0x181088, 31, 0, false⟩
def F.SPN_CNT_LATERESP_COUNT : FR := ⟨0x18108c, 31, 0, false⟩
def F.SPN_CNT_QDSEQ_COUNT : FR := ⟨0x181090, 31, 0, false⟩
def F.SPN_CNT_FILTER_COUNT : FR := ⟨0x181094, 31, 0, false⟩
def F.SPN_CNT_CTO_COUNT : FR := ⟨0x181098, 31, 0, false⟩
def F.SPN_CNT_DISC_COUNT : FR := ⟨0x18109c, 31, 0, false⟩
def F.MBX_CNT_LOST_COUNT : FR := ⟨0x1c0200, 31, 0, false⟩
def F.MBX_CNT_NOTIFY_COUNT : FR := ⟨0x1c0204, 31, 0, false⟩
def F.MBX_CNT_LOCKERR_COUNT : FR := ⟨0x1c0208, 31, 0, false⟩
def F.MBX_CNT_UPNOSPACE_COUNT : FR := ⟨0x1c020c, 31, 0, false⟩
def F.MBX_CNT_MSG_COUNT : FR := ⟨0x1c0210, 31, 0, false⟩
def F.MBX_CNT_REJECT_COUNT : FR := ⟨0x1c0214, 31, 0, false⟩
def F.SMT_CNT_TRANS_COUNT : FR := ⟨0x1e2000, 31, 0, false⟩
def F.SMT_CNT_ACTREJ_COUNT : FR := ⟨0x1e2004, 31, 0, false⟩
def F.SMT_CNT_DROP_COUNT : FR := ⟨0x1e2008, 31, 0, false⟩
def F.SMT_CNT_INJ_COUNT : FR := ⟨0x1e200c, 31, 0, false⟩
def F.GLB_ATTN_RUNREF : FR := ⟨0x18, 0, 0, false⟩
def F.GLB_ATTN_STARVED : FR := ⟨0x18, 1, 1, false⟩
def F.GLB_ATTN_FENCUT : FR := ⟨0x18, 2, 2, false⟩
def F.GLB_ATTN_TEMPWARN : FR := ⟨0x18, 3, 3, false⟩
def F.GLB_ATTN_TEMPHARD : FR := ⟨0x18, 4, 4, false⟩
def F.GLB_ATTN_LANEDOWN : FR := ⟨0x18, 5, 5, false⟩
def F.GLB_ATTN_LANECAP : FR := ⟨0x18, 6, 6, false⟩
def F.GLB_ATTN_LANERET : FR := ⟨0x18, 7, 7, false⟩
def F.GLB_ATTN_ENCREV : FR := ⟨0x18, 8, 8, false⟩
def F.GLB_ATTN_POSLOST : FR := ⟨0x18, 9, 9, false⟩
def F.GLB_ATTN_NOZDEAD : FR := ⟨0x18, 10, 10, false⟩
def F.GLB_ATTN_NOZCLUSTER : FR := ⟨0x18, 11, 11, false⟩
def F.GLB_ATTN_CAMREG : FR := ⟨0x18, 12, 12, false⟩
def F.GLB_ATTN_CAMLINK : FR := ⟨0x18, 13, 13, false⟩
def F.GLB_ATTN_FOLCFG : FR := ⟨0x18, 14, 14, false⟩
def F.GLB_ATTN_FOLDEGR : FR := ⟨0x18, 15, 15, false⟩
def F.GLB_ATTN_FOLSUSP : FR := ⟨0x18, 16, 16, false⟩
def F.GLB_ATTN_FOLFAIL : FR := ⟨0x18, 17, 17, false⟩
def F.GLB_ATTN_FOLISO : FR := ⟨0x18, 18, 18, false⟩
def F.GLB_ATTN_FOLRET : FR := ⟨0x18, 19, 19, false⟩
def F.GLB_ATTN_MEMTRAIN : FR := ⟨0x18, 20, 20, false⟩
def F.GLB_ATTN_MEMDEV : FR := ⟨0x18, 21, 21, false⟩
def F.GLB_ATTN_MEMHARD : FR := ⟨0x18, 22, 22, false⟩
def F.GLB_ATTN_MEMQFULL : FR := ⟨0x18, 23, 23, false⟩
def F.GLB_ATTN_MEMHOT : FR := ⟨0x18, 24, 24, false⟩
def F.GLB_ATTN_MEMRET : FR := ⟨0x18, 25, 25, false⟩
def F.GLB_ATTN_SPNLINK : FR := ⟨0x18, 26, 26, false⟩
def F.GLB_ATTN_SPNRET : FR := ⟨0x18, 27, 27, false⟩
def F.GLB_ATTN_NODEQUAR : FR := ⟨0x18, 28, 28, false⟩
def F.GLB_ATTN_RINGOVF : FR := ⟨0x18, 29, 29, false⟩

end Sys2Proof.Machine
end

