-- ==== Sys2Proof/Machine/Ops.lean ====
section
/-!
DEFINITION. The named operations every block uses: registers and their fields, counters, attention reasons, supervisor events, error records
(R416 to R426) and descriptor posts (R369).
-/

namespace Sys2Proof.Machine

/-! ## Registers -/

/-- A family's reset word (R11). -/
def famReset (f : Fam) : Nat := f.flds.foldl (fun v x => putBits v x.hi x.lo x.reset) 0

/-- The reset value of the register at an address; 0 where no register stands. -/
def resetAt (a : Nat) : Word :=
  match famOf a with
  | some f => BitVec.ofNat 32 (famReset f)
  | none => 0

/-- The live copy of a register: what a read returns of its RW bits, and the shadow of its boundary fields (R13). -/
def State.reg (s : State) (a : Nat) : Nat := (spGetD resetAt s.regs a).toNat

/-- Set the live copy of a register. -/
def State.setReg (s : State) (a v : Nat) : State := { s with regs := spSetD resetAt s.regs a (BitVec.ofNat 32 v) }

/-- The active copy of a register with boundary fields (R13). -/
def State.act (s : State) (a : Nat) : Nat := (spGetD resetAt s.active a).toNat

/-- Set an active copy. -/
def State.setAct (s : State) (a v : Nat) : State := { s with active := spSetD resetAt s.active a (BitVec.ofNat 32 v) }

/-- A field as the hardware uses it: the active copy of a boundary field, the live value of any other. -/
def State.g (s : State) (f : FR) : Nat := bitsOf (if f.sh then s.act f.addr else s.reg f.addr) f.hi f.lo

/-- A one-bit field as the hardware uses it. -/
def State.gb (s : State) (f : FR) : Bool := s.g f == 1

/-- Set a field of a register's live copy (hardware's own write of a status field). -/
def State.p (s : State) (f : FR) (v : Nat) : State := s.setReg f.addr (putBits (s.reg f.addr) f.hi f.lo v)

/-- Add to a counter field, saturating at its width (R7, R10). -/
def State.incBy (s : State) (f : FR) (n : Nat) : State := s.p f (satN (2 ^ (f.hi + 1 - f.lo) - 1) (s.g f + n))

/-- Add one to a counter field. -/
def State.inc (s : State) (f : FR) : State := s.incBy f 1

/-- Draw the next free value (the spec leaves it open). [DESIGN CHOICE, log 7] -/
def State.draw (s : State) : Nat × State := (Config.freeValue s.free, { s with free := s.free + 1 })

/-- Put something out. -/
def State.emit (s : State) (o : Output) : State := { s with out := s.out ++ [o] }

/-- The word of a table window at a byte address (R435). -/
def State.winWord (s : State) (a : Nat) : Nat := (spGet 0 s.win a).toNat

/-! ## On-chip SRAM (R25, R430). The arrays hold their tables in address order, 8 bytes a word. -/

/-- Whether a word of an array is poisoned. -/
def State.sramBad (s : State) (a w : Nat) : Bool := s.sram.poisoned.contains (a, w)

/-- The array and word that hold an address: nozzle map, energy tables, pass and stitch masks, statistics; and in array 10 the transition tables, the write list
and the routing tables. [DESIGN CHOICE, log 22] -/
def sramOf (a : Nat) : Option (Nat × Nat) :=
  if 0x400000 ≤ a ∧ a < 0x480000 then some (3, (a - 0x400000) / 8)
  else if 0x480000 ≤ a ∧ a < 0x4C0000 then some (7, (a - 0x480000) / 8)
  else if 0x4C0000 ≤ a ∧ a < 0x500C00 then some (8, (a - 0x4C0000) / 8)
  else if 0x540000 ≤ a ∧ a < 0x560000 then some (10, (a - 0x540000) / 8)
  else if 0x1E1000 ≤ a ∧ a < 0x1E1C00 then some (10, 16384 + (a - 0x1E1000) / 8)
  else if 0x182000 ≤ a ∧ a < 0x182800 then some (10, 16768 + (a - 0x182000) / 8)
  else if 0x800000 ≤ a ∧ a < 0xB00000 then some (6, (a - 0x800000) / 8)
  else none

/-- The SRAM word of log slot k's word j. -/
def sramLog (k j : Nat) : Nat := 17024 + 4 * k + j

/-- Whether the word that holds an address is poisoned. -/
def State.addrBad (s : State) (a : Nat) : Bool :=
  !s.sram.poisoned.isEmpty && (match sramOf a with | some (x, w) => s.sramBad x w | none => false)

/-- The device states' numbers (R18). -/
def devCode : Dev → Nat
  | .off => 0 | .reset => 1 | .load => 2 | .fill => 3 | .train => 4 | .standby => 5
  | .run => 6 | .hold => 7 | .fault => 8 | .quarantine => 9 | .retired => 10

/-- The timebase epoch. -/
def State.epoch (s : State) : Nat := s.g F.TMB_EPOCH_EPOCH

/-- Whole microseconds of the controller's clock. -/
def State.us (s : State) : Nat := s.ns / 1000

/-- The timebase as a number. -/
def State.now (s : State) : Nat := s.tb.toNat

/-- The signed difference of two timebase values (R143). -/
def tdiff (a b : Nat) : Int := sext 64 (a + 2 ^ 64 - b % 2 ^ 64)

/-- A timebase value moved by a signed distance. -/
def tAdd (a : Nat) (d : Int) : Nat := toBits 64 ((a : Int) + d)

/-- Nanoseconds in units of the timebase. -/
def nsU (n : Nat) : Nat := n * 65536

/-! ## Attention -/

/-- Set a latched attention reason (R376, R439). -/
def State.latch (s : State) (b : Nat) : State := s.setReg 0x18 (putBit (s.reg 0x18) b true)

/-! ## Supervisor events -/

/-- The machine m. -/
def State.mach (s : State) (m : Nat) : SmtMach := spGet {} s.smt m

/-- Change machine m. -/
def State.modMach (s : State) (m : Nat) (f : SmtMach → SmtMach) : State := { s with smt := spMod {} s.smt m f }

/-- Whether machine m runs (R395). [DEDUCED, log 76] -/
def State.machOn (s : State) (m : Nat) : Bool := bitOf (s.g F.SMT_CTL_MEN) m

/-- The global code bound to local event e of machine m (SMT_EVMAP); 0 when unbound. -/
def State.evBound (s : State) (m e : Nat) : Nat := bitsOf (s.reg (0x1E0400 + 32 * m + 4 * (e / 4))) (8 * (e % 4) + 5) (8 * (e % 4))

/-- Make local event e of machine m pending, its parameter replacing an older one (R398). -/
def State.pendLocal (s : State) (m e par : Nat) : State :=
  s.modMach m fun x => { x with pend := putBit x.pend e true, slots := spSet 0 x.slots e (par % 65536) }

/-- Raise a global event to one machine (R398). -/
def State.raiseTo (s : State) (m code par : Nat) : State :=
  if s.machOn m then
    (List.range 32).foldl (fun s e => if s.evBound m e = code then s.pendLocal m e par else s) s
  else s

/-- Raise a global event to every running machine (R398). [DEDUCED, log 124] -/
def State.raise (s : State) (code par : Nat) : State :=
  if code = 0 then s else (List.range 16).foldl (fun s m => s.raiseTo m code par) s

/-! ## Injections -/

/-- Whether an injection with this identifier is pending for this instance (R431, R432). -/
def State.injHit (s : State) (id inst : Nat) : Bool :=
  match s.err.inj with
  | some j => j.id == id && j.inst == inst
  | none => false

/-- Whether an injection with this identifier is pending, whatever its instance. -/
def State.injAny (s : State) (id : Nat) : Bool :=
  match s.err.inj with
  | some j => j.id == id
  | none => false

/-- The argument of the pending injection. -/
def State.injArg (s : State) : Nat :=
  match s.err.inj with
  | some j => j.arg
  | none => 0

/-- The pending injection acts: it is used up, and the event counts in ERR_CNT_INJ (R431). [DESIGN CHOICE, log 26] -/
def State.injUse (s : State) : State := { s with err := { s.err with inj := none } }.inc F.ERR_CNT_INJ_COUNT

/-- One event of an injection of several events acts; the last one uses it up. [DESIGN CHOICE, log 26] -/
def State.injStep (s : State) : State :=
  match s.err.inj with
  | some j =>
    (if j.left ≤ 1 then { s with err := { s.err with inj := none } }
     else { s with err := { s.err with inj := some { j with left := j.left - 1 } } }).inc F.ERR_CNT_INJ_COUNT
  | none => s

/-! ## Writes of SRAM words (R25, R430, R431) -/

/-- The poison and the flipped bits of the words a predicate picks end: they have been rewritten. -/
def State.sramClear (s : State) (f : Nat × Nat → Bool) : State :=
  if s.sram.poisoned.isEmpty && s.sram.flips.isEmpty then s
  else { s with sram := { poisoned := s.sram.poisoned.filter fun k => !f k, flips := s.sram.flips.filter fun k => !f (k.1, k.2.1) } }

/-- The error that injection 0x18 or 0x19 puts into a word: bits outside its 72 flip nothing, and one bit named twice flips once. Uncorrectable with two bits. [DESIGN CHOICE, log 23] -/
def flipOf (two : Bool) (arg : Nat) : Option Bool :=
  let b := (if two then [bitsOf arg 6 0, bitsOf arg 14 8].eraseDups else [bitsOf arg 6 0]).filter fun x => decide (x < 72)
  if b.isEmpty then none else some (b.length == 2)

/-- A pending injection 0x18 or 0x19 acts on a word of its array that has just been written (R431). [DESIGN CHOICE, log 23, 24] -/
def State.sramFlip (s : State) (a w : Nat) : State :=
  let one := s.injHit 0x18 a
  if one || s.injHit 0x19 a then
    let s' := s.injUse
    match flipOf (!one) s.injArg with
    | some ue => { s' with sram := { s'.sram with flips := s'.sram.flips ++ [(a, w, ue)] } }
    | none => s'
  else s

/-- Word w of array a is written. [DESIGN CHOICE, log 24, 25] -/
def State.sramWrote (s : State) (a w : Nat) : State := (s.sramClear fun k => k == (a, w)).sramFlip a w

/-- The SRAM word that holds an address, where one does, is written. -/
def State.addrWrote (s : State) (a : Nat) : State :=
  match sramOf a with
  | some k => s.sramWrote k.1 k.2
  | none => s

/-- Set a word of a table window. -/
def State.setWin (s : State) (a v : Nat) : State := { s with win := spSet 0 s.win a (BitVec.ofNat 32 v) }.addrWrote a

/-! ## Error records -/

/-- An event that a record covers (R416, R421). `key` are the parts of the key beyond code and instance; `stays` keeps the record open, by its own
rule or, with `byGap`, until RUNGAP passes without an event; `handles` says the event's rule prescribes more than the record (R426). -/
structure Ev where
  c : ECode
  inst : Nat := 0
  ctxType : Nat := 0
  ctx : Nat := 0
  key : List Nat := []
  stays : Bool := false
  byGap : Bool := true
  count : Nat := 1
  inj : Bool := false
  handles : Bool := false
  deriving DecidableEq, Repr

/-- Context LINE and NOZZLE (R418): module, rank, 16 bits, 32 bits. -/
def ctxLine (m r x y : Nat) : Nat := m % 256 + r % 256 * 256 + x % 65536 * 65536 + y % 2 ^ 32 * 2 ^ 32

/-- Context QUIRE: signature, context, generation, first line. -/
def ctxQuire (sig c gen line : Nat) : Nat := sig % 65536 + c % 256 * 65536 + gen % 256 * 2 ^ 24 + line % 2 ^ 32 * 2 ^ 32

/-- Context DRAM: address A, master, subchannel with the ADDR and RMW flags, x4 device or 0xFF. -/
def ctxDram (a master flags dev : Nat) : Nat := a % 2 ^ 40 + master % 256 * 2 ^ 40 + flags % 256 * 2 ^ 48 + dev % 256 * 2 ^ 56

/-- Context NODE: node, port, lane or 0xFF, CRC bits. -/
def ctxNode (node port lane crc : Nat) : Nat := node % 65536 + port % 256 * 65536 + lane % 256 * 2 ^ 24 + crc % 65536 * 2 ^ 32

/-- The source code of context REG (R418). -/
def srcCode : Src → Nat
  | .spine _ => 0
  | .jtag => 1
  | .internal => 2
  | .loader => 3

/-- The source node of context REG. -/
def srcNode : Src → Nat
  | .spine n => n
  | _ => 0

/-- Context REG: register address, source node, source. -/
def ctxReg (a : Nat) (src : Src) : Nat := a % 2 ^ 32 + srcNode src % 65536 * 2 ^ 32 + srcCode src * 2 ^ 48

/-- Context CAMERA: context, port, frame number, frames processed. -/
def ctxCam (c p fr n : Nat) : Nat := c % 256 + p % 256 * 256 + fr % 65536 * 65536 + n % 2 ^ 32 * 2 ^ 32

/-- Context LANE: lane, port B, LFN. -/
def ctxLane (l : Nat) (portB : Bool) (lfn : Nat) : Nat := l % 256 + b2n portB * 256 + lfn % 65536 * 65536

/-- The block of a code (R416). -/
def blockOf (code : Nat) : Nat := bitsOf code 11 6

/-- The class of a code. -/
def classOf (code : Nat) : Nat := bitsOf code 15 12

/-- Byte 12 of a record. -/
def recB12 (r : ErrRec) : Nat := r.ctxType % 16 + r.sev % 8 * 16 + b2n r.inj * 128

/-- Byte 13 of a record, given whether it is open. -/
def recB13 (r : ErrRec) (isOpen : Bool) : Nat := b2n isOpen + 2 * b2n r.nested + 4 * b2n r.lostb

/-- The 32 bytes of a record (R416), `isOpen` giving its OPEN bit. -/
def recBytes (r : ErrRec) (isOpen : Bool) : Bytes :=
  leBytes 8 r.ts ++ leBytes 2 r.code ++ leBytes 2 r.inst ++ leBytes 1 (recB12 r) ++ leBytes 1 (recB13 r isOpen) ++ leBytes 2 r.epoch
    ++ leBytes 8 r.ctx ++ leBytes 4 r.count ++ leBytes 4 r.last

/-- Records in the log (R422): HEAD - TAIL. -/
def State.logCount (s : State) : Nat := (s.g F.ERR_HEAD_INDEX + 2 ^ 32 - s.g F.ERR_TAIL_INDEX) % 2 ^ 32

/-- The log when a record of it, if it has an index, covers `n` more events: count and last time change (R421). -/
def State.extended (s : State) (idx : Option Nat) (n : Nat) : Sparse (Option ErrRec) :=
  let upd (r : ErrRec) : ErrRec :=
    { r with count := satN 0xFFFFFFFF (r.count + n),
             last := satN 0xFFFFFFFF (((s.tb.toNat + 2 ^ 64 - r.ts) % 2 ^ 64) / (64 * 65536)) }
  match idx with
  | none => s.err.log
  | some i => spMod none s.err.log (i % 256) (Option.map upd)

/-- An open record takes one more event: count and last time change, and it becomes the most recently extended (R421). [DEDUCED, log 27] -/
def State.extend (s : State) (o : OpenRec) (n : Nat) : State :=
  { s with err := { s.err with opened := { o with lastNs := s.ns } :: s.err.opened.filter fun x => x.key ≠ o.key, log := s.extended o.idx n } }

/-- Ring n's size in descriptors (R366); 0 when SIZELG is outside 4 to 16. -/
def State.ringSize (s : State) (n : Nat) : Nat :=
  let k := s.g (F.MBX_RG_CFG_SIZELG n)
  if 4 ≤ k ∧ k ≤ 16 then 2 ^ k else 0

/-- Descriptors in ring n (R366): HEAD - TAIL. [DEDUCED, log 110] -/
def State.ringUsed (s : State) (n : Nat) : Nat := (s.g (F.MBX_RG_HEAD_INDEX n) + 2 ^ 32 - s.g (F.MBX_RG_TAIL_INDEX n)) % 2 ^ 32

/-- Whether ring n takes a descriptor now (R369): enabled, with a size, not full, and the posting queue not full. [DEDUCED, log 110] -/
def State.ringTakes (s : State) (n : Nat) : Bool :=
  s.gb (F.MBX_RG_CFG_EN n) && decide (s.ringUsed n < s.ringSize n) && decide (s.mbx.postq.length < 256)

/-- A descriptor is lost: counted, LOSTB set for the next one; the first of a run of losses raises RINGOVF (R369). -/
def State.loseDesc (s : State) (n : Nat) : State :=
  let s := (s.inc (F.MBX_RG_STS_LOST n)).inc F.MBX_CNT_LOST_COUNT
  let s := if s.err.opened.any fun o => o.key == [E.MBX_RINGFULL.code, n] then s else s.latch Att.RINGOVF
  { s with mbx := { s.mbx with lostb := spSet false s.mbx.lostb n true } }

/-- Offer a descriptor to the posting queue; the flag says it was lost, the second one that an injection made it so (R369, R431). -/
def State.tryPost (s : State) (n ty status : Nat) (body : Bytes) : State × Bool × Bool :=
  if s.injHit 0x1A n then ((s.injUse).loseDesc n, true, true)
  else if s.ringTakes n then
    ({ s with mbx := { s.mbx with postq := s.mbx.postq ++ [⟨n, ty, status, s.epoch, s.tb.toNat, slice body 0 16⟩] } }, false, false)
  else (s.loseDesc n, true, false)

/-- The event of a descriptor lost on ring n (R369): a run of losses makes one MBX_RINGFULL. [DESIGN CHOICE, log 28] -/
def evRingFull (n : Nat) (inj : Bool) : Ev :=
  { c := E.MBX_RINGFULL, inst := n, ctxType := 6, ctx := ctxReg (0x1C4014 + 32 * n) .internal, stays := true, inj }

/-- Put a new record into the log, or count it as lost (R422). [DEDUCED, log 27] -/
def State.logRec (s : State) (r : ErrRec) : State :=
  let h := s.g F.ERR_HEAD_INDEX
  if 256 ≤ s.logCount then { (s.inc F.ERR_OVF_COUNT) with err := { s.err with lostb := true } }
  else
    let s := s.p F.ERR_HEAD_INDEX ((h + 1) % 2 ^ 32)
    { s with err := { s.err with lostb := false, log := spSet none s.err.log (h % 256) (some r) } }|>.sramClear (fun k => k.1 == 10 && (k.2 - 17024) / 4 == h % 256 && decide (17024 ≤ k.2)) |>.sramFlip 10 (sramLog (h % 256) 0)

/-- Capture a record in ERR_FIRST and ERR_BLKFIRST (R424). -/
def State.capture (s : State) (r : ErrRec) (isOpen : Bool) (idx : Option Nat) : State :=
  let s := if s.g F.ERR_STS_FIRSTV = 0 ∧ s.g F.ERR_CFG_FSEV ≤ r.sev then
      ((List.range 8).foldl (fun s i => s.p (F.ERR_FIRST_WORD i) (leAt (recBytes r isOpen) (4 * i) 4)) s).p F.ERR_STS_FIRSTV 1
    else s
  let b := blockOf r.code
  if s.g (F.ERR_BLKFIRST_VALID b) = 0 ∧ b < 18 then
    ((s.p (F.ERR_BLKFIRST_VALID b) 1).p (F.ERR_BLKFIRST_LOST b) (b2n idx.isNone)).p (F.ERR_BLKFIRST_INDEX b) (idx.getD 0)
      |>.p (F.ERR_BLKFIRST_CODE b) r.code
  else s

/-- An error event (R421): it extends the open record of its key or joins the pending handling of its detector (R426), or makes a record, with the supervisor event (R417), the captures (R424)
and the notification (R425) a new record brings. The fuel bounds the records that a lost notification makes in turn. [DESIGN CHOICE, log 125] -/
def recordN : Nat → Ev → State → State
  | 0, _, s => s
  | n + 1, e, s =>
    let key := e.c.code :: e.inst :: e.key
    match s.err.opened.find? fun o => o.key == key with
    | some o => s.extend o e.count
    | none =>
    match (s.err.joins.find? fun x => e.handles && x.1 == key).map (·.2) with
    | some i => { s with err := { s.err with log := s.extended i e.count } }
    | none =>
      let b := blockOf e.c.code
      let full := decide (256 ≤ s.logCount)
      let idx := if full then none else some (s.g F.ERR_HEAD_INDEX)
      let r : ErrRec := { ts := s.tb.toNat, epoch := s.epoch, code := e.c.code, inst := e.inst % 65536, ctxType := e.ctxType, sev := e.c.sev,
                          inj := e.inj, nested := s.err.handling.contains b, lostb := s.err.lostb, ctx := e.ctx, count := e.count, last := 0 }
      let s := (s.logRec r).inc (F.ERR_CNT_SEV_COUNT e.c.sev)
      let s := s.capture r e.stays idx
      let opened := if e.stays then ⟨key, idx, e.byGap, s.ns⟩ :: s.err.opened.take 31 else s.err.opened
      let s := { s with err := { s.err with opened, handling := if e.handles then b :: s.err.handling else s.err.handling,
                                            joins := if e.handles && r.nested then (key, idx) :: s.err.joins else s.err.joins } }
      let s := if e.c.sev = 3 then s.raise SEv.ERR_SEVERE e.c.code else s
      if s.gb F.ERR_CFG_RINGEN && decide (s.g F.ERR_CFG_NOTSEV ≤ e.c.sev) then
        let body := leBytes 2 (match idx with | some i => i | none => 0xFFFF) ++ leBytes 2 r.code ++ leBytes 2 r.inst
          ++ leBytes 1 (recB12 r) ++ leBytes 1 (recB13 r e.stays) ++ leBytes 8 r.ctx
        let (s, lost, inj) := s.tryPost (s.g F.ERR_CFG_RING) (0x40 + classOf e.c.code) 0 body
        if lost then recordN n (evRingFull (s.g F.ERR_CFG_RING) inj) s else s
      else s

/-- An error event. -/
def State.record (s : State) (e : Ev) : State := recordN 4 e s

/-- A one-shot record of a rejected or ignored register write, context REG (R419). [DESIGN CHOICE, log 28] -/
def State.recReg (s : State) (c : ECode) (a : Nat) (src : Src) : State := s.record { c, ctxType := 6, ctx := ctxReg a src }

/-- An event of a run whose key leaves the instance out (R84, R104, R116): it extends the open record of the same code and key parts, else makes one. -/
def State.recordRun (s : State) (e : Ev) : State :=
  match s.err.opened.find? fun o => o.key.head? == some e.c.code && o.key.drop 2 == e.key with
  | some o => s.extend o e.count
  | none => s.record { e with stays := true, byGap := false }

/-- Close the open records a predicate on keys picks (a rule's own end of a run, R421). -/
def State.closeRecs (s : State) (f : List Nat → Bool) : State := { s with err := { s.err with opened := s.err.opened.filter fun o => !f o.key } }

/-- Close the run of a code whose key parts, the instance apart, are given. -/
def State.closeRunOf (s : State) (c : ECode) (key : List Nat) : State := s.closeRecs fun k => k.head? == some c.code && k.drop 2 == key

/-- Post a descriptor (R369); a loss makes its record. The flag says it was lost. -/
def State.post? (s : State) (n ty status : Nat) (body : Bytes) : State × Bool :=
  let (s, lost, inj) := s.tryPost n ty status body
  (if lost then s.record (evRingFull n inj) else s, lost)

/-- Post a descriptor. -/
def State.post (s : State) (n ty status : Nat) (body : Bytes) : State := (s.post? n ty status body).1

/-! ## Device states -/

/-- Machines whose action waits for a device state see it come, or never (R401). -/
def State.waitsEnd (s : State) (d : Dev) (come : Bool) : State :=
  (List.range 16).foldl (fun s m => if (s.mach m).waits = some d then s.modMach m fun x => { x with cf := come, waits := none } else s) s

/-- Change the device state (R18), with the event that entry to it raises (R400). -/
def State.setDev (s : State) (d : Dev) : State :=
  let from' := s.dev
  let s := { s with dev := d, prev := from' }.waitsEnd d true
  match d with
  | .standby => s.raise SEv.ENTER_STANDBY (devCode from')
  | .run => s.raise SEv.ENTER_RUN (devCode from')
  | .hold => s.raise SEv.ENTER_HOLD (devCode from')
  | .fault => s.raise SEv.ENTER_FAULT (devCode from')
  | _ => s

/-- FEN output m. -/
def State.fen (s : State) (m : Nat) : Fen := spGet {} s.fir.fen m

/-- Change FEN output m. -/
def State.modFen (s : State) (m : Nat) (f : Fen → Fen) : State := { s with fir := { s.fir with fen := spMod {} s.fir.fen m f } }

/-- FEN output m goes low now: its drive ends, and where the ball was high it falls. -/
def State.fenLow (s : State) (m : Nat) : State :=
  s.modFen m fun x => { x with drive := false, high := false, stuck := false, fell := if x.high then some s.tb.toNat else x.fell }

/-- Every FEN output is forced low at once (R20, R411, R413). -/
def State.fenAllLow (s : State) : State := (List.range 32).foldl State.fenLow s

/-- Entry to FAULT (R411, R413). -/
def State.goFault (s : State) : State := (s.setDev .fault).fenAllLow

/-- Lane m. -/
def State.lane (s : State) (m : Nat) : Lane := spGet {} s.thl.lane m

/-! ## Statuses of a register access (R345) -/

/-- The outcome of a register access: the status of RESP. -/
inductive AccSt where
  | ok | unsup | access | ue | noroute | hoplim | filtered | busy
  deriving DecidableEq, Repr

/-- The status codes (R345). -/
def accCode : AccSt → Nat
  | .ok => 0 | .unsup => 1 | .access => 2 | .ue => 3 | .noroute => 4 | .hoplim => 5 | .filtered => 6 | .busy => 7

end Sys2Proof.Machine
end

