-- ==== Sys2Proof/Machine/ReedSolomon.lean ====
section
/-!
DEFINITION. The DRAM codeword (R293 to R296): arithmetic of GF(2^8) under 0x11D, the systematic Reed-Solomon code with 84 positions, its decoder,
and the poison pattern.
-/

namespace Sys2Proof.Machine

/-- Multiply by x in GF(2^8) under 0x11D (R294). -/
def gfX (a : Nat) : Nat := if 128 ≤ a then Nat.xor (2 * a) 0x11D else 2 * a

/-- Multiply in GF(2^8). -/
def gfMul (a b : Nat) : Nat :=
  ((List.range 8).foldl (fun (acc, p) i => (if bitOf b i then Nat.xor acc p else acc, gfX p)) ((0, a) : Nat × Nat)).1

/-- A power in GF(2^8). -/
def gfPow (a : Nat) : Nat → Nat
  | 0 => 1
  | n + 1 => gfMul a (gfPow a n)

/-- The powers of the root 2 of the field polynomial. -/
def gfAlpha (n : Nat) : Nat := iter gfX n 1

/-- The inverse in GF(2^8): the 254th power. -/
def gfInv (a : Nat) : Nat :=
  let a2 := gfMul a a
  let a4 := gfMul a2 a2
  let a8 := gfMul a4 a4
  let a16 := gfMul a8 a8
  let a32 := gfMul a16 a16
  let a64 := gfMul a32 a32
  let a128 := gfMul a64 a64
  gfMul a2 (gfMul a4 (gfMul a8 (gfMul a16 (gfMul a32 (gfMul a64 a128)))))

/-- A polynomial, the coefficient of x^0 first, at a point. -/
def gfEval (p : List Nat) (x : Nat) : Nat := p.foldr (fun c acc => Nat.xor c (gfMul x acc)) 0

/-- The product of a polynomial and (x - r). -/
def gfMulRoot (p : List Nat) (r : Nat) : List Nat :=
  List.zipWith Nat.xor (0 :: p) (p.map (gfMul r) ++ [0])

/-- The generator g(x) (R294), the coefficient of x^0 first, degree 16. -/
def rsGen : List Nat := (List.range 16).foldl (fun p i => gfMulRoot p (gfAlpha i)) [1]

/-- One symbol into the division by g: the remainder's 16 coefficients, x^0 first. -/
def rsStep (g : List Nat) (rem : List Nat) (c : Nat) : List Nat :=
  let top := rem.getD 15 0
  List.zipWith (fun (r : Nat) (gi : Nat) => Nat.xor r (gfMul top gi)) (c :: rem.take 15) g

/-- The remainder of a polynomial of symbols (x^0 first) by g. -/
def rsRem (syms : List Nat) : List Nat :=
  let g := rsGen
  syms.reverse.foldl (rsStep g) (List.replicate 16 0)

/-- The address symbols of a codeword: bytes 0 to 3 of A[37:6] (R294). -/
def rsAddr (cw : Nat) : List Nat := (leBytes 4 cw).map (·.toNat)

/-- The 16 check bytes of a codeword's 64 data bytes at codeword address `cw`, the address symbols XORed with `ax` (R294, R322). -/
def rsCheck (cw : Nat) (data : Bytes) (ax : List Nat) : List Nat :=
  rsRem (List.replicate 16 0 ++ data.map (·.toNat) ++ List.zipWith Nat.xor (rsAddr cw) ax)

/-- The poison pattern (R296). -/
def rsPoison : List Nat := List.replicate 16 0xA5

/-- The 16 syndromes of the 84 symbols (x^0 first). -/
def rsSyn (syms : List Nat) : List Nat := (List.range 16).map fun j => gfEval syms (gfAlpha j)

/-- The state of the Berlekamp-Massey iteration: locator, previous locator, its length, shift and last discrepancy. -/
structure BM where
  lam : List Nat
  prev : List Nat
  len : Nat
  m : Nat
  b : Nat
  deriving DecidableEq, Repr

/-- Polynomial sum, coefficients x^0 first. -/
def gfAdd : List Nat → List Nat → List Nat
  | [], q => q
  | p, [] => p
  | a :: p, b :: q => Nat.xor a b :: gfAdd p q

/-- One Berlekamp-Massey step at syndrome n. -/
def bmStep (syn : List Nat) (t : BM) (n : Nat) : BM :=
  let d := (List.range (t.len + 1)).foldl (fun acc i => Nat.xor acc (gfMul (t.lam.getD i 0) (if i ≤ n then syn.getD (n - i) 0 else 0))) 0
  if d = 0 then { t with m := t.m + 1 }
  else
    let corr := List.replicate t.m 0 ++ t.prev.map (gfMul (gfMul d (gfInv t.b)))
    let lam := gfAdd t.lam corr
    if 2 * t.len ≤ n then { lam, prev := t.lam, len := n + 1 - t.len, m := 1, b := d }
    else { t with lam, m := t.m + 1 }

/-- The errors (position and value) that explain the syndromes with at most 8 symbols in positions 0 to 83; none where none do (R295). -/
def rsLocate (syn : List Nat) : Option (List (Nat × Nat)) :=
  let t := (List.range 16).foldl (bmStep syn) { lam := [1], prev := [1], len := 0, m := 1, b := 1 }
  if 8 < t.len then none
  else
    let lam := (List.range (t.len + 1)).map fun i => t.lam.getD i 0
    let pos := (List.range 84).filter fun p => gfEval lam (gfInv (gfAlpha p)) == 0
    if pos.length ≠ t.len then none
    else
      let omega := (List.range 16).map fun k =>
        (List.range (k + 1)).foldl (fun acc i => Nat.xor acc (gfMul (lam.getD i 0) (syn.getD (k - i) 0))) 0
      let dlam := (List.range t.len).map fun i => if i % 2 = 0 then lam.getD (i + 1) 0 else 0
      let errs := pos.map fun p =>
        let xi := gfInv (gfAlpha p)
        (p, gfMul (gfAlpha p) (gfMul (gfEval omega xi) (gfInv (gfEval dlam xi))))
      let check := (List.range 16).map fun j => errs.foldl (fun acc (p, v) => Nat.xor acc (gfMul v (gfAlpha (p * j % 255)))) 0
      if check = syn ∧ errs.all (fun e => e.2 ≠ 0) then some errs else none

/-- What the decoder makes of a codeword (R295). -/
inductive Decoded where
  | clean
  | poisoned
  | corrected (errs : List (Nat × Nat))
  | addrErr
  | uncorrectable
  deriving DecidableEq, Repr

/-- Decode the 80 stored bytes (64 data, 16 check) read for codeword address `cw` (R295, R296). -/
def rsDecode (cw : Nat) (b : Bytes) : Decoded :=
  let syms := (b.drop 64).map (·.toNat) ++ (b.take 64).map (·.toNat) ++ rsAddr cw
  let syn := rsSyn syms
  if syn.all (· == 0) then .clean
  else if syn = rsSyn rsPoison then .poisoned
  else
    match rsLocate syn with
    | none => .uncorrectable
    | some errs => if errs.any fun e => decide (80 ≤ e.1) then .addrErr else .corrected errs

/-- The data bytes with the corrections applied (positions 16 to 79). -/
def rsFix (b : Bytes) (errs : List (Nat × Nat)) : Bytes :=
  errs.foldl (fun b (p, v) => if 16 ≤ p then b.set (p - 16) (BitVec.ofNat 8 (Nat.xor (byteAt b (p - 16)) v)) else b) (b.take 64)

/-- The x4 device of a symbol position (R295). -/
def rsDevice (p : Nat) : Nat := if p < 16 then 8 + p / 8 else (p - 16) / 8

end Sys2Proof.Machine
end

