-- ==== Sys2Proof/Machine/MemOps.lean ====
section
/-!
DEFINITION. Operations of the DRAM controller (R288 to R323): the address map, the stored codewords, reads with correction, repeat, poison and
quarantine, writes with injection, and subchannel retirement.
-/

namespace Sys2Proof.Machine

/-- Subchannel i. -/
def State.sc (s : State) (i : Nat) : ScSt := spGet {} s.mem.sc i

/-- Change subchannel i. -/
def State.modSc (s : State) (i : Nat) (f : ScSt → ScSt) : State := { s with mem := { s.mem with sc := spMod {} s.mem.sc i f } }

/-! ## The population and the address map -/

/-- Whether SPEED, SCN, WIDTH and DENS of a MEM_CFG word are codes the table defines (R289). -/
def cfgLegal (w : Nat) : Bool := decide (bitsOf w 23 20 ≤ 4) && bitsOf w 17 16 != 3 && decide (bitsOf w 5 4 ≤ 1) && decide (bitsOf w 2 0 ≤ 3)

/-- Populated subchannels; none for a reserved code. -/
def cfgSubs (w : Nat) : Nat := if cfgLegal w then 2 ^ bitsOf w 17 16 else 0

/-- Capacity used of each subchannel in GiB (R288, R289): ranks, data devices and density, at most 16. -/
def cfgScGiB (w : Nat) : Nat :=
  Nat.min 16 ((1 + bitsOf w 8 8) * (if bitsOf w 5 4 = 0 then 8 else 4) * (bitsOf w 2 0 + 1))

/-- Populated capacity in bytes. -/
def cfgCap (w : Nat) : Nat := cfgSubs w * cfgScGiB w * 2 ^ 30

/-- The subchannel of an address (R291). -/
def cfgScOf (w a : Nat) : Nat := a / 4096 % Nat.max 1 (cfgSubs w)

/-- Rank, bank (group and bank together) and row of an address (R291), with bank hashing. -/
def cfgCoord (w a : Nat) : Nat × Nat × Nat :=
  let x := a / 4096 / Nat.max 1 (cfgSubs w)
  let bg := x % 8
  let x := x / 8
  let nb := if bitsOf w 2 0 = 0 then 2 else 4
  let bank := x % nb
  let x := x / nb
  let x := if bitsOf w 5 4 = 0 then x / 2 else x
  let rank := if bitsOf w 8 8 = 1 then x % 2 else 0
  let row := if bitsOf w 8 8 = 1 then x / 2 else x
  let bg := if bitsOf w 12 12 = 1 then Nat.xor bg (row % 8) else bg
  let bank := if bitsOf w 12 12 = 1 then Nat.xor bank (row / 8 % nb) else bank
  (rank, bg * 4 + bank, row)

/-- A rank's bank as one number. -/
def bankKey (w a : Nat) : Nat := (cfgCoord w a).1 * 64 + (cfgCoord w a).2.1

/-- Whether an address can be reached: inside the populated capacity and in a subchannel that has been filled and is not retired (R292); none in FILL, where no other
master runs (R297). [DEDUCED, log 45] -/
def State.memOk (s : State) (a : Nat) : Bool :=
  s.dev != .fill && decide (a < cfgCap s.mem.cfg) && (let st := (s.sc (cfgScOf s.mem.cfg a)).st; st == .active || st == .training)

/-- Whether an address lies in a retired subchannel (R320). -/
def State.memRetired (s : State) (a : Nat) : Bool :=
  decide (a < cfgCap s.mem.cfg) && (s.sc (cfgScOf s.mem.cfg a)).st == .retired

/-! ## Stored codewords -/

/-- What FILL writes into codeword `cw`: data 0x00 and its check bytes (R297). [DEDUCED, log 6] -/
def fillCw (cw : Nat) : Bytes := List.replicate 64 0 ++ (rsCheck cw (List.replicate 64 0) [0, 0, 0, 0]).map (BitVec.ofNat 8)

/-- What an unlisted byte of DRAM reads as: FILL's codeword. Key 80 * codeword + byte. [DEDUCED, log 6] -/
def dramDefault (k : Nat) : Byte := (fillCw (k / 80)).getD (k % 80) 0

/-- The 80 stored bytes of a codeword. -/
def State.rawCw (s : State) (cw : Nat) : Bytes :=
  let f := fillCw cw
  (List.range 80).map fun k => spGetD (fun _ => f.getD k 0) s.dram (80 * cw + k)

/-- Store the 80 bytes of a codeword, keeping the memory's canonical form. -/
def State.setRawCw (s : State) (cw : Nat) (b : Bytes) : State :=
  let f := fillCw cw
  { s with dram := (List.range 80).foldl (fun m k => spSetD (fun _ => f.getD k 0) m (80 * cw + k) (b.getD k 0)) s.dram }

/-- The stored bytes of one memory are in canonical form: addresses strictly rising, no byte equal to what FILL left there. [DEDUCED, log 6] -/
def Memory.wf (m : List Host.Cell) : Bool := spWf dramDefault m

/-- Forget what a subchannel stored: RESTORE fills it anew (R320). -/
def State.refillSc (s : State) (i : Nat) : State :=
  { s with dram := s.dram.filter fun c => cfgScOf s.mem.cfg (c.1 / 80 * 64) != i }

/-- XOR a value into one symbol of the data and check bytes (positions 0 to 79). -/
def xorSym (b : Bytes) (p v : Nat) : Bytes :=
  let k := if p < 16 then 64 + p else p - 16
  if p < 80 then b.set k (BitVec.ofNat 8 (Nat.xor (byteAt b k) v)) else b

/-- The symbol positions of an x4 device (R293, R295). -/
def devSyms (d : Nat) : List Nat := (List.range 8).map fun j => if d < 8 then 16 + 8 * d + j else 8 * (d - 8) + j

/-- The 80 bytes stored for a codeword write with `px` XORed into the check bytes (R294, R296), an armed injection word applied (R322). -/
def encodeCw (cw : Nat) (data : Bytes) (px : List Nat) (inj : Option Nat) : Bytes :=
  let data := slice data 0 64
  let mk (ax : List Nat) : Bytes := data ++ (List.zipWith Nat.xor (rsCheck cw data ax) px).map (BitVec.ofNat 8)
  match inj with
  | none => mk [0, 0, 0, 0]
  | some w =>
    let v := bitsOf w 23 16
    let s1 := bitsOf w 6 0
    let s2 := bitsOf w 14 8
    if bitOf w 29 then (devSyms (s1 % 10)).foldl (fun b p => xorSym b p v) (mk [0, 0, 0, 0])
    else
      let ps := if s1 = s2 then [s1] else [s1, s2]
      let ax := (List.range 4).map fun i => if ps.contains (80 + i) then v else 0
      ps.foldl (fun b p => xorSym b p v) (mk ax)

/-! ## Retirement -/

/-- The requesters that a queued request answers: its own, unless that is the device itself, and those combined into it. -/
def MReq.asks (r : MReq) : List (Nat × Nat) := if r.quiet then r.more else (r.master, r.a) :: r.more

/-- A write's response to its requesters; a merged write has had its own, and a write-back has none. -/
def State.wrDone (s : State) (r : MReq) (ok : Bool) : State :=
  if r.wb || r.rmw then s else r.asks.foldl (fun s x => s.emit (.dram x.1 x.2 (if ok then some [] else none))) s

/-- Complete every queued or held request of a subchannel with an error response (R320). -/
def State.failQueues (s : State) (i : Nat) : State :=
  let q := s.sc i
  let held := s.mem.held.filter fun r => cfgScOf s.mem.cfg r.a == i
  let s := s.modSc i fun q => { q with rq := [], wq := [], tracker := [] }
  let s := { s with mem := { s.mem with held := s.mem.held.filter fun r => cfgScOf s.mem.cfg r.a != i } }
  (q.rq ++ q.wq ++ held).foldl (fun s r => s.wrDone r false) s

/-- Whether some populated subchannel is not retired. -/
def State.someSc (s : State) : Bool := (List.range (cfgSubs s.mem.cfg)).any fun i => (s.sc i).st != .retired

/-- The status registers of the controller (R297, R298, R319, R323). -/
def State.memStatus (s : State) : State :=
  let subs := List.range (cfgSubs s.mem.cfg)
  let mask (f : ScSt → Bool) : Nat := sumL (subs.map fun i => if f (s.sc i) then 2 ^ i else 0)
  let alive := subs.filter fun i => (s.sc i).st != .retired
  let all (f : ScSt → Bool) : Bool := !alive.isEmpty && alive.all fun i => f (s.sc i)
  let s := (s.p F.MEM_STS_ACTIVE (mask fun q => q.st == .active)).p F.MEM_STS_RETIRED (mask fun q => q.st == .retired)
  let s := (s.p F.MEM_STS_FILLED (b2n (all fun q => q.st == .training || q.st == .active))).p F.MEM_STS_TRAINED (b2n (all fun q => q.st == .active))
  (s.p F.MEM_STS_BYPASSED (s.g F.MEM_TEST_BYPASS)).p F.MEM_STS_CAP (cfgSubs s.mem.cfg * cfgScGiB s.mem.cfg)

/-- Whether some subchannel is ACTIVE. -/
def State.anyActive (s : State) : Bool := (List.range (cfgSubs s.mem.cfg)).any fun i => (s.sc i).st == .active

/-- Retire a subchannel (R319); the last ACTIVE one, or the last that is left at all (R298), takes the device to FAULT, from the states that R410 lists. [DEDUCED, log 45] -/
def State.retireSc (s : State) (i : Nat) : State :=
  let was := (s.sc i).st == .active
  let s := ((s.modSc i fun q => { q with st := .retired }).failQueues i).memStatus
  let s := s.record { c := E.MEM_RETIRE, inst := i, ctxType := 4, ctx := ctxDram 0 8 i 0xFF, handles := true }
  let s := s.raise SEv.MEM_RETIRED i
  let may := s.dev == .fill || s.dev == .train || s.dev == .standby || s.dev == .run || s.dev == .hold
  if may && !(s.someSc && (!was || s.anyActive)) then s.goFault else s

/-- One retry of a subchannel (R319): past THR within the window of 2^WIN ms the subchannel retires. -/
def State.scRetry (s : State) (i : Nat) : State :=
  let now := s.us
  let w := 1000 * 2 ^ s.g F.MEM_RETCFG_WIN
  let ts := now :: (s.sc i).retries.filter fun t => decide (now < t + w)
  let s := s.modSc i fun q => { q with retries := ts }
  let thr := s.g F.MEM_RETCFG_THR
  let live := let st := (s.sc i).st; st != .absent && st != .retired
  if s.gb F.MEM_CTL_RETEN ∧ thr ≠ 0 ∧ thr < ts.length ∧ live then s.retireSc i else s

/-! ## Writes -/

/-- The check bytes of MEM_TCHK0 to MEM_TCHK3 (R321). -/
def State.tchk (s : State) : Bytes := (List.range 4).flatMap fun i => leBytes 4 (s.g (F.MEM_TCHK_CHK i))

/-- An armed WCRC corrupts the write CRC of a write burst on a subchannel (R322): the alert is one retry (R318, R319). -/
def State.wcrcInj (s : State) (i : Nat) : State :=
  if (s.sc i).injCrc then ((s.modSc i fun q => { q with injCrc := false }).inc F.ERR_CNT_INJ_COUNT).inc F.MEM_CNT_WCRC_COUNT |>.scRetry i else s

/-- Issue a codeword write to DRAM (R294, R296, R321, R322). [DESIGN CHOICE, log 47; DEDUCED, log 128] -/
def State.issueCw (s : State) (cw : Nat) (data : Bytes) (px : List Nat) : State :=
  let i := cfgScOf s.mem.cfg (cw * 64)
  if s.gb F.MEM_TEST_BYPASS then ((s.modSc i fun r => { r with injCws := r.injCws.filter (· != cw) }).setRawCw cw (slice data 0 64 ++ s.tchk)).wcrcInj i
  else
    let q := s.sc i
    let s := s.setRawCw cw (encodeCw cw data px q.injArm)
    let s := if q.injArm.isSome then (s.modSc i fun q => { q with injArm := none }).inc F.ERR_CNT_INJ_COUNT else s
    (s.modSc i fun r => { r with injCws := if q.injArm.isSome then cw :: r.injCws.filter (· != cw) else r.injCws.filter (· != cw) }).wcrcInj i

/-- A write drops the write-backs that wait for its codeword, and a master's write removes the codeword from the tracker, which ends the run of its MEM_CE (R313, R314, R465). [DEDUCED, log 126] -/
def State.dropWb (s : State) (cw : Nat) (scrub : Bool) : State :=
  let i := cfgScOf s.mem.cfg (cw * 64)
  let s := if !scrub && ((s.sc i).tracker.any fun t => t.1 == cw) then s.closeRunOf E.MEM_CE [cw] else s
  let s := s.modSc i fun q =>
    { q with wq := q.wq.filter fun r => !(r.wb && r.a / 64 == cw), tracker := if scrub then q.tracker else q.tracker.filter fun t => t.1 != cw }
  { s with mem := { s.mem with held := s.mem.held.filter fun r => !(r.wb && r.a / 64 == cw) } }

/-! ## Quarantine, correction and reads -/

/-- Declare a codeword's page hard (R315, R316). [DEDUCED, log 122, 128] -/
def State.declareHard (s : State) (a i master node : Nat) (dev : Nat) (inj : Bool) : State :=
  let s := s.record { c := E.MEM_HARD, inst := if master = 4 then node else i, ctxType := 4, ctx := ctxDram a master i dev, inj, handles := true }
  let s := (s.inc F.MEM_CNT_HARD_COUNT).latch Att.MEMHARD
  let page := a / 4096 % 2 ^ 24
  let entry (n : Nat) : Bool := s.gb (F.MEM_QLIST_VALID n) && s.g (F.MEM_QLIST_PAGE n) == page
  if (List.range 64).any entry then s
  else
    match (List.range 64).find? fun n => !s.gb (F.MEM_QLIST_VALID n) with
    | some n => (s.p (F.MEM_QLIST_VALID n) 1).p (F.MEM_QLIST_PAGE n) page
    | none => (s.record { c := E.MEM_QFULL, inst := i, ctxType := 4, ctx := ctxDram a master i 0xFF, handles := true }).latch Att.MEMQFULL

/-- A write-back of master SCRUB enters the write queue at once (R465), or as soon as the queue has room (R29). It is dropped where a write to the codeword has arrived since the read,
and waits there (R313, R314). [DEDUCED, log 39] -/
def State.queueWb (s : State) (cw : Nat) (data : Bytes) (poison : Bool) : State :=
  let i := cfgScOf s.mem.cfg (cw * 64)
  let r : MReq := { master := 7, a := cw * 64, wr := true, data, mask := List.replicate 64 true, len := 64, cls := 2, node := 0,
                    seq := s.mem.seq, ns := s.ns, rmw := false, poison, wb := true }
  let s := s.modSc i fun q => { q with wq := q.wq.filter fun r => !(r.wb && r.a / 64 == cw) }
  if (s.sc i).wq.any fun w => w.a / 64 == cw then s
  else if (s.sc i).wq.length < 64 then
    let s := s.modSc i fun q => { q with wq := q.wq ++ [r] }
    { s with mem := { s.mem with seq := s.mem.seq + 1 } }
  else { s with mem := { s.mem with held := s.mem.held.filter (fun r => !(r.wb && r.a / 64 == cw)) ++ [r] } }

/-- One more corrected codeword of a subchannel's device (R314, R323). -/
def State.devCount (s : State) (i d : Nat) : State :=
  let f : FR := if d < 4 then F.MEM_SC_DEVCE0_VAL i else if d < 8 then F.MEM_SC_DEVCE1_VAL i else F.MEM_SC_DEVCE2_VAL i
  let b := 8 * (d % 4)
  let w := s.reg f.addr
  s.setReg f.addr (putBits w (b + 7) b (satN 255 (bitsOf w (b + 7) b + 1)))

/-- A device of a subchannel has one more corrected codeword: its count, and DEVTHR of them within 1 s (R314). -/
def State.devSeen (s : State) (a i inst master : Nat) (inj : Bool) (d : Nat) : State :=
  let s := s.devCount i d
  let ts : List Nat := s.us :: (spGet [] (s.sc i).devTimes d).filter fun t => decide (s.us < t + 1000000)
  let thr := s.g F.MEM_RETCFG_DEVTHR
  if thr ≠ 0 ∧ thr ≤ ts.length then
    ((s.modSc i fun q => { q with devTimes := spSet [] q.devTimes d [] }).record
      { c := E.MEM_DEVICE, inst, ctxType := 4, ctx := ctxDram a master i d, inj, handles := true }).latch Att.MEMDEV
  else s.modSc i fun q => { q with devTimes := spSet [] q.devTimes d ts }

/-- A corrected read (R314, R315): counts, the tracker, MEM_CE, the write-back or the hard error, and the per-device counts. [DEDUCED, log 122, 126] -/
def State.corrected (s : State) (a : Nat) (data : Bytes) (errs : List (Nat × Nat)) (master node : Nat) (rmw : Bool) : State :=
  let cw := a / 64
  let i := cfgScOf s.mem.cfg a
  let devs := (errs.map fun e => rsDevice e.1).eraseDups
  let dev0 := if devs.length = 1 then devs.getD 0 0xFF else 0xFF
  let inj := (s.sc i).injCws.contains cw
  let s := s.inc F.MEM_CNT_CE_COUNT
  let inst := if master = 4 then node else i
  let known : Option (Nat × Nat) := (s.sc i).tracker.find? fun t => t.1 == cw
  let s := if known.isNone then s.closeRunOf E.MEM_CE [cw] else s
  let s := s.recordRun { c := E.MEM_CE, inst, ctxType := 4, ctx := ctxDram (cw * 64) master (i + 8 * b2n rmw) dev0, key := [cw], inj, handles := true }
  let s : State := match known with
    | none =>
      let full := decide (64 ≤ (s.sc i).tracker.length)
      let old : Option (Nat × Nat) := (s.sc i).tracker.getLast?
      let s := if full then (s.inc F.MEM_CNT_TRKEVICT_COUNT).closeRecs fun k => k.head? == some E.MEM_CE.code && k.getLast? == old.map (fun (t : Nat × Nat) => t.1) else s
      s.modSc i fun q => { q with tracker := (cw, 0) :: q.tracker.take 63 }
    | some t => s.modSc i fun q => { q with tracker := t :: q.tracker.filter fun t => t.1 != cw }
  let wb : Nat := match known with | none => 0 | some t => t.2
  let s := if wb < 3 then s.queueWb cw data false else s.declareHard a i master node dev0 inj
  devs.foldl (fun s d => s.devSeen a i inst master inj d) s

/-- A repeat that decodes corrected counts as a corrected codeword, of its devices too, and makes no MEM_CE and no entry in the tracker (R313). [DEDUCED, log 122] -/
def State.countCorrected (s : State) (a i inst master : Nat) (errs : List (Nat × Nat)) : State :=
  ((errs.map fun e => rsDevice e.1).eraseDups).foldl (fun s d => s.devSeen a i inst master ((s.sc i).injCws.contains (a / 64)) d) (s.inc F.MEM_CNT_CE_COUNT)

/-- XOR symbol errors of the path (positions and values) into what a read returned. -/
def withErrs (b : Bytes) (errs : List (Nat × Nat)) : Bytes := errs.foldl (fun b e => xorSym b e.1 e.2) b

/-- Read and decode one codeword of DRAM (R295, R313, R314): `errs` are the transfer's errors at the read, `errs2` at its repeat. The answer is the
data (none: an error response) and the raw 64 bytes for a merge. `patrol` skips a poisoned codeword without a record (R317). [DEDUCED, log 122, 128] -/
def State.readCw (s : State) (a master node : Nat) (errs errs2 : List (Nat × Nat)) (rmw patrol : Bool) : Option Bytes × Bytes × State :=
  let cw := a / 64
  let i := cfgScOf s.mem.cfg a
  let inst := if master = 4 then node else i
  let inj := (s.sc i).injCws.contains cw
  let stored := s.rawCw cw
  let raw := withErrs stored errs
  if s.gb F.MEM_TEST_BYPASS then
    (some (raw.take 64), raw.take 64, (List.range 4).foldl (fun s k => s.p (F.MEM_TCHK_CHK k) (leAt raw (64 + 4 * k) 4)) s)
  else
    let poisoned (s : State) : State :=
      if patrol then s.inc F.MEM_CNT_SCRUBPZ_COUNT
      else (s.inc F.MEM_CNT_POISONRD_COUNT).record { c := E.MEM_POISONRD, inst, ctxType := 4, ctx := ctxDram a master (i + 8 * b2n rmw) 0xFF, inj }
    match rsDecode cw raw with
    | .clean => (some (raw.take 64), raw.take 64, s)
    | .poisoned => (none, raw.take 64, poisoned s)
    | .corrected es => (some (rsFix raw es), rsFix raw es, s.corrected a (rsFix raw es) es master node rmw)
    | d =>
      let raw2 := withErrs stored errs2
      match rsDecode cw raw2 with
      | .clean => (some (raw2.take 64), raw2.take 64, (s.inc F.MEM_CNT_RDRETRY_COUNT).scRetry i)
      | .corrected es => (some (rsFix raw2 es), rsFix raw2 es, ((s.inc F.MEM_CNT_RDRETRY_COUNT).scRetry i).countCorrected a i inst master es)
      | d2 =>
        let addr := d == .addrErr || d2 == .addrErr
        let s := if rmw then s.record { c := E.MEM_RMWUE, inst, ctxType := 4, ctx := ctxDram a master (i + 4 * b2n addr + 8) 0xFF, inj, handles := true }
          else s.record { c := E.MEM_UE, inst, ctxType := 4, ctx := ctxDram a master (i + 4 * b2n addr) 0xFF, inj, handles := true }
        let s := s.inc F.MEM_CNT_UE_COUNT
        let s := if rmw then s else s.queueWb cw (raw2.take 64) true
        (none, raw2.take 64, s.declareHard a i master node 0xFF inj)

/-- Overlay the masked bytes of a write on old data. -/
def overlay (old new : Bytes) (mask : List Bool) : Bytes :=
  (List.range 64).map fun k => if mask.getD k false then new.getD k 0 else old.getD k 0

/-- A write at offset `o` as a 64-byte image and its mask. -/
def imageOf (o : Nat) (b : Bytes) : Bytes × List Bool :=
  (slice (List.replicate o 0 ++ b) 0 64, (List.range 64).map fun k => decide (o ≤ k) && decide (k < o + b.length))

/-- Issue a queued write that needs no merge (R296, R306, R314, R465). -/
def State.issueReq (s : State) (r : MReq) : State :=
  let cw := r.a / 64
  let s := s.issueCw cw r.data (if r.poison then rsPoison else List.replicate 16 0)
  if r.wb && !r.poison then
    (s.modSc (cfgScOf s.mem.cfg r.a) fun q => { q with tracker := q.tracker.map fun t => if t.1 = cw then (t.1, t.2 + 1) else t }).inc F.MEM_CNT_SCRUBWB_COUNT
  else s.wrDone r true

/-- The pieces of a byte range by codeword: address, offset into the range, length. -/
def cwPieces (a n : Nat) : List (Nat × Nat × Nat) :=
  if n = 0 then []
  else (List.range ((a + n - 1) / 64 - a / 64 + 1)).map fun k =>
    let lo := Nat.max a ((a / 64 + k) * 64)
    let hi := Nat.min (a + n) ((a / 64 + k + 1) * 64)
    (lo, lo - a, hi - lo)

/-- The 64 data bytes of a codeword with every waiting write laid over them. -/
def State.viewCw (s : State) (cw : Nat) : Bytes :=
  (((s.sc (cfgScOf s.mem.cfg (cw * 64))).wq ++ s.mem.held).filter fun w => w.wr && !w.wb && w.a / 64 == cw).foldl (fun b w => overlay b w.data w.mask) ((s.rawCw cw).take 64)

end Sys2Proof.Machine
end

