-- ==== Sys2Proof/Machine/QueueOps.lean ====
section
/-!
DEFINITION. The request queues of the DRAM controller (R29, R30, R299 to R301, R304 to R311, R465): classes, order, drains, merges, refresh ahead of requests, and the
accesses of the device's own masters, which go through the same queues.
-/

namespace Sys2Proof.Machine

/-- Change the DRAM controller. -/
def State.modMem (s : State) (f : MemSt → MemSt) : State := { s with mem := f s.mem }

/-- A field of 16 bits in which 0 means 65,536. -/
def of16 (n : Nat) : Nat := if n = 0 then 65536 else n

/-! ## Classes (R304, R305) -/

/-- Base of the quire store. -/
def State.stBase (s : State) : Nat := s.g F.QRE_STBASE_HI_ADDR * 2 ^ 32 + s.g F.QRE_STBASE_LO_ADDR * 4096

/-- Released lines ahead of a context (LEAD). -/
def State.ctxLead (s : State) (c : Nat) : Nat := sumL ((s.qre.dir.filter fun q => q.ctx == c && q.st == .released).map fun q => q.count - q.taken)

/-- The context whose stored quire holds a page of DRAM. [DEDUCED, log 42] -/
def State.pageCtx (s : State) (a : Nat) : Option Nat :=
  if a < s.stBase then none else (s.qre.dir.find? fun q => q.pages.contains ((a - s.stBase) / 4096)).map (·.ctx)

/-- Codewords of a subchannel. -/
def State.scCws (s : State) : Nat := cfgScGiB s.mem.cfg * 2 ^ 24

/-- The address of codeword n of subchannel i, in ascending order (R291). -/
def State.scAddr (s : State) (i n : Nat) : Nat := (n / 64 * Nat.max 1 (cfgSubs s.mem.cfg) + i) * 4096 + n % 64 * 64

/-- Whether a subchannel's patrol lags its schedule by more than 1 % of the period (R317): PERIOD hours a round. [DEDUCED, log 44] -/
def State.patrolLags (s : State) (i : Nat) : Bool :=
  let q := s.sc i
  let p := of16 (s.g F.MEM_SCRUB_PERIOD) * 3600000000000
  decide (q.patrol * 100 * p + s.scCws * p < (s.ns - q.patrolAt) * s.scCws * 100)

/-- A request's class (R304), as things stand: a quire fetch is URGENT while its context's lead is low, a patrol read NORMAL for a pass or while it lags (R317). [DEDUCED, log 42] -/
def State.clsOf (s : State) (master a : Nat) (wr : Bool) : Nat :=
  if master = 0 then
    (match s.pageCtx a with | some c => if s.ctxLead c < s.g F.MEM_ARB_URGLN then 0 else 1 | none => 1)
  else if master = 2 then 1
  else if master = 6 then 3
  else if master = 7 ∧ !wr then (let i := cfgScOf s.mem.cfg a; if (s.sc i).passing || s.patrolLags i then 2 else 4)
  else 2

/-- The proof-tap line whose data or index entry an address lies in, as its place in the ring (R99). -/
def State.ptPlace (s : State) (a : Nat) : Nat :=
  let idx := s.g F.GTH_PTIDX_HI_ADDR * 2 ^ 32 + s.g F.GTH_PTIDX_LO_ADDR * 4096
  if idx ≤ a ∧ a < idx + 64 * s.g F.GTH_PTLINES_LINES then (a - idx) / 64 else (a - (s.g F.GTH_PTBASE_HI_ADDR * 2 ^ 32 + s.g F.GTH_PTBASE_LO_ADDR * 4096)) / 49152

/-- Whether more than 8 lines of proof-tap writes wait before the queues (R304). [DEDUCED, log 42] -/
def State.ptDeep (s : State) : Bool := decide (8 < (((s.mem.held.filter fun r => r.wr && r.master == 2).map fun r => s.ptPlace r.a).eraseDups).length)

/-- The class a request is served at (R304, R305): proof-tap writes, with the reads of their merges, are URGENT behind a deep FIFO, and NORMAL and below age into RT. -/
def State.effCls (s : State) (r : MReq) : Nat :=
  let c := if r.master = 2 ∧ (r.wr ∨ r.rmw) ∧ s.ptDeep then 0 else if (r.master = 0 ∨ r.master = 7) ∧ !r.wr ∧ !r.rmw then s.clsOf r.master r.a false else r.cls
  if 2 ≤ c ∧ s.g F.MEM_ARB_AGE * 1000 < s.ns - r.ns then 1 else c

/-! ## What enters the queues (R29, R306, R308, R309, R311) -/

/-- A write of part or all of one codeword enters the write queue (R311, R313, R314): write-backs of the codeword drop; it is combined with a queued write whose merge
has not begun and that no read waits behind, or it is queued, a partial one with its merge read, which carries the class of its write. [DEDUCED, log 39] -/
def State.writeEnter (s : State) (i : Nat) (r : MReq) : State :=
  let cw := r.a / 64
  let s := s.dropWb cw (r.master == 7)
  let r := { r with seq := s.mem.seq }
  let old := ((s.sc i).wq.filter fun w => w.a / 64 == cw).getLast?
  let joins : Bool := match old with
    | some w => !w.rmw && !((s.sc i).rq.any fun x => x.a / 64 == cw && !x.rmw && decide (w.seq < x.seq))
    | none => false
  match old, joins with
  | some w, true =>
    let mask := List.zipWith (fun a b => a || b) w.mask r.mask
    let cls := Nat.min w.cls r.cls
    s.modSc i fun q => { q with
      wq := q.wq.map fun x => if x.seq = w.seq then { w with data := overlay w.data r.data r.mask, mask, cls, more := w.more ++ r.asks } else x
      rq := if mask.all id then q.rq.filter fun x => !(x.rmw && x.seq == w.seq) else q.rq.map fun x => if x.rmw && x.seq == w.seq then { x with cls } else x }
  | _, _ =>
    let s := s.modSc i fun q => { q with wq := q.wq ++ [r] }
    let s := if r.mask.all id then s else s.modSc i fun q => { q with rq := q.rq ++ [{ r with wr := false, rmw := true }] }
    { s with mem := { s.mem with seq := s.mem.seq + 1 } }

/-- Put a read into a subchannel's queue. -/
def State.putRead (s : State) (i : Nat) (r : MReq) : State :=
  (s.modSc i fun q => { q with rq := q.rq ++ [{ r with seq := s.mem.seq }] }).modMem fun x => { x with seq := x.seq + 1 }

/-- In row-match mode a read that matches a queued write's rank, bank and row puts the bank in order up to its own place (R308). [DEDUCED, log 46] -/
def State.orderBank (s : State) (i a : Nat) : State :=
  if s.mem.ordMode = 0 ∧ ((s.sc i).wq.any fun w => cfgCoord s.mem.cfg w.a == cfgCoord s.mem.cfg a) then
    s.modSc i fun q => { q with ordered := spSet 0 q.ordered (bankKey s.mem.cfg a) (s.mem.seq + 1) }
  else s

/-- The queued write of a codeword whose data answers a read (R309, R465): the latest, where it covers the codeword, needs no merge and is no poison write-back; none in bypass
mode, where each read returns what is stored (R321). [DEDUCED, log 46] -/
def State.fwdWrite (s : State) (i cw : Nat) : Option MReq :=
  match ((s.sc i).wq.filter fun w => w.a / 64 == cw).getLast? with
  | some w => if s.mem.ordMode = 1 ∧ w.mask.all id ∧ !w.rmw ∧ !w.poison ∧ !s.gb F.MEM_TEST_BYPASS then some w else none
  | none => none

/-- A read of part of one codeword: answered from the write queue with the data returned, or queued (R309). [DEDUCED, log 46] -/
def State.readEnter (s : State) (i : Nat) (r : MReq) : Option Bytes × State :=
  match s.fwdWrite i (r.a / 64) with
  | some w => (some (slice w.data (r.a % 64) r.len), s.inc F.MEM_CNT_FWD_COUNT)
  | none => (none, (s.orderBank i r.a).putRead i r)

/-- A read's answer to its master; one of the device's own takes it within the command. -/
def State.answer1 (s : State) (r : MReq) (d : Option Bytes) : State := if r.quiet then s else s.emit (.dram r.master r.a d)

/-- A read enters, and is answered at once where the write queue has its data. -/
def State.takeRead (s : State) (i : Nat) (r : MReq) : State :=
  match s.readEnter i r with
  | (some d, s) => s.answer1 r (some d)
  | (none, s) => s

/-- Whether a subchannel's queues have room for a request (R29): 64 reads and 64 writes, a partial write taking one of each. -/
def State.hasRoom (s : State) (i : Nat) (r : MReq) : Bool :=
  if r.wr then decide ((s.sc i).wq.length < 64) && (r.mask.all id || decide ((s.sc i).rq.length < 64)) else decide ((s.sc i).rq.length < 64)

/-- Whether a request of its kind is already held for a subchannel. -/
def State.queued (s : State) (i : Nat) (r : MReq) : Bool := s.mem.held.any fun h => cfgScOf s.mem.cfg h.a == i && h.wr == r.wr

/-- A master holds a request until the queue has room (R29). [DEDUCED, log 39] -/
def State.holdReq (s : State) (r : MReq) : State := { s with mem := { s.mem with held := s.mem.held ++ [r] } }

/-- A write meets its subchannel's queue. -/
def State.takeWrite (s : State) (i : Nat) (r : MReq) : State := if s.hasRoom i r && !s.queued i r then s.writeEnter i r else s.holdReq r

/-- Requests held for a subchannel enter its queues as they have room, in order, reads and writes each for themselves (R29). [DEDUCED, log 39] -/
def State.enterHeld (s : State) (i : Nat) : State :=
  ((s.mem.held.filter fun r => cfgScOf s.mem.cfg r.a == i).foldl (fun (x : State × Bool × Bool) r =>
    let (s, rd, wr) := x
    if (if r.wr then wr else rd) || !s.hasRoom i r then (s, rd || !r.wr, wr || r.wr)
    else
      let s := s.modMem fun y => { y with held := y.held.erase r }
      (if r.wr then s.writeEnter i r else s.takeRead i r, rd, wr)) (s, false, false)).1

/-! ## What may be served (R299 to R301, R305 to R309) -/

/-- Whether an URGENT request is queued for a rank; any rank where none is given. [DEDUCED, log 43] -/
def State.urgent (s : State) (i : Nat) (rank : Option Nat) : Bool :=
  ((s.sc i).rq ++ (s.sc i).wq).any fun r => s.effCls r == 0 && (match rank with | some k => (cfgCoord s.mem.cfg r.a).1 == k | none => true)

/-- Owed refreshes of a rank. -/
def State.owed (s : State) (i k : Nat) : Nat := (s.sc i).owed.getD k 0

/-- Whether a subchannel refreshes: it is initialised and not retired. -/
def State.scLive (s : State) (i : Nat) : Bool := let st := (s.sc i).st; st == .filling || st == .training || st == .active

/-- A rank is precharged: none of its rows is open (R300, R301). -/
def ScSt.precharge (q : ScSt) (k : Nat) : ScSt := { q with openRow := q.openRow.filter fun x => x.1 / 64 != k }

/-- Whether a rank's owed REFab goes ahead of every request: no URGENT one is queued for the rank (R300). -/
def State.refDue (s : State) (i k : Nat) : Bool := s.scLive i && decide (0 < s.owed i k) && !s.urgent i (some k)

/-- Whether a request waits for a refresh of its rank (R300). -/
def State.refFirst (s : State) (i : Nat) (r : MReq) : Bool := s.refDue i (cfgCoord s.mem.cfg r.a).1

/-- The rank is precharged and an owed REFab issues, while no URGENT request is queued for the rank (R300). -/
def State.refIssue (s : State) (i k : Nat) : State :=
  if s.refDue i k then s.modSc i fun q => { q.precharge k with owed := q.owed.set k (q.owed.getD k 0 - 1) } else s

/-- Whether a bank in order holds a request back (R308): writes that were queued for the bank when the matching read arrived still wait, and so does an earlier
request to the bank. -/
def State.bankHolds (s : State) (i : Nat) (r : MReq) : Bool :=
  let q := s.sc i
  let b := bankKey s.mem.cfg r.a
  let upTo := spGet 0 q.ordered b
  (q.wq.any fun w => decide (w.seq < upTo) && bankKey s.mem.cfg w.a == b)
    && ((q.rq ++ q.wq).any fun x => decide (x.seq < r.seq) && bankKey s.mem.cfg x.a == b)

/-- Whether a read may issue now (R307 to R309): no earlier write of its codeword waits, and its bank does not hold it back. The read of a
read-modify-write carries its write's place in the order. The patrol is suspended in bypass mode (R321). -/
def State.readMayGo (s : State) (i : Nat) (r : MReq) : Bool :=
  !((s.sc i).wq.any fun x => decide (x.seq < r.seq) && x.a / 64 == r.a / 64) && !s.bankHolds i r && !(r.master == 7 && s.gb F.MEM_TEST_BYPASS)

/-- Whether a write may issue now: merged or full, no earlier read of its codeword, the oldest write of its codeword (R307, R311), and not held back by its bank. -/
def State.writeMayGo (s : State) (i : Nat) (r : MReq) : Bool :=
  r.mask.all id && !((s.sc i).rq.any fun x => decide (x.seq < r.seq) && x.a / 64 == r.a / 64)
    && !((s.sc i).wq.any fun x => decide (x.seq < r.seq) && x.a / 64 == r.a / 64) && !s.bankHolds i r

/-- The reads that may issue now. [DEDUCED, log 40] -/
def State.readsNow (s : State) (i : Nat) : List MReq := (s.sc i).rq.filter fun r => s.readMayGo i r && !s.refFirst i r

/-- The writes that may issue now. -/
def State.writesNow (s : State) (i : Nat) : List MReq := (s.sc i).wq.filter fun r => s.writeMayGo i r && !s.refFirst i r

/-- Pick by class, then row hits (at most 16 in a row), then age (R305). -/
def State.pick (s : State) (i : Nat) (rs : List MReq) : Option MReq :=
  let best := minD 9 (rs.map s.effCls)
  let rs := rs.filter fun r => s.effCls r == best
  let hit (r : MReq) : Bool :=
    let (rk, bk, row) := cfgCoord s.mem.cfg r.a
    spGet 0 (s.sc i).openRow (rk * 64 + bk) == row + 1
  match if (s.sc i).hits < 16 then rs.find? hit else none with
  | some r => some r
  | none => rs.head?

/-- The drain flags (R306): a drain starts at WHI entries or with no read queued and ends at WLO; a full queue drains to 56. A read that must itself wait for
a queued write (R307 to R309) does not hold the drain off, or neither could ever issue; one that waits for a refresh does. [DEDUCED, log 40] -/
def State.drainUpdate (s : State) (i : Nat) : State :=
  let none := !((s.sc i).rq.any fun r => s.readMayGo i r)
  s.modSc i fun q =>
    let n := q.wq.length
    let d := (q.drain && decide (s.g F.MEM_ARB_WLO < n)) || decide (s.g F.MEM_ARB_WHI ≤ n) || (none && decide (0 < n))
    { q with drain := d, full := (q.full && decide (56 < n)) || decide (64 ≤ n) }

/-- Whether a read goes before the writes: outside a drain, or URGENT in one that is not of a full queue, or where no write may go. -/
def State.readFirst (s : State) (i : Nat) (r : MReq) : Bool :=
  let q := s.sc i
  (s.writesNow i).isEmpty || (!q.full && (!q.drain || s.effCls r == 0))

/-- The read that is served next, if a read is. -/
def State.nextRead (s : State) (i : Nat) : Option MReq := (s.pick i (s.readsNow i)).filter fun r => s.readFirst i r

/-- The write that is served next, if a write is. -/
def State.nextWrite (s : State) (i : Nat) : Option MReq :=
  if ((s.sc i).drain || (s.sc i).full) && (s.nextRead i).isNone then s.pick i (s.writesNow i) else none

/-! ## Service (R305 to R314, R465) -/

/-- A request is served: its bank's row is open now. -/
def State.served (s : State) (i : Nat) (r : MReq) : State :=
  let (rk, bk, row) := cfgCoord s.mem.cfg r.a
  let k := rk * 64 + bk
  s.modSc i fun q => { q with openRow := spSet 0 q.openRow k (row + 1), hits := if spGet 0 q.openRow k = row + 1 then q.hits + 1 else 0 }

/-- The merge of a queued partial write (R311, R312): its read, then the whole codeword waits in its place. The answer says whether the read was good; every
requester has it as the response. [DEDUCED, log 126] -/
def State.merged (s : State) (i : Nat) (r : MReq) (errs errs2 : List (Nat × Nat)) : Bool × State :=
  let (d, raw, s) := s.readCw (r.a / 64 * 64) r.master r.node errs errs2 true false
  let s := (s.inc F.MEM_CNT_RMW_COUNT).dropWb (r.a / 64) false
  let old := d.getD raw
  let s := match (s.sc i).wq.find? fun x => x.seq == r.seq && !x.wb with
    | some w => s.wrDone w d.isSome
    | none => s
  (d.isSome, s.modSc i fun q => { q with
    rq := q.rq.filter fun x => !(x.rmw && x.seq == r.seq)
    wq := q.wq.map fun x => if x.seq = r.seq ∧ !x.wb then { x with data := overlay old x.data x.mask, mask := List.replicate 64 true, rmw := true, poison := d.isNone } else x })

/-- A queued read is served (R295, R312 to R314): its data, empty for the read of a merge, or none for an error response. -/
def State.serveRead (s : State) (i : Nat) (r : MReq) (errs errs2 : List (Nat × Nat)) : Option Bytes × State :=
  let s := (s.modSc i fun q => { q with rq := q.rq.filter fun x => x.seq != r.seq }).served i r
  if r.rmw then
    let (ok, s) := s.merged i r errs errs2
    (if ok then some [] else none, s.enterHeld i)
  else
    let (d, _, s) := s.readCw r.a r.master r.node errs errs2 false (r.master == 7)
    let d := d.map fun d => slice d (r.a % 64) r.len
    (d, (s.answer1 r d).enterHeld i)

/-- A queued write issues (R306). -/
def State.serveWrite (s : State) (i : Nat) (r : MReq) : State :=
  let s := (s.modSc i fun q => { q with wq := q.wq.filter fun x => !(x.seq == r.seq && x.wb == r.wb) }).served i r
  (s.issueReq r).enterHeld i

/-- What a subchannel does next (R300, R305, R306): a read is served, a write issues, or owed refreshes go first. The answer is the arrival number of a read served, with its data. [DESIGN CHOICE, log 115] -/
def State.serveNext (s : State) (i : Nat) : Option (Nat × Option Bytes) × State :=
  let s := s.drainUpdate i
  match s.nextRead i with
  | some r => let (d, s) := s.serveRead i r [] []; (some (r.seq, d), s)
  | none =>
    match s.nextWrite i with
    | some w => (none, s.serveWrite i w)
    | none => (none, (s.refIssue i 0).refIssue i 1)

/-! ## The device's own masters (R29, R304 to R312)

An access of one of the device's own masters ends within the command that makes it: its request enters the queues like any other, and the subchannel serves what goes before it. -/

/-- Enough steps for everything that waits for a subchannel, its refreshes and the write-backs that reads bring. -/
def State.serveMax (s : State) (i : Nat) : Nat := 4 * ((s.sc i).rq.length + (s.sc i).wq.length + s.mem.held.length) + 16

/-- The subchannel serves until a request may enter: the queues have room, nothing of its kind is held before it, nor a write of its codeword. [DESIGN CHOICE, log 115] -/
def State.awaitRoom : Nat → Nat → MReq → State → State
  | 0, _, _, s => s
  | n + 1, i, r, s =>
    if s.hasRoom i r && !s.queued i r && !(s.mem.held.any fun h => h.wr && h.a / 64 == r.a / 64) then s else State.awaitRoom n i r (s.serveNext i).2

/-- The subchannel serves until the read, or the merge read, of arrival number `q` has its answer; none: an error response. [DESIGN CHOICE, log 115] -/
def State.awaitRead : Nat → Nat → Nat → State → Option Bytes × State
  | 0, _, _, s => (none, s)
  | n + 1, i, q, s =>
    match s.serveNext i with
    | (some (k, d), s) => if k = q then (d, s) else State.awaitRead n i q s
    | (none, s) => State.awaitRead n i q s

/-- A request of one of the device's own masters for part of one codeword. -/
def State.ownReq (s : State) (master node x l : Nat) (wr : Bool) (data : Bytes) (mask : List Bool) : MReq :=
  { master, a := x, wr, data, mask, len := l, cls := s.clsOf master x wr, node, seq := s.mem.seq, ns := s.ns, rmw := false, poison := false, wb := false, quiet := true }

/-- One piece of a read by one of the device's own masters. -/
def State.readPiece (s : State) (x l master node : Nat) : Option Bytes × State :=
  let i := cfgScOf s.mem.cfg x
  if !s.memOk x then (none, if s.memRetired x then s.inc F.MEM_CNT_RETRD_COUNT else s)
  else
    let r := s.ownReq master node x l false [] []
    let s := State.awaitRoom (s.serveMax i) i r s
    let q := s.mem.seq
    match s.readEnter i r with
    | (some d, s) => (some d, s)
    | (none, s) => State.awaitRead (s.serveMax i) i q s

/-- Read `n` bytes for one of the device's own masters, within the command; none: an error response. [DESIGN CHOICE, log 115] -/
def State.dramRead (s : State) (a n master node : Nat) : Option Bytes × State :=
  (cwPieces a n).foldl (fun (acc, s) (x, _, l) =>
    let (d, s) := s.readPiece x l master node
    ((match acc, d with | some p, some d => some (p ++ d) | _, _ => none), s)) (some [], s)

/-- One piece of a write of one of the device's own masters; false: an error response. A partial write has its response once its merge read is served (R311, R312). -/
def State.writePiece (s : State) (x : Nat) (b : Bytes) (master node : Nat) : Bool × State :=
  let i := cfgScOf s.mem.cfg x
  let (img, mask) := imageOf (x % 64) b
  let r := s.ownReq master node x b.length true img mask
  if !s.memOk x then (false, if s.memRetired x then s.inc F.MEM_CNT_RETRD_COUNT else s)
  else if mask.all id then (true, s.takeWrite i r)
  else if s.gb F.MEM_TEST_BYPASS then (false, s)
  else
    let s := (State.awaitRoom (s.serveMax i) i r s).writeEnter i r
    match ((s.sc i).wq.filter fun w => w.a / 64 == x / 64).getLast? with
    | some w =>
      if w.mask.all id then (true, s)
      else
        let (d, s) := State.awaitRead (s.serveMax i) i w.seq s
        (d.isSome, s)
    | none => (true, s)

/-- Write bytes for one of the device's own masters: they wait in the write queues (R306); false: some part got an error response. [DESIGN CHOICE, log 115] -/
def State.dramWrite (s : State) (a : Nat) (b : Bytes) (master node : Nat) : Bool × State :=
  (cwPieces a b.length).foldl (fun (ok, s) (x, o, l) =>
    let (k, s) := s.writePiece x (slice b o l) master node
    (ok && k, s)) (true, s)

end Sys2Proof.Machine
end

