-- ==== Sys2Proof/Machine/SpineOps.lean ====
section
/-!
DEFINITION. Operations of the Spine ports and the switch (R324 to R357): frames and their CRCs, credits and the replay buffer, routing,
management filtering, recovery and retirement.
-/

namespace Sys2Proof.Machine

/-- Port p. -/
def State.port (s : State) (p : Nat) : Port := spGet {} s.spn.ports p

/-- Change port p. -/
def State.modPort (s : State) (p : Nat) (f : Port → Port) : State :=
  { s with spn := { s.spn with ports := spMod {} s.spn.ports p f } }

/-- A stage's code (R332). [DEDUCED, log 83] -/
def stageCode : PStage → Nat
  | .disabled => 0 | .detect => 1 | .train => 2 | .align => 3 | .config => 4
  | .active => 5 | .recover => 6 | .test => 7 | .retired => 8

/-- Whether this device is a folio member (R266). -/
def State.member (s : State) : Bool := s.gb F.FOL_CTL_EN

/-- The device's own node address. -/
def State.ownNode (s : State) : Nat := bitsOf (s.reg 0x181004) 15 0

/-- Whether the own address is assigned. -/
def State.nodeValid (s : State) : Bool := s.gb F.SPN_NODE_VALID

/-! ## Frames -/

/-- The first 14 header bytes of a frame with its link sequence (R328). -/
def frameHead (f : Frame) (seq : Nat) : Bytes :=
  leBytes 2 f.dst ++ leBytes 2 f.src ++ leBytes 1 (f.vl % 4 + 4 * b2n f.dr + 8 * b2n f.ll + 16 * b2n f.soq) ++ leBytes 1 f.hop
    ++ leBytes 1 f.ty ++ leBytes 1 f.status ++ leBytes 2 f.payload.length ++ leBytes 2 (f.tag % 1024 + f.gen % 4 * 1024) ++ leBytes 2 (seq % 4096)

/-- The header CRC (R329). -/
def hdrCrc (b : Bytes) : Nat := crcN 16 0x1021 0xFFFF b

/-- The CRC-8 of a control block (R163). [DEDUCED, log 97] -/
def crc8 (b : Bytes) : Nat := crcN 8 0x07 0 b

/-- A frame's bytes on a link (R328, R329): `hx` and `fx` are XORed into the header CRC and the frame CRC. -/
def frameBytes (f : Frame) (seq hx fx : Nat) : Bytes :=
  let h := frameHead f seq
  let h := h ++ leBytes 2 (Nat.xor (hdrCrc h) hx)
  let b := h ++ f.payload
  b ++ leBytes 4 (Nat.xor (crc32c b) fx)

/-- What arrives on a link, read: the frame, its sequence, and whether the header CRC and the frame CRC pass. -/
structure Parsed where
  frame : Frame
  seq : Nat
  hdrOk : Bool
  crcOk : Bool
  crcXor : Nat
  deriving DecidableEq, Repr

/-- Read a frame's bytes (R328). -/
def parseFrame (b : Bytes) : Parsed :=
  let fl := byteAt b 4
  let l := leAt b 8 2
  let body := b.take (16 + l)
  { frame := { dst := leAt b 0 2, src := leAt b 2 2, vl := fl % 4, dr := bitOf fl 2, ll := bitOf fl 3, soq := bitOf fl 4, hop := byteAt b 5,
               ty := byteAt b 6, status := byteAt b 7, tag := leAt b 10 2 % 1024, gen := bitsOf (leAt b 10 2) 11 10,
               payload := slice b 16 l },
    seq := leAt b 12 2 % 4096,
    hdrOk := decide (20 ≤ b.length) && hdrCrc (b.take 14) == leAt b 14 2,
    crcOk := decide (b.length = 20 + l) && decide (l ≤ 1024) && crc32c body == leAt b (16 + l) 4,
    crcXor := Nat.xor (crc32c body) (leAt b (16 + l) 4) }

/-- Credits a frame takes (R336). -/
def creditsOf (f : Frame) : Nat := cdiv (f.payload.length + 20) 64

/-- The VL each frame type travels on (R330): none for an unlisted type; 1 or 3 for the transaction types. -/
def vlFits (f : Frame) : Bool :=
  if f.ty = FT.RD_REQ ∨ f.ty = FT.WR_REQ ∨ f.ty = FT.WR_POST ∨ f.ty = FT.RESP then f.vl == 1 || f.vl == 3
  else if f.ty = FT.QD then f.vl == 2
  else if 0x20 ≤ f.ty ∧ f.ty ≤ 0x23 then f.vl == 0
  else if f.ty = FT.NOTIFY ∨ (0x30 ≤ f.ty ∧ f.ty ≤ 0x35) ∨ f.ty = FT.DISC ∨ f.ty = FT.DISC_RESP ∨ f.ty = FT.ATTEST_REQ ∨ f.ty = FT.ATTEST_RESP then f.vl == 1
  else false

/-- A non-posted request (R330). -/
def isNonPosted (f : Frame) : Bool := f.ty == FT.RD_REQ || f.ty == FT.WR_REQ || f.ty == FT.ATTEST_REQ

/-- The address of a transaction: after the route prefix of a DR frame (R341, R344). -/
def txnBody (f : Frame) : Bytes := if f.dr then f.payload.drop 8 else f.payload

/-- Management traffic (R351). A RESP on VL1 counts as the response to a management request. [DEDUCED, log 94] -/
def isMgmt (f : Frame) : Bool :=
  f.dr || f.ll || f.ty == FT.DISC || f.ty == FT.DISC_RESP || f.ty == FT.ATTEST_REQ || f.ty == FT.ATTEST_RESP
    || (decide (0x20 ≤ f.ty) && decide (f.ty ≤ 0x23))
    || ((f.ty == FT.RD_REQ || f.ty == FT.WR_REQ || f.ty == FT.WR_POST) && f.vl == 1
        && (let a := leAt (txnBody f) 0 8; decide (a ≤ 0x1FFFF) || (decide (0x180000 ≤ a) && decide (a ≤ 0x1BFFFF))))
    || (f.ty == FT.RESP && f.vl == 1)

/-- The frames that a folio member's port P3 carries (R267). -/
def folioAdmits (f : Frame) : Bool :=
  (decide (0x30 ≤ f.ty) && decide (f.ty ≤ 0x35)) || (decide (0x20 ≤ f.ty) && decide (f.ty ≤ 0x23))

/-- Whether port p refuses this frame as filtered (R351). -/
def State.portFilters (s : State) (p : Nat) (f : Frame) : Bool :=
  decide (p < 4) && ((((s.port p).mgmtOnly || s.gb (F.SPN_PCTL_MGMT p)) && !isMgmt f) || (s.member && p == 3 && !folioAdmits f))

/-! ## Blocks (R324 to R327) -/

/-- A link-control block (R326). -/
def spnBlock (ty : Nat) (body : Bytes) : Bytes :=
  let b := leBytes 1 ty ++ slice body 0 6
  b ++ leBytes 1 (crc8 b)

/-- The lanes in use, ascending: logical lane i is the i-th of them (R324). -/
def logicalLanes (q : Port) : List Nat := (List.range 4).filter (bitOf q.lanesAct)

/-- The physical lane of a logical one. -/
def laneAt (ls : List Nat) (i : Nat) : Nat := ls.getD i 0

/-- IDLE blocks on the lanes from a logical one up to the last, so that logical lane 0 is next (R325). -/
def idleFill (ls : List Nat) (next : Nat) : List Blk :=
  if next = 0 then [] else (List.range (ls.length - next)).map fun i => ⟨laneAt ls (next + i), true, spnBlock 0x1E []⟩

/-- Data blocks a frame of n bytes takes after its SF block (R325). -/
def dataBlocks (n : Nat) : Nat := cdiv (n - 7) 8

/-- A frame's blocks from logical lane `next` on (R325): the IDLE fill, the SF block on logical lane 0 with frame bytes 0 to 6, then 8 bytes a data block on logical lanes 1, 2, 3, 0
and so on, the last padded with zeros. -/
def frameBlocks (ls : List Nat) (next : Nat) (b : Bytes) : List Blk :=
  idleFill ls next ++ ⟨laneAt ls 0, true, leBytes 1 0x78 ++ slice b 0 7⟩
    :: (List.range (dataBlocks b.length)).map fun i => ⟨laneAt ls ((1 + i) % ls.length), false, slice b (7 + 8 * i) 8⟩

/-- The 8-bit interleaved parity of a block: the XOR of its bytes. [DESIGN CHOICE, log 87] -/
def bip8 (b : Bytes) : Nat := b.foldl (fun v x => Nat.xor v x.toNat) 0

/-- A block has gone out on its lane: the parity and the count since the last AM take it in (R327). -/
def Port.noteBlk (q : Port) (x : Blk) : Port := { q with bip := spMod 0 q.bip x.lane (Nat.xor · (bip8 x.b)), sent := spMod 0 q.sent x.lane (· + 1) }

/-- Send a frame's bytes on port p. -/
def State.sendBlocks (s : State) (p : Nat) (b : Bytes) : State :=
  let ls := logicalLanes (s.port p)
  let bs := frameBlocks ls (s.port p).txLane b
  (s.modPort p fun q => { bs.foldl Port.noteBlk q with txLane := (1 + dataBlocks b.length) % ls.length }).emit (.spine p bs)

/-- Send a link-control block on the logical lane that is next (R326). -/
def State.sendCtl (s : State) (p ty : Nat) (body : Bytes) : State :=
  let ls := logicalLanes (s.port p)
  let l := laneAt ls (s.port p).txLane
  let b := spnBlock ty body
  (s.modPort p fun q => { q.noteBlk ⟨l, true, b⟩ with txLane := (q.txLane + 1) % ls.length }).emit (.spineCtl p l ty b)

/-! ## Credits (R336, R346) -/

/-- Send a VL's cumulative credit count in a CREDIT block, where the port is ACTIVE. -/
def State.sendCredit (s : State) (p v : Nat) : State :=
  if (s.port p).stage = .active then s.sendCtl p 0x66 (leBytes 1 v ++ leBytes 2 ((s.port p).freed.getD v 0)) else s

/-- Return n credits of VL v at port p (R336). [DEDUCED, log 95] -/
def State.giveCredit (s : State) (p v n : Nat) : State :=
  (s.modPort p fun q => { q with freed := q.freed.set v ((q.freed.getD v 0 + n) % 2 ^ 16) }).sendCredit p v

/-- Whether the endpoint holds its 256 incoming non-posted requests, an attestation in execution among them (R346, R379). [DEDUCED, log 92] -/
def State.endFull (s : State) : Bool := decide (256 ≤ (s.spn.inbox.countP fun x => isNonPosted x.2) + b2n s.spn.attest.isSome)

/-- Return the credits of a frame that leaves port p's receive buffer (R336); those of VL1 and VL3 are withheld while the endpoint is at its bound (R346). -/
def State.freeCredit (s : State) (p : Nat) (f : Frame) : State :=
  let v := f.vl % 4
  if 4 ≤ p then s
  else if s.endFull && v % 2 == 1 then s.modPort p fun q => { q with withheld := q.withheld.set v (q.withheld.getD v 0 + creditsOf f) }
  else s.giveCredit p v (creditsOf f)

/-! ## Transmission -/

/-- Quantum of a VL in bytes (R337). -/
def State.quantum (s : State) (vl : Nat) : Nat :=
  let w := if vl = 1 then s.g F.SPN_ARB_W1 else if vl = 2 then s.g F.SPN_ARB_W2 else s.g F.SPN_ARB_W3
  1024 * (if w = 0 then 256 else w)

/-- Bytes the replay buffer of a port holds (R334). -/
def replayBytes (q : Port) : Nat := sumL (q.replay.map fun k => 20 + k.w.frame.payload.length)

/-- Credits held at the egress for a VL (R336). -/
def credHeld (q : Port) (vl : Nat) : Nat := (q.granted.getD vl 0 + 2 ^ 16 - q.used.getD vl 0) % 2 ^ 16

/-- Whether a port can send a frame now: ACTIVE, all its credits held, and room in the replay buffer (R334, R336). -/
def canSend (q : Port) (f : Frame) : Bool :=
  q.stage == .active && decide (creditsOf f ≤ credHeld q (f.vl % 4)) && decide (replayBytes q + 20 + f.payload.length ≤ 16384)

/-- A frame whose 8 payload bytes at an offset move by a time. -/
def frameAddTime (f : Frame) (o : Nat) (d : Int) : Frame :=
  { f with payload := f.payload.take o ++ leBytes 8 (toBits 64 ((leAt f.payload o 8 : Int) + d)) ++ f.payload.drop (o + 8) }

/-- A Headband frame as it leaves `late` after it was queued: its transmit time is written on the fly, and a forwarded HB_SYNC's residence grows (R148, R150). [DEDUCED, log 63] -/
def frameTimed (f : Frame) (own : Nat) (late : Int) : Frame :=
  let o := if f.dr then 8 else 0
  if late = 0 then f
  else if f.ty = FT.HB_SYNC then frameAddTime f (if f.src = own ∧ byteAt f.payload (o + 20) = 0 then o else o + 8) late
  else if f.ty = FT.HB_PDREQ then frameAddTime f o late
  else if f.ty = FT.HB_PDRESP then frameAddTime f (o + 8) late
  else f

/-- The transmit time of an HB_PDREQ is kept for its response (R149). -/
def State.notePd (s : State) (p : Nat) (f : Frame) : State :=
  if f.ty = FT.HB_PDREQ then
    { s with tmb := { s.tmb with pd := spMod none s.tmb.pd p fun r => r.map fun x => if x.seq = leAt f.payload 22 2 then { x with t1 := s.now } else x } }
  else s

/-- Put a frame of port p's replay buffer on the link, sent or replayed: a pending injection inverts bit 0 of its CRCs (R356), and a stomped frame's CRC is inverted (R335). -/
def State.putFrame (s : State) (p seq : Nat) (w : Waiting) (stomped : Bool) : State :=
  let i := (s.port p).inj
  let fx := Nat.xor (if stomped then 0xFFFFFFFF else 0) (b2n i.fcrc)
  let s := if i.hcrc || i.fcrc then (s.modPort p fun q => { q with inj := { q.inj with hcrc := false, fcrc := false }, injd := true }).inc F.ERR_CNT_INJ_COUNT else s
  (s.notePd p w.frame).sendBlocks p (frameBytes (frameTimed w.frame s.ownNode (tdiff s.now w.since)) seq (b2n i.hcrc) fx)

/-- Send a frame on a port: sequence, replay buffer, credits (R333, R334, R336). -/
def State.txFrame (s : State) (p : Nat) (w : Waiting) (stomped : Bool) : State :=
  let q := s.port p
  let v := w.frame.vl % 4
  let s := s.modPort p fun q => { q with txSeq := (q.txSeq + 1) % 4096, replay := q.replay ++ [⟨q.txSeq, w, stomped, 0⟩],
                                         used := q.used.set v ((q.used.getD v 0 + creditsOf w.frame) % 2 ^ 16) }
  (s.sramWrote 9 (2048 * p)).putFrame p q.txSeq w stomped

/-- The first queued frame of a VL. -/
def headOf (q : Port) (vl : Nat) : Option Waiting := q.txq.find? fun w => w.frame.vl % 4 == vl

/-- The queue without the first frame of a VL. -/
def dropHead (vl : Nat) : List Waiting → List Waiting
  | [] => []
  | w :: r => if w.frame.vl % 4 = vl then r else w :: dropHead vl r

/-- The head frame of a VL, where the port can send it now. -/
def readyHead (q : Port) (vl : Nat) : Option Waiting := (headOf q vl).filter fun w => canSend q w.frame

/-- The head frame of a VL leaves; its ingress port's buffer is free of it (R336). -/
def State.sendHead (s : State) (p vl : Nat) (w : Waiting) : State :=
  ((s.modPort p fun q => { q with txq := dropHead vl q.txq }).txFrame p w false).freeCredit w.inp w.orig

/-- The deficit round robin goes on to the next of VL1 to VL3 (R337). -/
def State.drrNext (s : State) (p : Nat) : State :=
  s.modPort p fun q =>
    let v := q.drrVl
    let w := if v = 3 then 1 else v + 1
    let d := if (headOf q v).isNone then q.drrDef.set v 0 else q.drrDef
    { q with drrVl := w, drrDef := if (headOf q w).isSome then d.set w (d.getD w 0 + s.quantum w) else d }

/-- One turn of an egress port (R337): VL0 first, then deficit round robin among VL1 to VL3; a VL whose head frame must wait holds up no other (R29). -/
def State.pumpN : Nat → Nat → State → State
  | 0, _, s => s
  | n + 1, p, s =>
    let q := s.port p
    match readyHead q 0 with
    | some w => State.pumpN n p (s.sendHead p 0 w)
    | none =>
      if [1, 2, 3].all fun v => (readyHead q v).isNone then s
      else
        let v := q.drrVl
        match readyHead q v with
        | some w =>
          let len := 20 + w.frame.payload.length
          if len ≤ q.drrDef.getD v 0 then State.pumpN n p ((s.modPort p fun q => { q with drrDef := q.drrDef.set v (q.drrDef.getD v 0 - len) }).sendHead p v w)
          else State.pumpN n p (s.drrNext p)
        | none => State.pumpN n p (s.drrNext p)

/-- Send what the port can send. -/
def State.pump (s : State) (p : Nat) : State := s.pumpN (8 * ((s.port p).txq.length + 1)) p

/-- Queue on egress port p a frame that came in on port `inp` as `orig`. -/
def State.queueFrom (s : State) (p inp : Nat) (orig f : Frame) : State :=
  (s.modPort p fun q => { q with txq := q.txq ++ [⟨f, orig, inp, s.now⟩] }).pump p

/-- Queue a frame of the endpoint on an egress port. -/
def State.queueOn (s : State) (p : Nat) (f : Frame) : State := s.queueFrom p 4 f f

/-- A live port (R338): ACTIVE, and in a folio member P3 only for the frames R267 admits. -/
def State.live (s : State) (p : Nat) (f : Frame) : Bool :=
  p == 4 || ((s.port p).stage == .active && !(s.member && p == 3 && !folioAdmits f))

/-! ## Routing -/

/-- Entry j of a route of 3-bit entries (R341). -/
def routeEntry (pfx : Bytes) (j : Nat) : Nat := bitsOf (leAt pfx 2 6) (3 * j + 2) (3 * j)

/-- A route prefix with pointer i, count c and the entries given. -/
def mkRoute (i c : Nat) (es : List Nat) : Bytes :=
  leBytes 1 i ++ leBytes 1 c ++ leBytes 6 (es.zipIdx.foldl (fun v (e, j) => putBits v (3 * j + 2) (3 * j) e) 0)

/-- The entries of a route prefix. -/
def routeEntries (pfx : Bytes) : List Nat := (List.range (byteAt pfx 1)).map (routeEntry pfx)

/-- The ports a table entry names, if valid. -/
def tabPorts (w : Nat) : List Nat := if bitOf w 31 then (List.range 5).filter fun i => bitOf w i else []

/-- The egress of a frame whose DR and LL bits are 0 (R338, R339). Where a folio member's P3 alone would be live but for R267, the frame is for P3, which filters it (R351). [DEDUCED, log 94] -/
def State.routeTo (s : State) (f : Frame) : Option Nat :=
  if s.nodeValid && f.dst == s.ownNode then some 4
  else
    let a := if f.dst / 256 ≠ s.ownNode / 256 then 0x182000 + 4 * (f.dst / 256 % 256) else 0x182400 + 4 * (f.dst % 256)
    let w := if s.addrBad a then 0 else s.reg a
    let livePorts := (tabPorts w).filter fun p => s.live p f
    if livePorts.isEmpty then
      if bitOf w 31 then (if (tabPorts w).contains 3 && (s.port 3).stage == .active then some 3 else none)
      else
        ((List.range 2).find? fun k => s.gb (F.SPN_ROOT_VALID k) && s.g (F.SPN_ROOT_NODE k) == f.dst).bind fun k =>
          let p := s.g (F.SPN_ROOT_UPPORT k)
          if s.live p f || (p == 3 && (s.port 3).stage == .active) then some p else none
    else
      let h := Nat.xor (Nat.xor (f.src / 256 % 256) (f.src % 256)) (Nat.xor (f.dst / 256 % 256) (f.dst % 256))
      livePorts[h % livePorts.length]?

/-- An answer to a request that arrived on port `p` (R341, R345): by DR where the request was DR. [DEDUCED, log 94] -/
def State.answer (s : State) (p : Nat) (req : Frame) (ty status : Nat) (data : Bytes) : Frame :=
  let c := byteAt req.payload 1
  let es := routeEntries req.payload
  let pfx := if req.dr then mkRoute 0 c (p :: (List.range (c - 1)).map fun j => es.getD (c - (j + 1)) 0) else []
  { dst := req.src, src := s.ownNode, vl := req.vl, dr := req.dr, ll := false, soq := false, hop := s.g F.SPN_CFG_HOPLIM,
    ty, status, tag := req.tag, gen := req.gen, payload := pfx ++ data }

/-- Deliver a frame to the internal endpoint's queue. -/
def State.deliver (s : State) (p : Nat) (f : Frame) : State := { s with spn := { s.spn with inbox := s.spn.inbox ++ [(p, f)] } }

/-- Give back what was withheld on VL1 and VL3 once the endpoint is below its bound. [DEDUCED, log 95] -/
def State.freeWithheld (s : State) : State :=
  if s.endFull then s
  else [(0, 1), (0, 3), (1, 1), (1, 3), (2, 1), (2, 3), (3, 1), (3, 3)].foldl (fun s (p, v) =>
    let n := (s.port p).withheld.getD v 0
    if n = 0 then s else (s.modPort p fun q => { q with withheld := q.withheld.set v 0 }).giveCredit p v n) s

/-- The endpoint takes a frame out of its queue, where it stands there, and returns its credits (R336). [DEDUCED, log 95] -/
def State.consume (s : State) (p : Nat) (f : Frame) : State :=
  if s.spn.inbox.contains (p, f) then ({ s with spn := { s.spn with inbox := s.spn.inbox.erase (p, f) } }.freeWithheld).freeCredit p f else s

/-- Count and record a frame of port p that is discarded (R338, R340, R351). -/
def State.dropped (s : State) (p : Nat) (f : Frame) (c : FR) (e : ECode) : State :=
  (s.inc c).record { c := e, ctxType := 5, ctx := ctxNode f.dst p 0xFF 0, stays := true }

/-- Discard a frame that came in on port p: counter, record, credits (R338, R340, R351). -/
def State.discard (s : State) (p : Nat) (f : Frame) (c : FR) (e : ECode) : State := (s.dropped p f c e).freeCredit p f

/-- Whether a frame of the endpoint itself can be routed (R338, R341). -/
def State.routes (s : State) (f : Frame) : Bool :=
  if f.dr then
    let q := routeEntry f.payload (byteAt f.payload 0)
    decide (q ≤ 4) && s.live q f
  else (s.routeTo f).any fun q => s.live q f

/-- Send a frame that the device originates or answers (R338, R341): a request that is discarded gets its status, and a FILTERED answer leaves through the filter that made it
(R351); NOROUTE is answered only where the source can be routed (R338). The fuel ends the answer to an answer. [DESIGN CHOICE, log 28; DEDUCED, log 94] -/
def State.sendN : Nat → Nat → Frame → State → State
  | 0, _, _, s => s
  | n + 1, p, f, s =>
    let f0 := f
    let own := p == 4 && f.ty == FT.RESP && f.status == 6
    let drop (s : State) (c : FR) (e : ECode) (st : Nat) : State :=
      let s := s.discard p f c e
      let a := s.answer p f FT.RESP st []
      if isNonPosted f && (st != 4 || s.routes a) then State.sendN n 4 a s else s
    let out (s : State) (q : Nat) (f : Frame) : State :=
      if q = 4 then (if s.dev == .quarantine && !isMgmt f then drop s F.SPN_CNT_FILTER_COUNT E.SPN_FILTER 6 else s.deliver p f)
      else if s.portFilters q f && !own then drop s F.SPN_CNT_FILTER_COUNT E.SPN_FILTER 6
      else if p < 4 ∧ f.hop = 0 then drop s F.SPN_CNT_HOPLIM_COUNT E.SPN_HOPLIM 5
      else if s.live q f then s.queueFrom q p f0 (if p < 4 then { f with hop := f.hop - 1 } else f)
      else drop s F.SPN_CNT_NOROUTE_COUNT E.SPN_NOROUTE 4
    if s.portFilters p f then drop s F.SPN_CNT_FILTER_COUNT E.SPN_FILTER 6
    else if f.ll then s.deliver p f
    else if f.dr then
      let i := byteAt f.payload 0
      let c := byteAt f.payload 1
      if c ≤ i then (if p = 4 then s else s.deliver p f)
      else
        let es := routeEntries f.payload
        let q := es.getD i 0
        let es := if p < 4 then es.set i p else es
        let f' := { f with payload := mkRoute (i + 1) c es ++ f.payload.drop 8 }
        if q = 4 then s.deliver p f
        else if q < 4 then out s q f'
        else drop s F.SPN_CNT_NOROUTE_COUNT E.SPN_NOROUTE 4
    else
      match s.routeTo f with
      | some q => out s q f
      | none => drop s F.SPN_CNT_NOROUTE_COUNT E.SPN_NOROUTE 4

/-- Route a frame that arrived on port p (4: the endpoint's own). -/
def State.switch (s : State) (p : Nat) (f : Frame) : State := s.sendN 3 p f

/-- Send a frame of the endpoint by the routing tables. -/
def State.send (s : State) (f : Frame) : State := s.sendN 3 4 f

/-- A frame the controller originates to a node. -/
def State.mkFrame (s : State) (dst vl ty : Nat) (payload : Bytes) : Frame :=
  { dst, src := s.ownNode, vl, dr := false, ll := false, soq := false, hop := s.g F.SPN_CFG_HOPLIM, ty, status := 0, tag := 0, gen := 0, payload }

/-- Send a link-local frame on a port with its link up. -/
def State.sendLL (s : State) (p ty vl : Nat) (payload : Bytes) : State :=
  if (s.port p).stage = .active then s.queueOn p { s.mkFrame 0 vl ty payload with ll := true } else s

/-- The ports with a link up. -/
def State.upPorts (s : State) : List Nat := (List.range 4).filter fun p => (s.port p).stage == .active

/-! ## Notifications (R370) -/

/-- The value of GLB_ATTN, latched bits stored and held bits given. -/
def attnValue (stored held : Nat) : Nat := Nat.lor stored held

/-- A NOTIFY of the endpoint that waits, by the ring and kind bytes of its payload. -/
def Waiting.isNotify (w : Waiting) (ring kind : Nat) : Bool := w.inp == 4 && w.orig.ty == FT.NOTIFY && byteAt w.orig.payload 0 == ring && byteAt w.orig.payload 1 == kind

/-- Send a NOTIFY (R370). One of the same ring that still waits for credit is replaced: in its place by one to the same node, else it goes. -/
def State.sendNotify (s : State) (node ring kind val : Nat) : State :=
  let f := s.mkFrame node 1 FT.NOTIFY (leBytes 1 ring ++ leBytes 1 kind ++ leBytes 2 0 ++ leBytes 4 val)
  let same (w : Waiting) : Bool := w.isNotify ring kind && w.frame.dst == node
  match (List.range 4).find? fun p => (s.port p).txq.any same with
  | some p => s.modPort p fun q => { q with txq := q.txq.map fun w => if same w then { w with frame := f, orig := f } else w }
  | none =>
    let s := (List.range 4).foldl (fun s p => if (s.port p).txq.any (·.isNotify ring kind) then s.modPort p fun q => { q with txq := q.txq.filter fun w => !w.isNotify ring kind } else s) s
    (s.send f).inc F.MBX_CNT_NOTIFY_COUNT

/-- Whether a frame at the endpoint that is not in its queue is refused as filtered: by its port, or in QUARANTINE (R351). [DEDUCED, log 92] -/
def State.refuses (s : State) (p : Nat) (f : Frame) : Bool :=
  !s.spn.inbox.contains (p, f) && (s.portFilters p f || (s.dev == .quarantine && !isMgmt f))

/-- A refused frame is discarded, counted and recorded, and a non-posted request answered FILTERED (R351). [DEDUCED, log 94] -/
def State.filtered (s : State) (p : Nat) (f : Frame) : State :=
  let s := s.dropped p f F.SPN_CNT_FILTER_COUNT E.SPN_FILTER
  if isNonPosted f then s.send (s.answer p f FT.RESP 6 []) else s

/-! ## Bring-up, recovery and retirement -/

/-- The unique ID of port p's neighbour, as SPN_NBRIDi hold it. -/
def State.nbrId (s : State) (p : Nat) : Bytes := (List.range 4).flatMap fun i => leBytes 4 (s.g (F.SPN_NBRID_ID p i))

/-- Context NODE for port p's neighbour (R418): the CRC field once the neighbour's ID is known. -/
def State.ctxNbr (s : State) (p lane : Nat) : Nat :=
  ctxNode (s.g (F.SPN_NBRNODE_VAL p) % 65536) p lane (if (s.port p).lastW.isSome then crc32c (s.nbrId p) % 65536 else 0)

/-- Replay every unacknowledged frame from sequence `sq` on (R334), counting each; the fifth replay of one sequence is reported. -/
def State.replayFrom (s : State) (p sq : Nat) : State × Bool :=
  let q := s.port p
  let behind (k : Nat) : Bool := decide (2048 ≤ (k + 4096 - sq) % 4096)
  let again := q.replay.filter fun k => !behind k.seq
  let s := s.modPort p fun q => { q with replay := q.replay.map fun k => if behind k.seq then k else { k with replays := k.replays + 1 } }
  let s := again.foldl (fun s k => s.putFrame p k.seq k.w k.stomped) s
  (s.inc (F.SPN_CNT_REPLAY_COUNT p), again.any fun k => k.replays + 1 == 5)

/-- A frame without a route (R338); `credit`: it still stood in its ingress port's buffer. -/
def State.noRoute (s : State) (w : Waiting) (credit : Bool) : State :=
  let s := s.dropped w.inp w.orig F.SPN_CNT_NOROUTE_COUNT E.SPN_NOROUTE
  let s := if credit then s.freeCredit w.inp w.orig else s
  let a := s.answer w.inp w.orig FT.RESP 4 []
  if isNonPosted w.orig && s.routes a then s.send a else s

/-- Frames that waited for a port that is not ACTIVE and not in RECOVER have no route (R332, R338). -/
def State.flushPort (s : State) (p : Nat) : State :=
  let ws := (s.port p).txq
  ws.foldl (fun s w => s.noRoute w true) (s.modPort p fun q => { q with txq := [] })

/-- Retire a port (R355). [DEDUCED, log 96] -/
def State.retirePort (s : State) (p : Nat) (inj : Bool) : State :=
  let s := s.modPort p fun q => { q with stage := .retired, lanesAct := 0, loop := false }
  let s := s.record { c := E.SPN_PORTRET, inst := p, ctxType := 5, ctx := s.ctxNbr p 0xFF, inj, handles := true }
  (s.raise SEv.SPINE_PORTDOWN p).flushPort p

/-- The lanes of a mask that a port has not retired. -/
def lanesFree (q : Port) (far : Nat) : List Nat := (List.range 4).filter fun l => !bitOf q.laneRet l && bitOf far l

/-- The physical lanes that a port can use (R330): DETECT found termination on them, they locked in TRAIN, and the port has not retired them. -/
def lanesUp (q : Port) : List Nat := (lanesFree q q.found).filter (bitOf q.locked)

/-- The widest lane set (R355): all four, lanes 0 and 1 or 2 and 3, or one lane; width code and lane bits; none where no lane is usable. [DEDUCED, log 83] -/
def chooseWidth (free : List Nat) (maxW : Nat) (farWidths : Nat) : Option (Nat × Nat) :=
  let has (l : Nat) : Bool := free.contains l
  let ok (w : Nat) : Bool := decide (w ≤ maxW) && bitOf farWidths w
  if ok 2 && has 0 && has 1 && has 2 && has 3 then some (2, 15)
  else if ok 1 && has 0 && has 1 then some (1, 3)
  else if ok 1 && has 2 && has 3 then some (1, 12)
  else if ok 0 then free.head?.map fun l => (0, 2 ^ l)
  else none

/-- Enter RECOVER (R354): counted; more than RECMAX times within 1 s, or with no usable lane, the port retires (R355). [DEDUCED, log 83] -/
def State.enterRecover (s : State) (p : Nat) (inj : Bool) : State :=
  let now := s.us
  let s := s.inc (F.SPN_CNT_RECOVER_COUNT p)
  let s := s.modPort p fun q => { q with stage := .recover, phase := .train, recTimes := now :: q.recTimes.filter fun t => decide (now < t + 1000000), nakSent := false }
  let mx := s.g (F.SPN_RETCFG_RECMAX p)
  if (mx ≠ 0 ∧ mx < (s.port p).recTimes.length) ∨ (s.port p).laneRet = 15 then s.retirePort p inj else s

/-- A lane block error (R327): counted; past THR within the window of 2^WIN ms the lane retires and the port enters RECOVER (R355). -/
def State.laneBlockError (s : State) (p l : Nat) : State :=
  let now := s.us
  let s := s.inc (F.SPN_CNT_BLKERR_COUNT p l)
  let q := s.port p
  if bitOf q.laneRet l then s
  else
    let win := 1000 * 2 ^ s.g (F.SPN_RETCFG_WIN p)
    let errs := now :: (spGet [] q.laneErrs l).filter fun t => decide (now < t + win)
    let s := s.modPort p fun q => { q with laneErrs := spSet [] q.laneErrs l errs }
    let thr := s.g (F.SPN_RETCFG_THR p)
    if thr ≠ 0 ∧ thr < errs.length then
      let s := s.modPort p fun q => { q with laneRet := putBit q.laneRet l true, laneErrs := spSet [] q.laneErrs l [] }
      let s := s.record { c := E.SPN_LANERET, inst := p, ctxType := 5, ctx := s.ctxNbr p l, handles := true }
      if q.stage = .active then s.enterRecover p false else if (s.port p).laneRet = 15 then s.retirePort p false else s
    else s

/-- A bring-up stage fails (R332): the port waits 1 ms; every third failure in a row makes SPN_TRAINFAIL and raises SPNLINK. [DEDUCED, log 96] -/
def State.portFail (s : State) (p : Nat) : State :=
  let n := (s.port p).fails + 1
  let s := s.modPort p fun q => { q with waitRetry := true, fails := if n = 3 then 0 else n }
  if n = 3 then (s.record { c := E.SPN_TRAINFAIL, inst := p, ctxType := 5, ctx := s.ctxNbr p 0xFF, handles := true }).latch Att.SPNLINK
  else s

/-- Credits that frames of port p still in its receive buffer of a VL hold: at the endpoint, or queued on an egress port (R336). -/
def State.bufUnits (s : State) (p v : Nat) : Nat :=
  sumL ((s.spn.inbox.filter fun x => x.1 == p && x.2.vl % 4 == v).map fun x => creditsOf x.2)
    + sumL ((List.range 4).map fun q => sumL (((s.port q).txq.filter fun w => w.inp == p && w.orig.vl % 4 == v).map fun w => creditsOf w.orig))

/-- A port returns to DETECT (R332): sequences and the replay buffer start anew, waiting frames have no route. The limits that it will name leave out what its buffers still hold
(R336). [DEDUCED, log 95] -/
def State.toDetect (s : State) (p : Nat) : State :=
  let s := (s.modPort p fun q => { q with stage := .detect, waitRetry := false, lanesAct := 0, found := 0, locked := 0, txSeq := 0, rxSeq := 0, nakSent := false, sinceAck := 0, replay := [],
                                          used := [0, 0, 0, 0], withheld := [0, 0, 0, 0], limits := [0, 0, 0, 0], granted := [0, 0, 0, 0], txLane := 0, bip := [], sent := [], bipOpen := false,
                                          loop := false, injd := false }).flushPort p
  let offer := [16, 64, 128, 48].mapIdx fun v n => n - s.bufUnits p v
  s.modPort p fun q => { q with freed := [0, 0, 0, 0], offer }

/-! ## PRBS (R196, R353) -/

/-- The order and the second tap of a test pattern. -/
def prbsTaps (poly : Nat) : Nat × Nat :=
  if poly = 0 then (7, 6) else if poly = 1 then (15, 14) else if poly = 2 then (23, 18) else (31, 28)

/-- The generator's next bit as it goes out (R196): inverted by INV, by a bit error of INJ1 and by one of INJRATE; whether the latter came. [DESIGN CHOICE, log 98] -/
def genBit (poly : Nat) (inv : Bool) (rate : Nat) (g : Gen) (err : Bool) : Gen × Bool × Bool :=
  let (n, k) := prbsTaps poly
  let b := xor (bitOf g.hist (n - 1)) (bitOf g.hist (k - 1))
  let hit := rate != 0 && decide (2 ^ (rate + 10) ≤ g.n + 1)
  ({ hist := (2 * g.hist + b2n b) % 2 ^ 31, n := if hit then 0 else g.n + 1 }, xor (xor (xor b inv) err) hit, hit)

/-- The generator's next `k` bits, of which the first `errs` carry an error of INJ1 each, and how many errors INJRATE put in. -/
def genRun (poly : Nat) (inv : Bool) (rate : Nat) : Nat → Gen → Nat → Gen × List Bool × Nat
  | 0, g, _ => (g, [], 0)
  | k + 1, g, errs =>
    let (g, b, hit) := genBit poly inv rate g (decide (0 < errs))
    let (g, bs, n) := genRun poly inv rate k g (errs - 1)
    (g, b :: bs, n + b2n hit)

/-- One received bit at a checker: the checker after it, and whether it counts as an error. [DEDUCED, log 52] -/
def prbsBit (poly : Nat) (inv : Bool) (c : Prbs) (b : Bool) : Prbs × Bool :=
  let b := xor b inv
  let (n, k) := prbsTaps poly
  let pred := xor (bitOf c.hist (n - 1)) (bitOf c.hist (k - 1))
  let push (x : Bool) : Nat := (2 * c.hist + b2n x) % 2 ^ 31
  if c.seen < n then ({ c with hist := push b, seen := c.seen + 1 }, false)
  else if c.lock then ({ c with hist := push pred }, b != pred)
  else if b = pred then ({ c with hist := push b, good := c.good + 1, lock := decide (64 ≤ c.good + 1) }, false)
  else ({ c with hist := push b, good := 0 }, false)

/-- Received bits at a checker, and the errors they count. [DEDUCED, log 52] -/
def prbsRun (poly : Nat) (inv : Bool) (c : Prbs) (bits : List Bool) : Prbs × Nat :=
  bits.foldl (fun (c, n) b => let (c', e) := prbsBit poly inv c b; (c', n + b2n e)) (c, 0)

end Sys2Proof.Machine
end

