-- ==== Sys2Proof/Machine/MessagingOps.lean ====
section
/-!
DEFINITION. Operations of the messaging block (R358 to R380): mailbox channels, the posting queue and its rings, upload buffers and locks.
-/

namespace Sys2Proof.Machine

/-! ## Mailbox channels -/

/-- Whether a channel waits to be taken. -/
def State.chPending (s : State) (c : Nat) : Bool := s.gb (F.MBX_CH_STS_PENDING c)

/-- Whether a channel's message has been taken. -/
def State.chAccepted (s : State) (c : Nat) : Bool := s.gb (F.MBX_CH_STS_ACCEPTED c)

/-- Put a channel into a state of R361. -/
def State.chPut (s : State) (c : Nat) (pending accepted done : Bool) : State :=
  ((s.p (F.MBX_CH_STS_PENDING c) (b2n pending)).p (F.MBX_CH_STS_ACCEPTED c) (b2n accepted)).p (F.MBX_CH_STS_DONE c) (b2n done)

/-- Message word k of a channel. -/
def State.msg (s : State) (c k : Nat) : Nat := s.g (F.MBX_CH_MSG_WORD c k)

/-- The class of a channel's message (R362). -/
def State.msgClass (s : State) (c : Nat) : Nat := bitsOf (s.msg c 0) 31 24

/-- A channel's age counter. -/
def State.chAge (s : State) (c : Nat) : ChAge := spGet {} s.mbx.age c

/-- The age in microseconds (R364). -/
def State.ageUs (s : State) (c : Nat) : Nat :=
  match (s.chAge c).stopped with
  | some a => a
  | none => satN 0xFFFFFFFF ((s.ns - (s.chAge c).start) / 1000)

/-- Set an age counter. -/
def State.setAge (s : State) (c : Nat) (a : ChAge) : State := { s with mbx := { s.mbx with age := spSet {} s.mbx.age c a } }

/-- Stop a channel's age counter. -/
def State.stopAge (s : State) (c : Nat) : State := s.setAge c { start := (s.chAge c).start, stopped := some (s.ageUs c) }

/-- A message completes (R365): DONE and RESULT, the age stops, REJECTED counts, and MBX_DONE is posted. `b3` is byte 3 of the body. -/
def State.msgDone (s : State) (c result b3 : Nat) (words : List Nat) : State :=
  let s := ((s.chPut c false false true).p (F.MBX_CH_STS_RESULT c) result).stopAge c
  let s := if result = 1 then s.inc F.MBX_CNT_REJECT_COUNT else s
  let n := s.g (F.MBX_CH_CTL_RING c)
  let n := if s.gb (F.MBX_RG_CFG_EN n) then n else 0
  s.post n DT.MBX_DONE 0 (leBytes 1 c ++ leBytes 1 result ++ leBytes 1 (bitsOf (s.msg c 0) 23 16) ++ leBytes 1 b3
    ++ (words.flatMap fun w => leBytes 4 w))

/-- A GO starts a message (R360, R361, R364): a LEN outside 8 to 16 completes at once as REJECTED; a SUPERVISOR message raises MBX_MSG. -/
def State.msgStart (s : State) (c : Nat) (src : Src) (via : Option Nat) : State :=
  let s := ((s.chPut c true false false).p (F.MBX_CH_STS_WDRAWN c) 0).p (F.MBX_CH_STS_WDREF c) 0
  let s := (s.setAge c { start := s.ns, stopped := none }).inc F.MBX_CNT_MSG_COUNT
  let s := { s with mbx := { s.mbx with goSrc := spSet (.internal, none) s.mbx.goSrc c (src, via) } }
  let l := s.g (F.MBX_CH_CTL_LEN c)
  if l < 8 ∨ 16 < l then s.msgDone c 1 0 []
  else if s.msgClass c = 1 then s.raise SEv.MBX_MSG c
  else s

/-- A withdrawal (R363): a PENDING message returns the channel to IDLE; on an ACCEPTED one it comes too late. -/
def State.msgWithdraw (s : State) (c : Nat) : State :=
  if s.chPending c then ((s.chPut c false false false).p (F.MBX_CH_STS_WDRAWN c) 1).stopAge c
  else if s.chAccepted c then s.p (F.MBX_CH_STS_WDREF c) 1
  else s

/-- The register source counts as the owner of a channel (R359): its node, JTAG, the supervisor and the loader. -/
def State.isOwner (s : State) (c : Nat) (src : Src) : Bool :=
  match src with
  | .spine n => s.gb (F.MBX_CH_OWNER_VALID c) && s.g (F.MBX_CH_OWNER_NODE c) == n
  | _ => true

/-- A write to OWNER (R359): a claim of a free channel by the node itself, or a release by the owner; any other write is ignored
and logged. False: status ACCESS. [DESIGN CHOICE, log 28] -/
def State.ownerWrite (s : State) (c : Nat) (src : Src) (w : Nat) : Bool × State :=
  let a := (F.MBX_CH_OWNER_VALID c).addr
  let rej : Bool × State := (false, s.record { c := E.MBX_OWNER, inst := c, ctxType := 6, ctx := ctxReg a src })
  let node := bitsOf w 15 0
  let mine : Bool := match src with | .spine n => node == n | _ => true
  if bitOf w 16 then
    if !s.gb (F.MBX_CH_OWNER_VALID c) && mine then (true, s.setReg a (bitsOf w 16 0)) else rej
  else if s.gb (F.MBX_CH_OWNER_VALID c) && s.isOwner c src && !s.chAccepted c then
    (true, (if s.chPending c then s.msgWithdraw c else s).setReg a (bitsOf w 16 0))
  else rej

/-! ## Rings -/

/-- The DRAM address of descriptor i of ring n (R366). -/
def State.descAddr (s : State) (n i : Nat) : Nat :=
  s.g (F.MBX_RG_BASE_HI_ADDR n) * 2 ^ 32 + s.g (F.MBX_RG_BASE_LO_ADDR n) * 4096 + 32 * (i % s.ringSize n)

/-- The 32 bytes of a descriptor at index i (R367). [DEDUCED, log 110] -/
def State.descBytes (s : State) (d : Desc) (i : Nat) : Bytes :=
  leBytes 2 d.ty ++ leBytes 1 ((i / s.ringSize d.ring + 1) % 2 + 2 * b2n (spGet false s.mbx.lostb d.ring)) ++ leBytes 1 d.status
    ++ leBytes 2 d.epoch ++ leBytes 2 i ++ leBytes 8 d.tb ++ d.body

/-- A NOTIFY waits for ring n (256: for attention); a later one replaces it (R370). -/
def State.askNotify (s : State) (n : Nat) : State :=
  { s with mbx := { s.mbx with notify := if s.mbx.notify.contains n then s.mbx.notify else s.mbx.notify ++ [n] } }

/-- A descriptor's write gets an error response (R369, R371); its two records stand in the order of their codes (R420). -/
def State.descError (s : State) (n : Nat) : State :=
  let was := s.gb (F.MBX_RG_STS_FAULT n)
  let s := ((s.p (F.MBX_RG_STS_FAULT n) 1).loseDesc n).record (evRingFull n false)
  if was then s
  else s.record { c := E.MBX_RINGMEM, inst := n, ctxType := 6, ctx := ctxReg (F.MBX_RG_STS_FAULT n).addr .internal, handles := true }

/-- The head of the posting queue goes to DRAM (R369): the subchannel takes its write, with or without an error response `err` of its own. A ring that is full by then loses it, and a nozzle change that is lost counts (R217). [DEDUCED, log 110] -/
def State.drainDesc (s : State) (err : Bool) : State :=
  match s.mbx.postq with
  | [] => s
  | d :: r =>
    let s := { s with mbx := { s.mbx with postq := r } }
    let n := d.ring
    let i := s.g (F.MBX_RG_HEAD_INDEX n)
    if !s.gb (F.MBX_RG_CFG_EN n) || decide (s.ringSize n ≤ s.ringUsed n) then
      let s := (s.loseDesc n).record (evRingFull n false)
      if d.ty = DT.NOZZLE_CHANGE then s.inc F.NZH_CNT_RPTLOST_COUNT else s
    else if err then s.descError n
    else
      let (ok, s) := s.dramWrite (s.descAddr n i) (s.descBytes d i) 5 0
      if ok then
        let s := s.p (F.MBX_RG_HEAD_INDEX n) ((i + 1) % 2 ^ 32)
        let s := { s with mbx := { s.mbx with lostb := spSet false s.mbx.lostb n false } }
        if s.gb (F.MBX_RG_CFG_NOTEN n) then s.askNotify n else s
      else s.descError n

/-- A write of MBX_RGn_CFG takes EN from 0 to 1 (R366). -/
def State.ringEnabled (s : State) (n : Nat) : State :=
  ((s.p (F.MBX_RG_HEAD_INDEX n) 0).p (F.MBX_RG_TAIL_INDEX n) 0).p (F.MBX_RG_STS_FAULT n) 0

/-- A TAIL write (R366): ignored and logged where it would move TAIL behind its old value or beyond HEAD. [DEDUCED, log 19] -/
def State.ringTail (s : State) (n : Nat) (src : Src) (w : Nat) : State :=
  let old := s.g (F.MBX_RG_TAIL_INDEX n)
  let d (x : Nat) : Nat := (x + 2 ^ 32 - old) % 2 ^ 32
  if d w ≤ d (s.g (F.MBX_RG_HEAD_INDEX n)) then s.p (F.MBX_RG_TAIL_INDEX n) w
  else s.record { c := E.MBX_RINGPTR, inst := n, ctxType := 6, ctx := ctxReg (F.MBX_RG_TAIL_INDEX n).addr src }

/-! ## Uploads -/

/-- Compressor n. -/
def State.up (s : State) (n : Nat) : UpSt := spGet {} s.mbx.up n

/-- Change compressor n. -/
def State.modUp (s : State) (n : Nat) (f : UpSt → UpSt) : State := { s with mbx := { s.mbx with up := spMod {} s.mbx.up n f } }

/-- Ask compressor n for an upload, announced on a ring with a type (R68, R372). -/
def State.upload (s : State) (n ring ty tag : Nat) (input : Bytes) : State :=
  s.modUp n fun u => { u with waiting := u.waiting ++ [⟨input, ring, ty, tag⟩] }

/-- The body of an upload's descriptor (R372). [DESIGN CHOICE, log 48] -/
def upBody (wptr clen : Nat) (input : Bytes) : Bytes := leBytes 4 wptr ++ leBytes 4 clen ++ leBytes 4 input.length ++ leBytes 4 (crc32c input)

/-- Compressor n starts its next upload (R372): the reservation, or the refusal. [DESIGN CHOICE, log 48] -/
def State.upStart (s : State) (n : Nat) : State :=
  match (s.up n).waiting, (s.up n).run with
  | r :: rest, none =>
    let s := s.modUp n fun u => { u with waiting := rest }
    let w := s.g (F.MBX_UP_WPTR_BYTES n)
    let used := (w + 2 ^ 32 - s.g (F.MBX_UP_TAIL_BYTES n)) % 2 ^ 32
    let resv := uploadBound r.input.length
    if s.g (F.MBX_UP_SIZE_PAGES n) * 4096 < used + resv then
      (s.post r.ring r.ty 1 (upBody w 0 r.input)).inc F.MBX_CNT_UPNOSPACE_COUNT
    else s.modUp n fun u => { u with run := some ⟨r, w, resv, s.reg (F.QRE_UPCFG_TABLES n).addr⟩ }
  | _, _ => s

/-- Write an upload's bytes into the circular buffer of compressor n (R372). -/
def State.upWrite (s : State) (n w : Nat) (b : Bytes) : State :=
  let size := s.g (F.MBX_UP_SIZE_PAGES n) * 4096
  let base := s.g (F.MBX_UP_BASE_HI_ADDR n) * 2 ^ 32 + s.g (F.MBX_UP_BASE_LO_ADDR n) * 4096
  let o := if size = 0 then 0 else w % size
  let k := Nat.min b.length (size - o)
  let s := (s.dramWrite (base + o) (b.take k) 6 0).2
  (s.dramWrite base (b.drop k) 6 0).2

/-- Compressor n's upload ends (R372): the data, WPTR, and the descriptor. The answer is the upload and whether its descriptor was lost. -/
def State.upEnd (s : State) (n : Nat) : State × Option (Upload × Bool) :=
  match (s.up n).run with
  | some r =>
    let out := uploadStream n r.cfg r.req.input
    let s := (s.modUp n fun u => { u with run := none }).upWrite n r.wptr out
    let s := s.p (F.MBX_UP_WPTR_BYTES n) ((r.wptr + out.length) % 2 ^ 32)
    let (s, lost) := s.post? r.req.ring r.req.ty 0 (upBody r.wptr out.length r.req.input)
    (s, some (r.req, lost))
  | none => (s, none)

/-! ## Locks -/

/-- The holder of lock i. -/
def State.lock (s : State) (i : Nat) : Option Src := spGet none s.mbx.locks i

/-- Set the holder of lock i. -/
def State.setLock (s : State) (i : Nat) (h : Option Src) : State := { s with mbx := { s.mbx with locks := spSet none s.mbx.locks i h } }

/-- How a lock's holder reads (R373). -/
def lockValue : Option Src → Nat
  | none => 0
  | some h => 2 ^ 31 + srcCode h * 2 ^ 16 + srcNode h % 65536

/-- A read of lock i (R373): it acquires a free lock and returns 0, or returns the holder. -/
def State.lockTake (s : State) (i : Nat) (src : Src) : Nat × State :=
  match s.lock i with
  | none => (0, s.setLock i (some src))
  | h => (lockValue h, s)

/-- A write of lock i (R373): the holder releases it; any other write counts and gets ACCESS (false). -/
def State.lockDrop (s : State) (i : Nat) (src : Src) : Bool × State :=
  if s.lock i = some src then (true, s.setLock i none) else (false, s.inc F.MBX_CNT_LOCKERR_COUNT)

/-- A forced release of lock i, with its record naming the former holder (R375). [DESIGN CHOICE, log 28] -/
def State.lockForce (s : State) (i : Nat) : State :=
  match s.lock i with
  | some h => (s.setLock i none).record { c := E.MBX_LOCKFORCE, inst := i, ctxType := 6, ctx := ctxReg (F.MBX_LOCK_VALUE i).addr h }
  | none => s

/-- Release every lock that a holder of this source code and node holds (R375). -/
def State.lockAllNode (s : State) (code node : Nat) : State :=
  (List.range 256).foldl (fun s i =>
    match s.lock i with
    | some h => if srcCode h = code ∧ srcNode h = node then s.lockForce i else s
    | none => s) s

/-- MBX_LOCKCMD (R375). -/
def State.lockCmd (s : State) (w : Nat) : State :=
  let s := if bitOf w 31 then s.lockForce (bitsOf w 23 16) else s
  if bitOf w 30 then s.lockAllNode (bitsOf w 25 24) (bitsOf w 15 0) else s

end Sys2Proof.Machine
end

