-- ==== Sys2Proof/Machine/ErrorOps.lean ====
section
/-!
DEFINITION. Operations of the error block (R416 to R433): the log window, its tail, the captures, the dump, and arming an injection.
-/

namespace Sys2Proof.Machine

/-- Whether log index i is open. -/
def State.recOpen (s : State) (i : Nat) : Bool := s.err.opened.any fun o => o.idx == some i

/-- The log index that slot k shows: the latest written below HEAD that lies there. -/
def State.logIndexOf (s : State) (k : Nat) : Nat :=
  let h := s.g F.ERR_HEAD_INDEX
  (h + 2 ^ 32 - 1 - (h + 2 ^ 32 - 1 - k) % 256) % 2 ^ 32

/-- The 32 bytes of log slot k; zeros where no record has been written, code 0 where its SRAM words are poisoned (R430). -/
def State.logSlot (s : State) (k : Nat) : Bytes :=
  match spGet none s.err.log (k % 256) with
  | some r =>
    let b := recBytes r (s.recOpen (s.logIndexOf (k % 256)))
    if (List.range 4).any fun j => s.sramBad 10 (sramLog (k % 256) j) then b.take 8 ++ [0, 0] ++ b.drop 10 else b
  | none => List.replicate 32 0

/-- Read word w of log slot k (R423): word 0 latches the others, which read from the latch while it names their slot. -/
def State.logRead (s : State) (k w : Nat) : Nat × State :=
  let b := s.logSlot k
  if w = 0 then (leAt b 0 4, { s with err := { s.err with latch := some (k % 256, (List.range 7).map fun j => leAt b (4 * (j + 1)) 4) } })
  else
    match s.err.latch with
    | some (k', ws) => (if k' = k % 256 then ws.getD (w - 1) 0 else leAt b (4 * w) 4, s)
    | none => (leAt b (4 * w) 4, s)

/-- A write of ERR_TAIL (R421, R422): it frees records and closes those of them that are open, or is ignored and logged. [DEDUCED, log 19] -/
def State.errTail (s : State) (src : Src) (w : Nat) : State :=
  let old := s.g F.ERR_TAIL_INDEX
  let d (x : Nat) : Nat := (x + 2 ^ 32 - old) % 2 ^ 32
  if d w ≤ d (s.g F.ERR_HEAD_INDEX) then
    let s := s.p F.ERR_TAIL_INDEX w
    { s with err := { s.err with opened := s.err.opened.filter fun o => match o.idx with | some i => !decide (d i < d w) | none => true } }
  else s.recReg E.ERR_TAILPTR F.ERR_TAIL_INDEX.addr src

/-- ERR_CMD.DUMP (R425): HEAD, TAIL and the records between, through compressor COMP. -/
def State.errDump (s : State) : State :=
  let t := s.g F.ERR_TAIL_INDEX
  let body := leBytes 4 (s.g F.ERR_HEAD_INDEX) ++ leBytes 4 t ++ (List.range s.logCount).flatMap fun k => s.logSlot ((t + k) % 2 ^ 32)
  s.upload (s.g F.ERR_CFG_COMP) (s.g F.ERR_CFG_RING) 0x2F 0 body

/-- ERR_CMD.BLKCLR (R424). -/
def State.errBlkclr (s : State) : State := (List.range 18).foldl (fun s b => s.setReg (F.ERR_BLKFIRST_VALID b).addr 0) s

/-- ERR_CMD.FIRSTCLR (R424). -/
def State.errFirstclr (s : State) : State :=
  ((List.range 8).foldl (fun s i => s.p (F.ERR_FIRST_WORD i) 0) s).p F.ERR_STS_FIRSTV 0

/-- ERR_CMD (R433): the commands of one write, in bit order. -/
def State.errCmd (s : State) (w : Nat) : State :=
  let s := if bitOf w 0 then s.errFirstclr else s
  let s := if bitOf w 1 then s.errBlkclr else s
  if bitOf w 2 then s.errDump else s

/-- How many events an injection acts on (R431); for sync loss the clock (us) of the ARM stands here. [DESIGN CHOICE, log 26] -/
def State.injLeft (s : State) (id arg : Nat) : Nat :=
  if id = 0x0A then 64 else if id = 0x0F ∨ id = 0x12 then arg else if id = 0x10 then s.us else 1

/-- ERR_INJ.ARM (R432): an identifier the table does not list is ignored, and so is an injection of no event. [DESIGN CHOICE, log 26] -/
def State.injArm (s : State) (id inst arg : Nat) : State :=
  if id = 0 ∨ 0x1B < id then s
  else if (id = 0x0F ∨ id = 0x12) ∧ arg = 0 then { s with err := { s.err with inj := none } }
  else { s with err := { s.err with inj := some ⟨id, inst, arg, s.injLeft id arg⟩ } }

/-- A run closes after RUNGAP with no event of its key (R421). -/
def State.closeRun (s : State) (key : List Nat) : State :=
  { s with err := { s.err with opened := s.err.opened.filter fun o => !(o.byGap && o.key == key) } }

end Sys2Proof.Machine
end

