-- ==== Sys2Proof/Machine/Crypto.lean ====
section
/-!
DEFINITION. SHA-256 and ECDSA over P-256, which the Colophon's signature (R389, R391) and attestation (R349) use.
-/

namespace Sys2Proof.Machine

/-! ## SHA-256 -/

/-- The round constants, first half. -/
def shaK0 : List Nat :=
  [0x428A2F98, 0x71374491, 0xB5C0FBCF, 0xE9B5DBA5, 0x3956C25B, 0x59F111F1, 0x923F82A4, 0xAB1C5ED5,
   0xD807AA98, 0x12835B01, 0x243185BE, 0x550C7DC3, 0x72BE5D74, 0x80DEB1FE, 0x9BDC06A7, 0xC19BF174,
   0xE49B69C1, 0xEFBE4786, 0x0FC19DC6, 0x240CA1CC, 0x2DE92C6F, 0x4A7484AA, 0x5CB0A9DC, 0x76F988DA,
   0x983E5152, 0xA831C66D, 0xB00327C8, 0xBF597FC7, 0xC6E00BF3, 0xD5A79147, 0x06CA6351, 0x14292967]

/-- The round constants, second half. -/
def shaK1 : List Nat :=
  [0x27B70A85, 0x2E1B2138, 0x4D2C6DFC, 0x53380D13, 0x650A7354, 0x766A0ABB, 0x81C2C92E, 0x92722C85,
   0xA2BFE8A1, 0xA81A664B, 0xC24B8B70, 0xC76C51A3, 0xD192E819, 0xD6990624, 0xF40E3585, 0x106AA070,
   0x19A4C116, 0x1E376C08, 0x2748774C, 0x34B0BCB5, 0x391C0CB3, 0x4ED8AA4A, 0x5B9CCA4F, 0x682E6FF3,
   0x748F82EE, 0x78A5636F, 0x84C87814, 0x8CC70208, 0x90BEFFFA, 0xA4506CEB, 0xBEF9A3F7, 0xC67178F2]

/-- The initial hash words. -/
def shaInit : List Nat :=
  [0x6A09E667, 0xBB67AE85, 0x3C6EF372, 0xA54FF53A, 0x510E527F, 0x9B05688C, 0x1F83D9AB, 0x5BE0CD19]

/-- Rotate a 32-bit word right. -/
def rotr (n x : Nat) : Nat := x / 2 ^ n + x % 2 ^ n * 2 ^ (32 - n)

/-- XOR of three words. -/
def xor3 (a b c : Nat) : Nat := Nat.xor (Nat.xor a b) c

/-- One more word of the message schedule, latest first. -/
def shaExpand (w : List Nat) : List Nat :=
  let a := w.getD 14 0
  let b := w.getD 1 0
  let s0 := xor3 (rotr 7 a) (rotr 18 a) (a / 8)
  let s1 := xor3 (rotr 17 b) (rotr 19 b) (b / 1024)
  (w.getD 15 0 + s0 + w.getD 6 0 + s1) % 2 ^ 32 :: w

/-- The eight working words. -/
structure ShaSt where
  a : Nat
  b : Nat
  c : Nat
  d : Nat
  e : Nat
  f : Nat
  g : Nat
  h : Nat
  deriving DecidableEq, Repr

/-- One round. -/
def shaRound (x : ShaSt) (kw : Nat × Nat) : ShaSt :=
  let s1 := xor3 (rotr 6 x.e) (rotr 11 x.e) (rotr 25 x.e)
  let ch := Nat.xor (Nat.land x.e x.f) (Nat.land (0xFFFFFFFF - x.e) x.g)
  let t1 := x.h + s1 + ch + kw.1 + kw.2
  let s0 := xor3 (rotr 2 x.a) (rotr 13 x.a) (rotr 22 x.a)
  let mj := xor3 (Nat.land x.a x.b) (Nat.land x.a x.c) (Nat.land x.b x.c)
  { a := (t1 + s0 + mj) % 2 ^ 32, b := x.a, c := x.b, d := x.c, e := (x.d + t1) % 2 ^ 32, f := x.e, g := x.f, h := x.g }

/-- Compress one 64-byte block. -/
def shaBlock (h : List Nat) (b : Bytes) : List Nat :=
  let w := (iter shaExpand 48 ((List.range 16).map fun i => ofBe (slice b (4 * i) 4)).reverse).reverse
  let x : ShaSt := ⟨h.getD 0 0, h.getD 1 0, h.getD 2 0, h.getD 3 0, h.getD 4 0, h.getD 5 0, h.getD 6 0, h.getD 7 0⟩
  let y := ((shaK0 ++ shaK1).zip w).foldl shaRound x
  List.zipWith (fun p q => (p + q) % 2 ^ 32) h [y.a, y.b, y.c, y.d, y.e, y.f, y.g, y.h]

/-- Compress `n` blocks. -/
def shaBlocks : Nat → List Nat → Bytes → List Nat
  | 0, h, _ => h
  | n + 1, h, b => shaBlocks n (shaBlock h (b.take 64)) (b.drop 64)

/-- SHA-256 of a byte string. -/
def sha256 (m : Bytes) : Bytes :=
  let z := (119 - m.length % 64) % 64
  let p := m ++ [0x80] ++ List.replicate z 0 ++ beBytes 8 (8 * m.length)
  (shaBlocks (p.length / 64) shaInit p).flatMap (beBytes 4)

/-! ## P-256 -/

/-- The field prime. -/
def p256P : Nat := 2 ^ 256 - 2 ^ 224 + 2 ^ 192 + 2 ^ 96 - 1

/-- The coefficient b. -/
def p256B : Nat := 0x5AC635D8AA3A93E7B3EBBD55769886BC651D06B0CC53B0F63BCE3C3E27D2604B

/-- The group order. -/
def p256N : Nat := 0xFFFFFFFF00000000FFFFFFFFFFFFFFFFBCE6FAADA7179E84F3B9CAC2FC632551

/-- The base point. -/
def p256G : Nat × Nat :=
  (0x6B17D1F2E12C4247F8BCE6E563A440F277037D812DEB33A0F4A13945D898C296, 0x4FE342E2FE1A7F9B8EE7EB4A7C0F9E162BCE33576B315ECECBB6406837BF51F5)

/-- `a ^ e mod m` over the low `k` bits of `e`. -/
def powMod (m : Nat) : Nat → Nat → Nat → Nat → Nat
  | 0, _, _, acc => acc
  | k + 1, a, e, acc => powMod m k (a * a % m) (e / 2) (if e % 2 = 1 then acc * a % m else acc)

/-- The inverse modulo a prime. -/
def invMod (m a : Nat) : Nat := powMod m 256 (a % m) (m - 2) 1

/-- Subtract modulo m, for reduced numbers. -/
def subMod (m a b : Nat) : Nat := (a + m - b) % m

/-- Points of the curve; none is the point at infinity. -/
abbrev EcPt := Option (Nat × Nat)

/-- Add two points. -/
def ecAdd : EcPt → EcPt → EcPt
  | none, q => q
  | p, none => p
  | some (x1, y1), some (x2, y2) =>
    let m := p256P
    if x1 = x2 ∧ (y1 + y2) % m = 0 then none
    else
      let l := if x1 = x2 then (3 * (x1 * x1) + (m - 3)) * invMod m (2 * y1) % m else subMod m y2 y1 * invMod m (subMod m x2 x1) % m
      let x3 := subMod m (subMod m (l * l % m) x1) x2
      some (x3, subMod m (l * subMod m x1 x3 % m) y1)

/-- Multiply a point by the low `n` bits of `k`. -/
def ecMul : Nat → Nat → EcPt → EcPt → EcPt
  | 0, _, _, acc => acc
  | n + 1, k, p, acc => ecMul n (k / 2) (ecAdd p p) (if k % 2 = 1 then ecAdd acc p else acc)

/-- Whether a pair of numbers is a point of the curve. -/
def ecOn (x y : Nat) : Bool :=
  let m := p256P
  decide (x < m) && decide (y < m) && y * y % m == (x * x % m * x + (m - 3) * x + p256B) % m

/-- ECDSA verification of a digest with a public key. -/
def ecdsaOk (x y r s : Nat) (digest : Bytes) : Bool :=
  let n := p256N
  let ok := ecOn x y && decide (0 < r) && decide (r < n) && decide (0 < s) && decide (s < n)
  let w := invMod n s
  let z := ofBe digest
  match ecAdd (ecMul 256 (z * w % n) (some p256G) none) (ecMul 256 (r * w % n) (some (x, y)) none) with
  | some (x1, _) => ok && x1 % n == r
  | none => false

/-- The public key of a secret one: x then y, big-endian. -/
def ecPub (d : Nat) : Bytes :=
  match ecMul 256 d (some p256G) none with
  | some (x, y) => beBytes 32 x ++ beBytes 32 y
  | none => List.replicate 64 0

/-- An ECDSA signature of a digest with a nonce: r then s, big-endian. -/
def ecSign (d k : Nat) (digest : Bytes) : Bytes :=
  let n := p256N
  match ecMul 256 k (some p256G) none with
  | some (x, _) =>
    let r := x % n
    beBytes 32 r ++ beBytes 32 (invMod n k * (ofBe digest + r * d) % n)
  | none => List.replicate 64 0

end Sys2Proof.Machine
end

