-- ==== Sys2Proof/Machine/Colophon.lean ====
section
/-!
DEFINITION. The Colophon image as data (R384 to R391): headers, sections, and the checks of the verify pass in the order of the table of R391.
-/

namespace Sys2Proof.Machine

/-- The table windows (R435): base, size, and whether a WINDOW section may write them (R437). -/
def windows : List (Nat × Nat × Bool) :=
  [(0x400000, 0x80000, true), (0x480000, 0x40000, true), (0x4C0000, 0x40000, true), (0x500000, 0xC00, true), (0x502000, 0x2000, true),
   (0x520000, 0x20000, false), (0x540000, 0x20000, true), (0x580000, 0x40000, true), (0x5C0000, 0x8000, true), (0x600000, 0x80000, false),
   (0x800000, 0x300000, false)]

/-- Whether `n` bytes at an address lie in one writable window. -/
def inWritableWindow (a n : Nat) : Bool :=
  windows.any fun (b, z, w) => w && decide (b ≤ a) && decide (a + n ≤ b + z)

/-- Whether an address names a register with an RW field. -/
def hasRw (a : Nat) : Bool :=
  match famOf a with
  | some f => f.flds.any fun x => x.acc == .rw
  | none => false

/-- The header of a copy where it is usable (R384, R390), its length within the 16 MiB of a copy (R381); else the offset of its first unusable field. [DEDUCED, log 123] -/
def parseHeader (h : Bytes) : Nat ⊕ ImgHdr :=
  let l := leAt h 8 4
  if leAt h 0 4 ≠ 0x4C4F434B then .inl 0
  else if leAt h 4 2 ≠ 1 then .inl 4
  else if leAt h 6 2 ≠ 64 then .inl 6
  else if crc32c (slice h 0 60) ≠ leAt h 60 4 then .inl 60
  else if l < 64 ∨ 16777216 < l ∨ l % 8 ≠ 0 then .inl 8
  else .inr { len := l, seq := leAt h 12 4, sections := leAt h 16 2, signed := bitOf (leAt h 18 2) 0, sck := byteAt h 20 % 4,
              quad := bitOf (byteAt h 20) 2 }

/-- A section: offset, type, OPTIONAL, body length. -/
structure Section where
  off : Nat
  ty : Nat
  optional : Bool
  len : Nat
  deriving DecidableEq, Repr

/-- The body of a section. -/
def Section.body (x : Section) (img : Bytes) : Bytes := slice img (x.off + 8) x.len

/-- Where a section's padding ends. -/
def Section.next (x : Section) : Nat := (x.off + 12 + x.len + 7) / 8 * 8

/-- Whether a section's CRC passes (R385). -/
def Section.crcOk (x : Section) (img : Bytes) : Bool := crc32c (slice img x.off (8 + x.len)) == leAt img (x.off + 8 + x.len) 4

/-- The sections that tile bytes `off` to `l`; none with the offset where they do not (R385). Padding that is not 0x00 breaks the layout. [DEDUCED, log 123] -/
def sectionsFrom (img : Bytes) (l : Nat) : Nat → Nat → Nat ⊕ List Section
  | 0, off => .inl off
  | k + 1, off =>
    if off = l then .inr []
    else
      let x : Section := ⟨off, leAt img off 2, bitOf (leAt img (off + 2) 2) 0, leAt img (off + 4) 4⟩
      let e := x.off + 12 + x.len
      if l < x.next ∨ !((slice img e (x.next - e)).all (· == 0)) then .inl off
      else
        match sectionsFrom img l k x.next with
        | .inl o => .inl o
        | .inr r => .inr (x :: r)

/-- The module blocks of an NMAP body (R387): module, rank mask, TREF, and the entries' offset; none where the body breaks R387. -/
def nmapBlocks (b : Bytes) : Nat → Nat → Option (List (Nat × Nat × Nat × Nat))
  | 0, _ => none
  | k + 1, o =>
    if o = b.length then some []
    else if b.length < o + 8 then none
    else
      let m := byteAt b o
      let r := byteAt b (o + 1)
      if 31 < m ∨ r = 0 ∨ 15 < r ∨ 15 < byteAt b (o + 3) ∨ leAt b (o + 4) 4 ≠ 0 then none
      else
        let nxt := o + 8 + 4096 * popcount 4 r
        if b.length < nxt then none else (nmapBlocks b k nxt).map fun t => (m, r, leAt b (o + 2) 2 % 4096, o + 8) :: t

/-- Whether a section type is known (R386). -/
def knownType (t : Nat) : Bool := decide (1 ≤ t ∧ t ≤ 6) || t == 0xFFFF

/-- Whether a body keeps R386 to R388 (R391): an INFO and a SIGNATURE body are bound by no CONTENT check. -/
def contentOk (t : Nat) (b : Bytes) : Bool :=
  let n := b.length
  if t = 1 then n % 8 == 0 && (List.range (n / 8)).all fun i => leAt b (8 * i) 4 % 4 == 0 && hasRw (leAt b (8 * i) 4)
  else if t = 2 then decide (8 ≤ n) && n % 4 == 0 && leAt b 0 4 % 4 == 0 && inWritableWindow (leAt b 0 4) (n - 4)
  else if t = 3 then (nmapBlocks b (n / 8 + 1) 0).isSome
  else if t = 4 then
    n == 96 && (List.range 4).all fun p => decide (byteAt b (16 + 20 * p) ≤ 1) && leAt b (17 + 20 * p) 3 == 0
  else if t = 5 then decide (4 ≤ n) && decide (n ≤ 256) && n % 4 == 0 && (List.range (n / 4)).all fun i => byteAt b (4 * i + 3) == 0x80
  else true

/-- The codes of R391. -/
inductive CopyErr where
  | flash | header | layout | sectCrc | type | content | unsigned | key | sigBad | apply
  deriving DecidableEq, Repr

/-- Their numbers. -/
def copyCode : CopyErr → Nat
  | .flash => 1 | .header => 2 | .layout => 3 | .sectCrc => 4 | .type => 5 | .content => 6 | .unsigned => 7 | .key => 8 | .sigBad => 9 | .apply => 10

/-- The first section that fails a test, as a failure with its offset. -/
def firstBad (l : List Section) (ok : Section → Bool) (e : CopyErr) : Option (CopyErr × Nat) := (l.find? fun x => !ok x).map fun x => (e, x.off)

/-- Whether a SIGNATURE section's key has the fused hash (R389). -/
def keyOk (hash body : Bytes) : Bool := sha256 (body.take 64) == hash

/-- Whether a SIGNATURE section signs the image before it (R389). -/
def sigOk (img body : Bytes) (off : Nat) : Bool :=
  ecdsaOk (ofBe (slice body 0 32)) (ofBe (slice body 32 32)) (ofBe (slice body 64 32)) (ofBe (slice body 96 32)) (sha256 (img.take off))

/-- The verify pass of a copy (R391): the first check that fails, with the byte offset; or the sections, and whether a signature was verified. `inj`
makes the first section's CRC fail (R431). -/
def verifyCopy (h : ImgHdr) (keyHash : Option Bytes) (inj : Bool) (img : Bytes) : (CopyErr × Nat) ⊕ (List Section × Bool) :=
  match sectionsFrom img h.len (h.len / 8 + 1) 64 with
  | .inl o => .inl (.layout, o)
  | .inr secs =>
    if secs.length ≠ h.sections ∨ h.sections = 0 ∨ 4096 < h.sections then .inl (.layout, h.len)
    else if inj then .inl (.sectCrc, 64)
    else
      let lastOff := (secs.getLast?.map (·.off)).getD 0
      let sig := secs.getLast?.filter fun x => x.ty == 0xFFFF
      match firstBad secs (fun x => x.crcOk img) .sectCrc with
      | some e => .inl e
      | none =>
        match firstBad secs (fun x => (knownType x.ty || x.optional) && (x.ty != 0xFFFF || x.off == lastOff)) .type with
        | some e => .inl e
        | none =>
          if sig.isSome ≠ h.signed then .inl (.type, lastOff)
          else
            match firstBad secs (fun x => !knownType x.ty || contentOk x.ty (x.body img)) .content with
            | some e => .inl e
            | none =>
              match keyHash, sig with
              | none, _ => .inr (secs, false)
              | some _, none => .inl (.unsigned, 0)
              | some k, some x =>
                if !keyOk k (x.body img) then .inl (.key, x.off)
                else if !sigOk img (x.body img) x.off then .inl (.sigBad, x.off)
                else .inr (secs, true)

end Sys2Proof.Machine
end

