-- ==== Sys2Proof/Machine/GatherOps.lean ====
section
/-!
DEFINITION. Steps 1 to 7 of gathering (R72 to R116): columns and colours, level expansion, the pass mask and pass substitution, the kettle stitch and takeover,
tipping-in, density trim, energy index and the firing-energy governor.
-/

namespace Sys2Proof.Machine

/-! ## Contexts, modules, nozzles -/

/-- Whether context c is enabled. -/
def State.ctxOn (s : State) (c : Nat) : Bool := bitOf (s.g (F.QRE_CTXEN_EN (c / 32))) (c % 32)

/-- Enabled contexts. -/
def State.ctxs (s : State) : List Nat := (List.range 128).filter s.ctxOn

/-- Whether a module has an enabled context. -/
def State.modOn (s : State) (m : Nat) : Bool := (List.range 4).any fun r => s.ctxOn (4 * m + r)

/-- Modules with an enabled context. -/
def State.mods (s : State) : List Nat := (List.range 32).filter s.modOn

/-- Scanning mode (R1). -/
def State.scanning (s : State) : Bool := s.gb F.GLB_CFG_MODE

/-- The nozzle-map entry in force of nozzle q of module m (R201). -/
def State.nz (s : State) (m q : Nat) : Nat :=
  let a := 0x400000 + 4 * (4096 * m + q)
  if s.addrBad a then 5 * 2 ^ 29 else s.winWord a

/-- STATE of an entry (R199). -/
def nzState (w : Nat) : Nat := bitsOf w 31 29

/-- Usable: good or weak (R79). -/
def nzUsable (w : Nat) : Bool := decide (nzState w ≤ 1)

/-- Dead: open, short, optical-dead, disabled, and the reserved code, which acts as disabled (R79, R200). [DEDUCED, log 55] -/
def nzDead (w : Nat) : Bool := !nzUsable w && nzState w != 6

/-- Ranks per colour (R72). -/
def layoutK (lay : Nat) : Nat := if lay = 0 then 1 else if lay = 1 then 2 else 4

/-- Colour group of a rank. -/
def groupOf (lay r : Nat) : Nat := r / layoutK lay

/-- Column of nozzle n of rank r (R72). -/
def columnOf (lay r n : Nat) : Nat := layoutK lay * n + r % layoutK lay

/-- The module index of the nozzle at a column of a colour group. -/
def nozzleAt (lay g j : Nat) : Nat := 1024 * (layoutK lay * g + j % layoutK lay) + j / layoutK lay

/-- LAYOUT of module m; the reserved code counts as one colour. [DEDUCED, log 55] -/
def State.layout (s : State) (m : Nat) : Nat := s.g (F.GTH_MODCFG_LAYOUT m)

/-- Dither entry DT[a][b], values above 399 acting as 399. -/
def State.dt (s : State) (a b : Nat) : Nat :=
  let o := (64 * a + b) * 2
  satN 399 (bitsOf (s.winWord (0x502000 + o / 4 * 4)) (8 * (o % 4) + 15) (8 * (o % 4)))

/-- The applied trim of nozzle q of module m, signed (R98). -/
def State.trimOf (s : State) (m q : Nat) : Int :=
  let o := 4096 * m + q
  sext 8 (bitsOf (s.winWord (0x520000 + o / 4 * 4)) (8 * (o % 4) + 7) (8 * (o % 4)))

/-- Set an applied trim. -/
def State.setTrim (s : State) (m q : Nat) (v : Int) : State :=
  let o := 4096 * m + q
  let a := 0x520000 + o / 4 * 4
  s.setWin a (putBits (s.winWord a) (8 * (o % 4) + 7) (8 * (o % 4)) (toBits 8 v))

/-- The trim target of nozzle q of module m (DTRIM). -/
def State.trimTarget (s : State) (m q : Nat) : Int := sext 7 (bitsOf (s.nz m q) 24 18)

/-- Modules of which the nozzle map or the applied trims hold a word other than 0: in any other, every trim and every target is 0. -/
def State.trimMods (s : State) : List Nat :=
  (List.range 32).filter fun m => s.win.any fun e =>
    decide (0x400000 + 0x4000 * m ≤ e.1 ∧ e.1 < 0x404000 + 0x4000 * m) || decide (0x520000 + 0x1000 * m ≤ e.1 ∧ e.1 < 0x521000 + 0x1000 * m)

/-- Every applied trim takes its target (R98, entry to RUN). -/
def State.trimLoad (s : State) : State :=
  s.trimMods.foldl (fun s m => (List.range 4096).foldl (fun s q => s.setTrim m q (s.trimTarget m q)) s) s

/-- One step of every nozzle's applied trim toward its target (R98). [DEDUCED, log 71] -/
def State.trimStep (s : State) : State :=
  s.trimMods.foldl (fun s m => (List.range 4096).foldl (fun s q =>
    let a := s.trimOf m q
    let t := s.trimTarget m q
    if a < t then s.setTrim m q (a + 1) else if t < a then s.setTrim m q (a - 1) else s) s) s

/-- Levels by context; none: the context-line is blank or not enabled. -/
abbrev Levels := Sparse (Option (List Nat))

/-- The levels of a context. -/
def lv (l : Levels) (c : Nat) : Option (List Nat) := spGet none l c

/-- The level of nozzle n of context c, 0 where the context-line is blank. -/
def lvAt (l : Levels) (c n : Nat) : Nat := ((lv l c).map fun x => x.getD n 0).getD 0

/-- Set one level of a context-line that is not blank. -/
def lvSet (l : Levels) (c n v : Nat) : Levels := spMod none l c (Option.map fun x => x.set n v)

/-! ## Step 1 -/

/-- The codes of a context-line of b bits (R40). -/
def unpackLine (bpn : Nat) (b : Bytes) : List Nat :=
  (List.range 1024).map fun n =>
    let k := n * bpn
    bitsOf (leAt b (k / 8) 2) (k % 8 + bpn - 1) (k % 8)

/-- A code's level (R80). -/
def State.expand (s : State) (m r bpn code : Nat) : Nat :=
  let k := bitsOf (s.act (F.GTH_MODCFG_EXP m).addr) (21 + 2 * r) (20 + 2 * r)
  if bpn = 3 then code
  else if code = 0 then 0
  else if bpn = 1 then s.g (F.GTH_EXPSET_L1C1 k)
  else if code = 1 then s.g (F.GTH_EXPSET_L2C1 k)
  else if code = 2 then s.g (F.GTH_EXPSET_L2C2 k)
  else s.g (F.GTH_EXPSET_L2C3 k)

/-! ## Step 2: pass mask and pass substitution (R89 to R91) -/

/-- Passes P. -/
def State.passes (s : State) : Nat := s.g F.GTH_SCANCFG_PM1 + 1

/-- Interlace I; the reserved code counts as 4. [DEDUCED, log 55] -/
def State.ilace (s : State) : Nat := if s.g F.GTH_SCANCFG_ILACE = 0 then 1 else if s.g F.GTH_SCANCFG_ILACE = 1 then 2 else 4

/-- The pass-mask entry for a paper row and a mask column (R90). -/
def State.passMask (s : State) (row u : Nat) : Nat :=
  let o := (1024 * (row % 128) + u % 1024) * 2
  if s.addrBad (0x4C0000 + o) then 0 else bitsOf (s.winWord (0x4C0000 + o / 4 * 4)) (8 * (o % 4) + 15) (8 * (o % 4))

/-- Bar column of nozzle q of module m. -/
def State.barCol (s : State) (m q : Nat) : Nat := s.g (F.GTH_MODCFG_BASE m) + columnOf (s.layout m) (q / 1024) (q % 1024)

/-- The key of a bar column of a colour group in the flag bitmap. -/
def colKey (g j : Nat) : Nat := g * 2 ^ 20 + j

/-- The flag bitmap of pass substitution, from the map in force (R91): the flagged bar columns, among the nozzles of enabled contexts. [DESIGN CHOICE, log 138] -/
def State.psubFlags (s : State) : List Nat :=
  if !s.gb F.GTH_SCANCFG_PSUB then []
  else
    let all := s.mods.flatMap fun m => (List.range 4096).filterMap fun q =>
      if s.ctxOn (4 * m + q / 1024) then
        let w := s.nz m q
        some (colKey (groupOf (s.layout m) (q / 1024)) (s.barCol m q), nzDead w, nzDead w && s.gb (F.GTH_SUBWT_PSUB (bitsOf w 28 25)))
      else none
    let keys := (all.filter fun x => x.2.2).map (·.1)
    keys.eraseDups.filter fun k => all.all fun x => x.1 != k || x.2.1

/-- Where a pixel designated to band pd goes: the first band of its cycle whose covering nozzle is not flagged (R91); the flag says none is. -/
def passTarget (flagged : Nat → Bool) (p i pd : Nat) : Nat → Nat → Nat × Bool
  | 0, _ => (pd, true)
  | fuel + 1, b =>
    if !flagged b then (b, false)
    else
      let b' := (b + i) % p
      if b' = pd then (pd, true) else passTarget flagged p i pd fuel b'

/-- Step 2 for one nozzle: whether its level is kept, and whether its own pixel found no substitute in this swath. [DEDUCED, log 119] -/
def State.passKeep (s : State) (sig u m q : Nat) : Bool × Bool :=
  let j := s.barCol m q
  let p := s.passes
  let i := s.ilace
  let w := s.g F.GTH_SCANCFG_BANDW
  if w = 0 ∨ p * w ≤ j then (false, false)
  else
    let own := j / w
    let k := (sig + 2 ^ 32 - s.g F.QRE_SIGBASE_NUM) % 2 ^ 32
    let row := i * j + i * w * k + k % i
    let mask := s.passMask row u
    if !s.gb F.GTH_SCANCFG_PSUB then (bitOf mask own, false)
    else
      let g := groupOf (s.layout m) (q / 1024)
      let flagged (b : Nat) : Bool := decide (own * w ≤ j + b * w) && s.gth.psub.contains (colKey g (j + b * w - own * w))
      let des := (List.range p).filter fun b => b % i == own % i && bitOf mask b
      des.foldl (fun (keep, miss) pd =>
        let (t, none') := passTarget flagged p i pd p pd
        (keep || t == own, miss || (none' && pd == own))) (false, false)

/-! ## Step 3: kettle stitch (R92 to R94) -/

/-- Whether seam sm is active for rank r. -/
def State.seamOn (s : State) (sm r : Nat) : Bool :=
  s.gb F.GTH_CTL_STITCHEN && decide (0 < s.g (F.GTH_SEAM_OVL sm)) && s.ctxOn (4 * sm + r) && s.ctxOn (4 * (sm + 1) + r)

/-- The stitch bit of a seam's position at a mask column. -/
def State.stitchBit (s : State) (sm i u : Nat) : Bool :=
  let b := u % 64
  let a := 0x500000 + 384 * s.g (F.GTH_SEAM_TABLE sm) + 8 * i + b / 32 * 4
  !s.addrBad a && bitOf (s.winWord a) (b % 32)

/-- One position of an active seam: the levels after it, and whether a takeover happened. [DEDUCED, log 119] -/
def State.stitchAt (s : State) (l : Levels) (sm r i u : Nat) : Levels × Nat :=
  let o := s.g (F.GTH_SEAM_OVL sm)
  let a := (sm, 1024 - o + i)
  let b := (sm + 1, i)
  let (sel, oth) := if s.stitchBit sm i u then (a, b) else (b, a)
  let cs := 4 * sel.1 + r
  let co := 4 * oth.1 + r
  let selW := s.nz sel.1 (1024 * r + sel.2)
  let othW := s.nz oth.1 (1024 * r + oth.2)
  if nzDead selW && nzUsable othW && (lv l co).isSome && (lv l cs).isSome then
    (lvSet (lvSet l co oth.2 (lvAt l cs sel.2)) cs sel.2 0, 1)
  else (lvSet l co oth.2 0, 0)

/-- Step 3 over every seam and rank; the number of takeovers. -/
def State.stitch (s : State) (l : Levels) (u : Nat) : Levels × Nat :=
  (List.range 31).foldl (fun acc sm => (List.range 4).foldl (fun acc r =>
    if s.seamOn sm r then
      (List.range (s.g (F.GTH_SEAM_OVL sm))).foldl (fun (l, n) i => let (l', t) := s.stitchAt l sm r i u; (l', n + t)) acc
    else acc) acc) (l, 0)

/-! ## Step 4: tipping-in (R95, R96) -/

/-- The weights of a set for offsets -2, -1, +1, +2. -/
def State.weights (s : State) (x : Nat) : List (Int × Nat) :=
  [(-2, s.g (F.GTH_SUBWT_WM2 x)), (-1, s.g (F.GTH_SUBWT_WM1 x)), (1, s.g (F.GTH_SUBWT_WP1 x)), (2, s.g (F.GTH_SUBWT_WP2 x))]

/-- The drops that the dead nozzles around column j of colour g give its nozzle. -/
def State.tipInto (s : State) (l : Levels) (m g j u : Nat) : Nat :=
  let lay := s.layout m
  let w := 1024 * layoutK lay
  let live (c : Int) : Bool := decide (0 ≤ c) && decide (c < w) &&
    (let q := nozzleAt lay g c.toNat; nzUsable (s.nz m q) && (lv l (4 * m + q / 1024)).isSome)
  sumL ([-2, -1, 1, 2].map fun (d : Int) =>
    -- the dead nozzle at offset -d gives through its weight for offset d
    let dj : Int := (j : Int) - d
    if dj < 0 ∨ (w : Int) ≤ dj then 0
    else
      let dq := nozzleAt lay g dj.toNat
      let e := s.nz m dq
      if !nzDead e then 0
      else
        let ws := s.weights (bitsOf e 28 25)
        let wt (x : Int) : Nat := ((ws.find? fun y => y.1 == x).map (·.2)).getD 0
        let we := wt d + (if live (dj - d) then 0 else wt (-d))
        let th := s.dt (u % 64) (j % 64) / 50
        (lvAt l (4 * m + dq / 1024) (dq % 1024) * we + th) / 8)

/-- Step 4 for module m: the levels in q order, and the drops lost to saturation. -/
def State.tip (s : State) (l : Levels) (m u : Nat) : List Nat × Nat :=
  let lay := s.layout m
  let r := (List.range 4096).map fun q =>
    let c := 4 * m + q / 1024
    let e := s.nz m q
    if (lv l c).isNone ∨ !nzUsable e then (0, 0)
    else
      let t := lvAt l c (q % 1024) +
        (if s.gb F.GTH_CTL_TIPEN then s.tipInto l m (groupOf lay (q / 1024)) (columnOf lay (q / 1024) (q % 1024)) u else 0)
      (satN 7 t, t - satN 7 t)
  (r.map (·.1), sumL (r.map (·.2)))

/-! ## Step 5: density trim (R97) -/

/-- One nozzle's level after its trim. -/
def trimLevel (l : Nat) (a : Int) (dt : Nat) : Nat :=
  if l = 0 then 0
  else
    let x := l * (400 + a).toNat
    satN 7 (x / 400 + (if dt < x % 400 then 1 else 0))

/-- Step 5 for module m. -/
def State.trimLevels (s : State) (m u : Nat) (l : List Nat) : List Nat :=
  let lay := s.layout m
  l.zipIdx.map fun (v, q) =>
    let j := columnOf lay (q / 1024) (q % 1024)
    trimLevel v (if s.gb F.GTH_CTL_TRIMEN then s.trimOf m q else 0) (s.dt (j % 64) (u % 64))

/-! ## Step 6: energy index (R107, R109, R110) -/

/-- History h of nozzle q of module m (h = 1 most recent). -/
def State.histAt (s : State) (m h q : Nat) : Nat :=
  (((spGet [] s.gth.hist m).getD (h - 1) []).getD q 0)

/-- The history code (R107); 0 where its SRAM word is poisoned (R430). -/
def State.histCode (s : State) (m q : Nat) : Nat :=
  if !s.gb F.FIR_CTL_HISTEN || s.sramBad 2 (1024 * m + q / 4) then 0
  else
    let h2 := s.histAt m 2 q
    let q2 := if h2 = 0 then 0 else if h2 ≤ s.g F.FIR_HCFG_Q2A then 1 else if h2 ≤ s.g F.FIR_HCFG_Q2B then 2 else 3
    8 * s.histAt m 1 q + 2 * q2 + (if s.g F.FIR_HCFG_H34T ≤ s.histAt m 3 q + s.histAt m 4 q then 1 else 0)

/-- Rank type (R109). -/
def State.rtype (s : State) (m r : Nat) : Nat := bitsOf (s.reg (F.FIR_MODCFG_RTYPE m).addr) (2 * r + 1) (2 * r)

/-- Energy-table entry ETAB[t][i] (R110). -/
def State.etab (s : State) (t i : Nat) : Nat :=
  let o := 65536 * t + i / 2
  if s.addrBad (0x480000 + o) then bitsOf (s.act F.FIR_FLOOR_FLt.addr) (4 * t + 3) (4 * t)
  else bitsOf (s.winWord (0x480000 + o / 4 * 4)) (8 * (o % 4) + 4 * (i % 2) + 3) (8 * (o % 4) + 4 * (i % 2))

/-- Step 6 for one nozzle with band b. -/
def State.energyIdx (s : State) (m q b lev : Nat) : Nat :=
  if lev = 0 then 0
  else s.etab (s.rtype m (q / 1024))
    (16384 * lev + 256 * s.histCode m q + 16 * b + (sext 4 (bitsOf (s.nz m q) 17 14) + 8).toNat)

/-! ## Step 7: the governor (R111 to R116) -/

/-- One nozzle in the governor: its index q, level, energy index and rank type. -/
structure Noz where
  q : Nat
  lev : Nat
  idx : Nat
  typ : Nat
  deriving DecidableEq, Repr

/-- Fire group of q (R102). -/
def Noz.g (x : Noz) : Nat := x.q % 16

/-- Position of q in its bundle (R102). -/
def Noz.p (x : Noz) : Nat := 64 * (x.q / 1024) + x.q % 1024 / 16

/-- Energy of a nozzle at index i (R111). -/
def State.nozE (s : State) (x : Noz) (i : Nat) : Nat := x.lev * s.g (F.FIR_EPD_E x.typ i)

/-- Floor index of a rank type. -/
def State.floorIdx (s : State) (t : Nat) : Nat := bitsOf (s.act F.FIR_FLOOR_FLt.addr) (4 * t + 3) (4 * t)

/-- An index lowered by d, not below its floor. -/
def State.lowIdx (s : State) (x : Noz) (d : Nat) : Nat :=
  let f := s.floorIdx x.typ
  if x.idx ≤ f then x.idx else Nat.max f (x.idx - d)

/-- The least d in 0 to 15 that meets a test, else 15. -/
def leastD (ok : Nat → Bool) : Nat := ((List.range 16).find? ok).getD 15

/-- The shave key inside a group or across the line (R114). -/
def shaveKey (across : Bool) (l : Nat) (x : Noz) : Nat :=
  let k := (x.p + 256 - 97 * l % 256) % 256
  if across then 256 * ((x.g + 16 - l % 16) % 16) + k else k

/-- Shave one drop of a set: the nozzle at the top level with the lowest key. None: every level is 0. -/
def shaveOne (across : Bool) (l : Nat) (sel : Noz → Bool) (xs : List Noz) : Option (List Noz) :=
  let top := maxL ((xs.filter sel).map (·.lev))
  if top = 0 then none
  else
    let c := (xs.filter sel).filter fun x => x.lev == top
    let k := minD 4096 (c.map (shaveKey across l))
    match c.find? fun x => shaveKey across l x == k with
    | some y => some (xs.map fun x => if x.q = y.q then { x with lev := top - 1 } else x)
    | none => none

/-- Shave while a set's energy is above a limit (R113); the drops shaved. -/
def State.shaveLoop (s : State) (across : Bool) (l : Nat) (sel : Noz → Bool) (lim : Int) : Nat → List Noz → List Noz × Nat
  | 0, xs => (xs, 0)
  | n + 1, xs =>
    if ((sumL ((xs.filter sel).map fun x => s.nozE x x.idx) : Nat) : Int) ≤ lim then (xs, 0)
    else
      match shaveOne across l sel xs with
      | some ys => let (zs, k) := s.shaveLoop across l sel lim n ys; (zs, k + 1)
      | none => (xs, 0)

/-- T_cfg in ns (R139). -/
def State.tcfg (s : State) : Nat := let h := s.g F.POS_LRMAX_HZ; if h = 0 then 0 else 1000000000 / h

/-- W_max in units of 0.0625 nJ (R112): mW times ns is pJ, and a unit is 62.5 pJ. -/
def State.wMax (s : State) : Nat := s.g F.FIR_GOVPWR_MW * 256 * s.tcfg * 2 / 125

/-- Whether a band throttles (R120). -/
def State.throttles (s : State) (b : Nat) : Bool := decide (s.g F.FIR_TCFG_THRBAND ≤ b)

/-- The window limit of a module in band b (R112). -/
def State.wLim (s : State) (b : Nat) : Nat :=
  if s.throttles b then s.wMax * (if s.g F.FIR_TCFG_THRSCL = 0 then 16 else s.g F.FIR_TCFG_THRSCL) / 16 else s.wMax

/-- What step 7 leaves of a module-line: the nozzles, whether an index was lowered, the drops shaved. -/
structure GovRes where
  xs : List Noz
  lowered : Bool
  shaved : Nat
  energy : Nat
  deriving DecidableEq, Repr

/-- Step 7 for module m, line l, band b (R113). -/
def State.governor (s : State) (m l b : Nat) (xs : List Noz) : GovRes :=
  let smax := 16 * s.g F.FIR_GOVSLOT_NJ
  let lmax := 16 * s.g F.FIR_GOVLINE_NJ
  let winprev := sumL ((spGet [] s.gth.win m).take 255)
  let lim : Int := min (lmax : Int) ((s.wLim b : Int) - (winprev : Int))
  let dg := (List.range 16).map fun g =>
    leastD fun d => decide (sumL ((xs.filter fun x => x.g == g).map fun x => s.nozE x (s.lowIdx x d)) ≤ smax)
  let dl := leastD fun d => decide (((sumL (xs.map fun x => s.nozE x (s.lowIdx x (Nat.max (dg.getD x.g 0) d))) : Nat) : Int) ≤ lim)
  let ys := xs.map fun x => { x with idx := s.lowIdx x (Nat.max (dg.getD x.g 0) dl) }
  let lowered := (xs.zip ys).any fun (x, y) => decide (y.idx < x.idx)
  let (ys, n1) := (List.range 16).foldl (fun (ys, n) g =>
    let (zs, k) := s.shaveLoop false l (fun x => x.g == g) smax 2048 ys
    (zs, n + k)) (ys, 0)
  let (ys, n2) := s.shaveLoop true l (fun _ => true) lim 32768 ys
  let ys := ys.map fun x => if x.lev = 0 then { x with idx := 0 } else x
  ⟨ys, lowered, n1 + n2, sumL (ys.map fun x => s.nozE x x.idx)⟩

/-- A fire word (R101). -/
def fireWord (x : Noz) : Nat := 16 * x.lev + x.idx

/-- What steps 1 to 7 compute of a line for every module with an enabled context. -/
structure LineRes where
  mods : List (Nat × GovRes)
  tipsat : Nat
  takeover : Nat
  psubMiss : Nat
  deriving DecidableEq, Repr

/-- The levels of step 1 and 2, from the raw codes of each context-line that is not blank (bits per nozzle and bytes), and the bar columns whose pixel found no
substitute (R91): the two nozzles of a seam share one. -/
def State.gatherLevels (s : State) (sig u : Nat) (raw : List (Nat × Nat × Bytes)) : Levels × List Nat :=
  raw.foldl (fun (l, miss) (c, bpn, b) =>
    let xs := (unpackLine bpn b).map (s.expand (c / 4) (c % 4) bpn)
    if s.scanning then
      let r := xs.zipIdx.map fun (v, n) =>
        let q := 1024 * (c % 4) + n
        let (keep, none') := s.passKeep sig u (c / 4) q
        (if keep then v else 0, if none' then [colKey (groupOf (s.layout (c / 4)) (q / 1024)) (s.barCol (c / 4) q)] else [])
      (spSet none l c (some (r.map (·.1))), miss ++ r.flatMap (·.2))
    else (spSet none l c (some xs), miss)) ([], [])

/-- Steps 1 to 7 of a line (R76); `raw` names the context-lines that are not blank, `band` each module's band. A rank not enabled is blank (R464); a module without an
enabled rank has no module-line. [DESIGN CHOICE, log 137] -/
def State.gatherLine (s : State) (sig l u : Nat) (raw : List (Nat × Nat × Bytes)) (band : Nat → Nat) : LineRes :=
  let (lv1, miss) := s.gatherLevels sig u raw
  let (lv3, take) := s.stitch lv1 u
  let rs := s.mods.map fun m =>
    let (l4, sat) := s.tip lv3 m u
    let l5 := s.trimLevels m u l4
    let xs := l5.zipIdx.map fun (v, q) => (⟨q, v, s.energyIdx m q (band m) v, s.rtype m (q / 1024)⟩ : Noz)
    (m, s.governor m l (band m) xs, sat)
  ⟨rs.map fun x => (x.1, x.2.1), sumL (rs.map fun x => x.2.2), take, miss.eraseDups.length⟩

end Sys2Proof.Machine
end

