-- ==== Sys2Proof/Machine/QuireOps.lean ====
section
/-!
DEFINITION. Operations of the quire block (R33 to R67): the store, ingress, re-sends, inflation and the look-ahead rings.
-/

namespace Sys2Proof.Machine

/-! ## Signatures and the directory -/

/-- The signed difference of two signature numbers (R33). -/
def sigDiff (a b : Nat) : Int := sext 32 (a + 2 ^ 32 - b % 2 ^ 32)

/-- The reference signature (R34). -/
def State.sRef (s : State) : Nat := if s.qre.started then s.g F.QRE_SIGCUR_NUM else s.g F.QRE_SIGBASE_NUM

/-- L_sig of a signature, where fixed (R34). -/
def State.lsig (s : State) (sig : Nat) : Option Nat := (s.qre.lsig.find? fun x => x.1 == sig).map (·.2)

/-- Bytes of a context-line at b bits. -/
def bLine (b : Nat) : Nat := 128 * b

/-- Declared size D. -/
def Quire.size (q : Quire) : Nat := q.count * bLine q.bpn

/-- Whether a quire has this key. -/
def Quire.is (q : Quire) (sig c first : Nat) : Bool := q.sig == sig && q.ctx == c && q.first == first

/-- Whether a quire covers a line. -/
def Quire.has (q : Quire) (sig c l : Nat) : Bool := q.sig == sig && q.ctx == c && decide (q.first ≤ l) && decide (l < q.first + q.count)

/-- The directory's quire with a key. -/
def State.quire (s : State) (sig c first : Nat) : Option Quire := s.qre.dir.find? fun q => q.is sig c first

/-- The quire covering a line. -/
def State.covering (s : State) (sig c l : Nat) : Option Quire := s.qre.dir.find? fun q => q.has sig c l

/-- Change the quire block. -/
def State.modQre (s : State) (f : QreSt → QreSt) : State := { s with qre := f s.qre }

/-- Change the quire with a key. -/
def State.modQuire (s : State) (sig c first : Nat) (f : Quire → Quire) : State :=
  s.modQre fun x => { x with dir := x.dir.map fun q => if q.is sig c first then f q else q }

/-- The signatures that have a quire in the directory; an aborted one has none (R67). -/
def State.openSigs (s : State) : List Nat := ((s.qre.dir.filter fun q => q.st != .aborted).map (·.sig)).eraseDups

/-- Whether a line is covered by a record (R45, R64). -/
def State.covered (s : State) (c sig l : Nat) : Bool :=
  s.qre.covers.any fun (c', sig', f, n) => c' == c && sig' == sig && decide (f ≤ l) && decide (l < f + n)

/-- Cover lines by a record. -/
def State.cover (s : State) (c sig first n : Nat) : State :=
  if n = 0 then s else s.modQre fun x => { x with covers := (c, sig, first, n) :: x.covers }

/-- Lines of a signature gathered so far. -/
def State.gathered (s : State) (sig : Nat) : Nat :=
  match s.gth.cur with
  | some c => if c.sig = sig then c.n else 0
  | none => 0

/-! ## The store (R46 to R48) -/

/-- Directory entries (R47). -/
def State.dirMax (s : State) : Nat := (if s.g F.QRE_CFG_DIRK = 0 then 1024 else s.g F.QRE_CFG_DIRK) * 1024

/-- Pages in use: those of stored quires and those that ingress fills. -/
def State.pagesUsed (s : State) : List Nat :=
  s.qre.dir.flatMap (·.pages) ++ s.qre.slots.flatMap fun x => match x.verdict with | .accept ps => ps | _ => []

/-- Whether a store page is quarantined (R47, R316). -/
def State.pageBad (s : State) (p : Nat) : Bool :=
  (List.range 64).any fun n => s.gb (F.MEM_QLIST_VALID n) && s.g (F.MEM_QLIST_PAGE n) == (s.stBase / 4096 + p) % 2 ^ 24

/-- The pages that quire data may take: those after the directory. -/
def State.dataPages (s : State) : Nat := s.g F.QRE_STPAGES_PAGES - s.dirMax * 16 / 4096

/-- Whether a store page lies in a retired subchannel (R320). -/
def State.pageRetired (s : State) (p : Nat) : Bool := s.memRetired (s.stBase + 4096 * p)

/-- Data pages in retired subchannels: of the DRAM pages from the store's first data page to its end, those of each (R291, R320). -/
def State.pagesRetired (s : State) : Nat :=
  let k := Nat.max 1 (cfgSubs s.mem.cfg)
  let upTo := fun p => Nat.min (s.stBase / 4096 + p) (cfgCap s.mem.cfg / 4096)
  (List.range k).foldl (fun n i =>
    if (s.sc i).st = .retired then
      n + ((upTo (s.g F.QRE_STPAGES_PAGES) + k - 1 - i) / k - (upTo (s.dirMax * 16 / 4096) + k - 1 - i) / k)
    else n) 0

/-- Free pages (QRE_STFREE): data pages neither in use nor quarantined nor in a retired subchannel (R47, R320). -/
def State.stFree (s : State) : Nat :=
  let lo := s.dirMax * 16 / 4096
  let hi := s.g F.QRE_STPAGES_PAGES
  let gone := ((List.range 64).filterMap fun n =>
      if s.gb (F.MEM_QLIST_VALID n) then some ((s.g (F.MEM_QLIST_PAGE n) + 2 ^ 24 - s.stBase / 4096 % 2 ^ 24) % 2 ^ 24) else none) ++ s.pagesUsed
  s.dataPages - s.pagesRetired - (gone.eraseDups.countP fun p => decide (lo ≤ p) && decide (p < hi) && !s.pageRetired p)

/-- Take `n` free pages, lowest first, looking at `fuel` pages from `p` on. [DESIGN CHOICE, log 20] -/
def State.takePages (s : State) (used : List Nat) : Nat → Nat → Nat → List Nat
  | 0, _, _ => []
  | fuel + 1, n, p =>
    if n = 0 ∨ s.g F.QRE_STPAGES_PAGES ≤ p then []
    else if used.contains p || s.pageBad p || s.pageRetired p then s.takePages used fuel n (p + 1)
    else p :: s.takePages used fuel (n - 1) (p + 1)

/-- The pages for `n` pages of quire data; none where too few are free. [DESIGN CHOICE, log 20] -/
def State.allocPages (s : State) (n : Nat) : Option (List Nat) :=
  let used := s.pagesUsed
  if s.stFree < n then none else some (s.takePages used (4 * (n + used.length + 64)) n (s.dirMax * 16 / 4096))

/-- Directory entries in use: quires that hold pages or wait for a copy (R47). [DESIGN CHOICE, log 131] -/
def State.dirHeld (s : State) : Nat := s.qre.dir.countP fun q => !q.pages.isEmpty || q.st == .resend

/-- Read a byte string's key: signature, context, first line (R37). -/
def keyOf (b : Bytes) : Nat × Nat × Nat := (leAt b 4 4, byteAt b 3 % 128, leAt b 8 4)

/-- Entries that step 5 of R44 has given to quires still being received, those that answer a request having one already. -/
def State.dirComing (s : State) : Nat :=
  s.qre.slots.countP fun x => match x.verdict with
    | .accept _ => (s.quire (keyOf x.buf).1 (keyOf x.buf).2.1 (keyOf x.buf).2.2).isNone
    | _ => false

/-- Directory entries taken (R44, R47). -/
def State.dirUsed (s : State) : Nat := s.dirHeld + s.dirComing

/-- Write a quire's bytes into its pages (master QING). -/
def State.storeQuire (s : State) (pages : List Nat) (b : Bytes) (node : Nat) : State :=
  pages.zipIdx.foldl (fun s (p, i) => (s.dramWrite (s.stBase + 4096 * p) ((b.drop (4096 * i)).take 4096) 1 node).2) s

/-- Read a quire's bytes from its pages (master QFETCH); none: an uncorrectable response. -/
def State.fetchQuire (s : State) (pages : List Nat) (n : Nat) : Option Bytes × State :=
  pages.zipIdx.foldl (fun (acc, s) (p, i) =>
    let (d, s) := s.dramRead (s.stBase + 4096 * p) (Nat.min 4096 (n - 4096 * i)) 0 0
    ((match acc, d with | some a, some d => some (a ++ d) | _, _ => none), s)) (some [], s)

/-! ## Re-sends (R59 to R66) -/

/-- Whether re-sends are requested at all (R66, R71). [DEDUCED, log 50] -/
def State.rsOn (s : State) : Bool := s.gb F.QRE_CTL_RSEN && decide (0 < s.g F.QRE_RSCFG_MAX)

/-- The next generation of a context (R59). -/
def State.nextGen (s : State) (c : Nat) : Nat × State :=
  let g := spGet 0 s.qre.gens c % 255 + 1
  (g, s.modQre fun x => { x with gens := spSet 0 x.gens c g })

/-- Requests outstanding (R63). -/
def State.rsOut (s : State) : Nat := s.qre.dir.countP fun q => q.st == .resend && decide (0 < q.attempt)

/-- Post the next attempt of a re-send (R60, R62). -/
def State.rsAttempt (s : State) (sig c first : Nat) : State :=
  match s.quire sig c first with
  | none => s
  | some q =>
    let (g, s) := s.nextGen c
    let s := ((s.modQuire sig c first fun q => { q with gen := g, attempt := q.attempt + 1 }).modQre fun x => { x with issued := spSet 0 x.issued c g }).inc
      F.QRE_CNT_RSREQ_COUNT
    s.post (s.g F.QRE_RSCFG_RING) DT.QUIRE_RESEND 0 (leBytes 4 sig ++ leBytes 4 first ++ leBytes 2 q.count ++ leBytes 1 c ++ leBytes 1 g
      ++ leBytes 1 q.reason ++ leBytes 1 (q.attempt + 1) ++ leBytes 2 q.src)

/-- Post the requests that waited, while fewer than 256 are outstanding (R63). -/
def State.rsNext : Nat → State → State
  | 0, s => s
  | n + 1, s =>
    match s.qre.waiting with
    | [] => s
    | (sig, c, first) :: r =>
      if 256 ≤ s.rsOut then s
      else State.rsNext n ((s.modQre fun x => { x with waiting := r }).rsAttempt sig c first)

/-- A re-send is over: it waits no more. -/
def State.rsClose (s : State) (sig c first : Nat) : State :=
  s.modQre fun x => { x with waiting := x.waiting.filter fun w => w != (sig, c, first) }

/-- A re-send ends without a good copy, or a deadline cancels it (R64): the generation advances, one GTH_LATE record of stage RESEND covers the lines from `start`, and
the reserved bytes are blank (R55). Where no line is left to cover there is no record; nor is there one for a retired lane (R195). [DEDUCED, log 12; DESIGN CHOICE, log 143] -/
def State.rsExhaust (s : State) (sig c first start : Nat) : State :=
  match s.quire sig c first with
  | none => s
  | some q =>
    let (_, s) := (s.rsClose sig c first).nextGen c
    let s := s.modQuire sig c first fun q => { q with st := .blank, pages := [], attempt := 0 }
    let a := Nat.max start first
    let n := first + q.count - a
    if n = 0 then s
    else ((if (s.lane (c / 4)).stage = .retired then id else fun s : State => s.record { c := E.GTH_LATE, inst := 2, ctxType := 1, ctx := ctxLine (c / 4) (c % 4) sig a, key := [1, c, a], count := n, handles := true }) s).cover c sig a n

/-- Ask for a re-send (R47, R51, R52, R60): the stored copy's pages are free at once. [DEDUCED, log 50] -/
def State.rsRequest (s : State) (sig c first reason : Nat) : State :=
  let s := s.modQuire sig c first fun q => { q with st := .resend, pages := [], reason, attempt := 0, retried := false }
  if s.rsOn then (s.modQre fun x => { x with waiting := x.waiting ++ [(sig, c, first)] }).rsNext 1
  else s.rsExhaust sig c first (s.gathered sig)

/-- An attempt ends (R62): the next one is posted, or the re-send ends. -/
def State.rsEndAttempt (s : State) (sig c first : Nat) : State :=
  match s.quire sig c first with
  | none => s
  | some q =>
    if q.st ≠ .resend ∨ q.attempt = 0 then s
    else if q.attempt < s.g F.QRE_RSCFG_MAX then s.rsAttempt sig c first
    else (s.rsExhaust sig c first (s.gathered sig)).rsNext 1

/-- RSEN reads 0 (R71): every re-send ends at once. -/
def State.rsOff (s : State) : State :=
  if s.gb F.QRE_CTL_RSEN then s
  else (s.qre.dir.filter fun q => q.st == .resend).foldl (fun s q => s.rsExhaust q.sig q.ctx q.first (s.gathered q.sig)) s

/-! ## Ending signatures -/

/-- Free every quire of a signature and cancel its re-sends without a record (R67, R88, R412). [DEDUCED, log 118] -/
def State.dropSig (s : State) (sig : Nat) (dead : Bool) : State :=
  s.modQre fun x =>
    { x with dir := x.dir.filter (fun q => q.sig != sig), lsig := x.lsig.filter (fun y => y.1 != sig), covers := x.covers.filter (fun y => y.2.1 != sig),
             waiting := x.waiting.filter (fun y => y.1 != sig), dead := if dead && !x.dead.contains sig then sig :: x.dead else x.dead }

/-- The signature is aborted (R55, R67): its quires are freed, its re-sends cancelled without a record; ring bytes that were reserved or released are blank until
gathering passes them. Its length, where fixed, is forgotten. [DESIGN CHOICE, log 134] -/
def State.abortSig (s : State) (sig : Nat) : State :=
  let kept := s.qre.dir.filterMap fun q =>
    if q.sig != sig then some q
    else if q.reserved && decide (q.taken < q.count) then some { q with st := .aborted, pages := [], data := [], attempt := 0 }
    else none
  (s.dropSig sig true).modQre fun x => { x with dir := kept }

/-- Empty the quire state as entry to STANDBY does (R54, R412). A quire still being received goes on. [DESIGN CHOICE, log 133] -/
def State.emptyQuires (s : State) : State :=
  s.modQre fun x => { x with dir := [], lsig := [], accepted := [], dead := [], covers := [], waiting := [], started := false }

/-- A write changed QRE_CTXEN (R54): the quire state is emptied and the look-ahead divided anew, each ring beginning at its base. [DESIGN CHOICE, log 22] -/
def State.divideRings (s : State) : State := s.emptyQuires.modQre fun x => { x with ringEnd := [] }

/-! ## Ingress (R43 to R46) -/

/-- The fields of a quire header (R37). -/
structure QHdr where
  ctxByte : Nat
  sig : Nat
  first : Nat
  count : Nat
  bpn : Nat
  flags : Nat
  clen : Nat
  gen : Nat
  resv : Nat
  deriving DecidableEq, Repr

/-- Read a header. -/
def parseQHdr (h : Bytes) : QHdr :=
  { ctxByte := byteAt h 3, sig := leAt h 4 4, first := leAt h 8 4, count := leAt h 12 2, bpn := byteAt h 14, flags := byteAt h 15,
    clen := leAt h 16 4, gen := byteAt h 20, resv := leAt h 21 7 }

/-- What the checks of steps 1 to 5 decide. -/
inductive HdrRes where
  | discard | hold | accept (pages : List Nat)
  deriving DecidableEq, Repr

/-- b of a context in a signature, 0 where none (R42). -/
def State.sigBpn (s : State) (sig c : Nat) : Nat := ((s.qre.dir.find? fun q => q.sig == sig && q.ctx == c).map (·.bpn)).getD 0

/-- Step 2 of R44. Bit 7 of the context byte is one of its fields. [DESIGN CHOICE, log 130] -/
def State.qFieldsOk (s : State) (h : QHdr) : Bool :=
  let c := h.ctxByte % 128
  let d := h.count * bLine h.bpn
  let prev := s.sigBpn h.sig c
  !bitOf h.ctxByte 7 && s.ctxOn c && decide (1 ≤ h.bpn) && decide (h.bpn ≤ s.g F.QRE_CFG_MAXBPN) && (prev == 0 || prev == h.bpn)
    && decide (1 ≤ h.count) && decide (h.count ≤ 1024) && decide (d ≤ s.g F.QRE_CFG_QMAXKIB * 1024)
    && decide (h.flags < 8) && !(bitOf h.flags 0 && bitOf h.flags 2) && h.resv == 0
    && (if bitOf h.flags 0 then h.clen == d else decide (1 ≤ h.clen) && decide (h.clen ≤ d + 1024))

/-- The lines that a rejected quire named and no valid quire covers are covered by its record (R45). -/
def State.coverNamed (s : State) (c sig first count : Nat) : State :=
  (List.range count).foldl (fun s i =>
    let l := first + i
    match s.covering sig c l with
    | some q => if q.st = .resend ∨ q.st = .blank then s.cover c sig l 1 else s
    | none => s.cover c sig l 1) s

/-- Whether an arriving quire's lines overlap a stored quire with a different first line. [DEDUCED, log 49] -/
def State.overlaps (s : State) (h : QHdr) : Bool :=
  s.qre.dir.any fun q => q.sig == h.sig && q.ctx == h.ctxByte % 128 && q.first != h.first && decide (q.first < h.first + h.count) && decide (h.first < q.first + q.count)

/-- Whether lines reach L_sig or beyond, or LAST disagrees with it. -/
def State.lenBad (s : State) (h : QHdr) : Bool :=
  match s.lsig h.sig with
  | some l => decide (l < h.first + h.count) || (bitOf h.flags 1 && h.first + h.count != l)
  | none => false

/-- Steps 1 to 5 of R44 on a header from a source. A record of step 2 or 4 names the first of the quire's lines. [DEDUCED, log 49, 117; DESIGN CHOICE, log 144] -/
def State.ingressHeader (s : State) (src : Nat) (b : Bytes) (port : Nat) : HdrRes × State :=
  let inj := s.injAny 0x01
  let h := parseQHdr b
  let c := h.ctxByte % 128
  let ctx := ctxQuire h.sig c h.gen h.first
  if inj ∨ crc32c (slice b 0 28) ≠ leAt b 28 4 ∨ leAt b 0 2 ≠ 0x4B51 ∨ byteAt b 2 ≠ 1 then
    let s := if inj then s.injUse else s
    (.discard, (s.inc F.QRE_CNT_HDR_COUNT).record { c := E.QRE_HDR, ctxType := 5, ctx := ctxNode src port 0xFF 0, inj })
  else if !s.qFieldsOk h then
    (.discard, ((s.inc F.QRE_CNT_HDR_COUNT).record { c := E.QRE_HDRFIELD, ctxType := 3, ctx }).coverNamed c h.sig h.first h.count)
  else
    let d := sigDiff h.sig s.sRef
    if d < 0 ∨ s.qre.dead.contains h.sig then (.discard, s.inc F.QRE_CNT_STALE_COUNT)
    else if 4096 ≤ d ∨ (!s.openSigs.contains h.sig ∧ 4096 ≤ s.openSigs.length) then (.hold, s)
    else
      let old := s.quire h.sig c h.first
      let wanted := old.any fun q => q.st == .resend
      if old.any fun q => q.st == .blank then (.discard, s.inc F.QRE_CNT_STALE_COUNT)
      else if old.isSome && !wanted then (.discard, s.inc F.QRE_CNT_DUP_COUNT)
      else if wanted && !(old.any fun q => q.gen == h.gen && decide (0 < q.attempt)) then (.discard, s.inc F.QRE_CNT_STALE_COUNT)
      else if s.overlaps h then
        (.discard, ((s.inc F.QRE_CNT_HDR_COUNT).record { c := E.QRE_OVERLAP, ctxType := 3, ctx }).coverNamed c h.sig h.first h.count)
      else if s.lenBad h then
        (.discard, ((s.inc F.QRE_CNT_HDR_COUNT).record { c := E.QRE_SIGLEN, ctxType := 3, ctx }).coverNamed c h.sig h.first h.count)
      else
        match s.allocPages (cdiv (40 + h.clen) 4096) with
        | none => (.hold, s)
        | some ps => if old.isNone && decide (s.dirMax ≤ s.dirUsed) then (.hold, s) else (.accept ps, s)

/-- Step 6 of R44 and what follows it: the last trailer byte has arrived, or the quire was ended early (R348). Quires of two sources meet in the directory only. [DEDUCED, log 12; DESIGN CHOICE, log 140] -/
def State.ingressDone (s : State) (x : Slot) (ended : Bool) : State :=
  let s := s.modQre fun y => { y with slots := y.slots.filter fun z => z.src != x.src }
  match x.verdict with
  | .accept pages =>
    let h := parseQHdr x.buf
    let c := h.ctxByte % 128
    let inj := s.injAny 0x02
    let s := if inj then s.injUse else s
    let old := s.quire h.sig c h.first
    let wanted := old.any fun q => q.st == .resend && q.gen == h.gen && decide (0 < q.attempt)
    let stale := decide (sigDiff h.sig s.sRef < 0) || s.qre.dead.contains h.sig
    if ended ∨ inj ∨ crc32c (slice x.buf 32 h.clen) ≠ leAt x.buf (32 + h.clen) 4 then
      let s := s.inc F.QRE_CNT_PCRC_COUNT
      if wanted then (s.modQuire h.sig c h.first fun q => { q with reason := 1 }).rsEndAttempt h.sig c h.first
      else if old.isNone && !stale then
        let q : Quire := { sig := h.sig, ctx := c, first := h.first, count := h.count, bpn := h.bpn, isStored := bitOf h.flags 0, last := bitOf h.flags 1,
                           flush := bitOf h.flags 2, clen := h.clen, src := x.src, st := .resend }
        (s.modQre fun y => { y with dir := y.dir ++ [q] }).rsRequest h.sig c h.first 1
      else s
    else if stale ∨ (old.isSome ∧ !wanted) then
      if stale || old.any (fun q => q.st == .blank || q.st == .resend) then s.inc F.QRE_CNT_STALE_COUNT else s.inc F.QRE_CNT_DUP_COUNT
    else
      let s := s.storeQuire pages (x.buf.take (40 + h.clen)) x.src
      let ord := s.qre.order
      let put (q : Quire) : Quire := { q with isStored := bitOf h.flags 0, flush := bitOf h.flags 2, clen := h.clen, pages, st := .stored, retried := false, order := ord, attempt := 0 }
      let fresh : Quire := { sig := h.sig, ctx := c, first := h.first, count := h.count, bpn := h.bpn, isStored := false, last := bitOf h.flags 1, flush := false,
                             clen := 0, src := x.src }
      let s := if old.isSome then (s.rsClose h.sig c h.first).modQuire h.sig c h.first put else s.modQre fun y => { y with dir := y.dir ++ [put fresh] }
      let s := s.modQre fun y =>
        { y with order := ord + 1, accepted := if y.accepted.contains h.sig then y.accepted else h.sig :: y.accepted,
                 lsig := if bitOf h.flags 1 && (s.lsig h.sig).isNone then (h.sig, h.first + h.count) :: y.lsig else y.lsig }
      match old with
      | some q =>
        let s := (s.inc F.QRE_CNT_RSOK_COUNT).record { c := E.QRE_RECOVERED, inst := q.reason, ctxType := 3, ctx := ctxQuire h.sig c h.gen h.first }
        s.rsNext 1
      | none => s
  | .none => if ended then s.inc F.QRE_CNT_PCRC_COUNT else s
  | .discard => s

/-- Add a frame's bytes to a source's slot; none: the frame is held (R46). The rest of a quire discarded at its header is skipped by that header's length. [DESIGN CHOICE, log 139] -/
def State.slotAdd (s : State) (x : Slot) (port : Nat) (data : Bytes) : Option State :=
  let x : Slot := { x with buf := x.buf ++ data }
  let put (s : State) (x : Slot) : State := s.modQre fun y => { y with slots := y.slots.filter (fun z => z.src != x.src) ++ [x] }
  let finish (s : State) (x : Slot) : State :=
    let total := 40 + (parseQHdr x.buf).clen
    let s := put s x
    if x.verdict ≠ .none ∧ 32 ≤ x.buf.length ∧ total ≤ x.buf.length then s.ingressDone x false else s
  if x.verdict = .none ∧ 32 ≤ x.buf.length then
    match s.ingressHeader x.src x.buf port with
    | (.hold, _) => none
    | (.discard, s) => some (finish s { x with verdict := .discard })
    | (.accept ps, s) => some (finish s { x with verdict := .accept ps })
  else some (finish s x)

/-- Whether VL2 is taken at all (R71, R413): ACCEPT, and the device not in FAULT. -/
def State.qdTaken (s : State) : Bool := s.gb F.QRE_CTL_ACCEPT && (s.dev == .standby || s.dev == .run || s.dev == .hold)

/-- The reassembly slot of a source (R43). -/
def State.slotOf (s : State) (src : Nat) : Option Slot := s.qre.slots.find? fun x => x.src == src

/-- A frame with SOQ ends a quire of its source that is still open (R348). -/
def State.qdEnd (s : State) (f : Frame) : State :=
  if !s.qdTaken || !f.soq then s
  else
    match s.slotOf f.src with
    | some x => (s.inc F.SPN_CNT_QDSEQ_COUNT).ingressDone x true
    | none => s

/-- A quire-data frame at ingress, an open quire that it ends apart (R43, R348); none: it is held under back-pressure. [DEDUCED, log 50] -/
def State.ingressFrame (s : State) (port : Nat) (f : Frame) : Option State :=
  if !s.qdTaken then none
  else if f.soq then
    if (s.slotOf f.src).isNone && decide (16 ≤ s.qre.slots.length) then none
    else s.slotAdd { src := f.src } port f.payload
  else
    match s.slotOf f.src with
    | some x => s.slotAdd x port f.payload
    | none => some (s.inc F.SPN_CNT_QDSEQ_COUNT)

/-- Whether a quire-data frame waits behind an earlier one of its port that is held (R46). -/
def State.qdBehind (s : State) (p : Nat) (f : Frame) : Bool :=
  s.spn.inbox.contains (p, f) && (s.spn.inbox.find? fun x => x.1 == p && x.2.ty == FT.QD).any fun x => x.2 != f

/-- A frame that reaches the endpoint otherwise than through its queue joins it (R46). -/
def State.qdArrive (s : State) (p : Nat) (f : Frame) : State :=
  if s.spn.inbox.contains (p, f) then s else { s with spn := { s.spn with inbox := s.spn.inbox ++ [(p, f)] } }

/-- Offer a quire-data frame of the endpoint's queue to ingress: the flag says it stays there, held. -/
def State.qdOffer (s : State) (p : Nat) (f : Frame) : State × Bool :=
  let s := s.qdEnd f
  match s.ingressFrame p f with
  | some s' => (s'.consume p f, false)
  | none => (s, true)

/-- Take a quire-data frame, or hold it in the endpoint's queue (R46). -/
def State.qdReceive (s : State) (p : Nat) (f : Frame) : State :=
  if s.refuses p f then s.filtered p f else
  let s := s.qdArrive p f
  if s.qdBehind p f then s else (s.qdOffer p f).1

/-- Offer held quire-data frames to ingress again, each port in order (R46). -/
def State.ingressAgain (s : State) : State :=
  let qs := s.spn.inbox.filter fun x => x.2.ty == FT.QD
  (qs.foldl (fun (acc : State × List Nat) x =>
    let (s, stuck) := acc
    if stuck.contains x.1 then acc
    else
      let (s, held) := s.qdOffer x.1 x.2
      (s, if held then x.1 :: stuck else stuck)) (s, [])).1

/-! ## Inflate and look-ahead (R49 to R58) -/

/-- S_ring (R54): 0 where no context is enabled. -/
def State.sRing (s : State) : Nat := let e := s.ctxs.length; if e = 0 then 0 else 16777216 / e / 4096 * 4096

/-- Ring bytes that a quire takes (R55). -/
def Quire.ringBytes (q : Quire) : Nat :=
  if !q.reserved then 0
  else match q.st with
    | .released => (q.count - q.taken) * bLine q.bpn
    | .blank => (q.count - q.taken) * bLine q.bpn
    | .aborted => (q.count - q.taken) * bLine q.bpn
    | _ => q.size

/-- Free bytes of a context's ring. -/
def State.ringFree (s : State) (c : Nat) : Nat := s.sRing - sumL ((s.qre.dir.filter fun q => q.ctx == c).map Quire.ringBytes)

/-- Insert a quire into a list in queue order. -/
def byOrder (qs : List Quire) : List Quire := qs.foldl (fun l q => insertBy Quire.order q l) []

/-- The quire of a context that comes first: one whose ring bytes are reserved already, else the oldest. -/
def firstOf (qs : List Quire) (c : Nat) : Option Quire :=
  let own := qs.filter fun q => q.ctx == c
  match own.find? fun q => q.reserved with
  | some q => some q
  | none => own.head?

/-- The quires queued to engine m: at most 4, the first of each context and then the oldest (R29). [DESIGN CHOICE, log 129] -/
def State.engineQueue (s : State) (m : Nat) : List Quire :=
  let qs := byOrder (s.qre.dir.filter fun q => q.ctx / 4 == m && q.st == .stored)
  let heads := (List.range 4).filterMap fun r => firstOf qs (4 * m + r)
  heads ++ (qs.filter fun q => !heads.contains q).take (4 - heads.length)

/-- The quire of a context that its engine may start now (R55): one whose bytes are reserved already, else the oldest queued one where it fits. -/
def State.ready (s : State) (c : Nat) : Option Quire :=
  let qs := (s.engineQueue (c / 4)).filter fun q => q.ctx == c
  match qs.find? fun q => q.reserved with
  | some q => some q
  | none => qs.head?.filter fun q => decide (q.size ≤ s.ringFree c)

/-- Whether engine m is inflating. -/
def State.engineBusy (s : State) (m : Nat) : Bool := s.qre.dir.any fun q => q.ctx / 4 == m && q.st == .inflating

/-- A quire's first inflation reserves its bytes, which begin where the previous quire of its context ended (R54, R55). -/
def State.reserve (s : State) (q : Quire) : State :=
  if q.reserved then s
  else
    let at' := spGet 0 s.qre.ringEnd q.ctx
    (s.modQuire q.sig q.ctx q.first fun x => { x with reserved := true, ringAt := at' }).modQre fun x =>
      { x with ringEnd := spSet 0 x.ringEnd q.ctx (if s.sRing = 0 then 0 else (at' + q.size) % s.sRing) }

/-- Engine m starts a quire (R55): the context with the fewest released lines ahead, ties to the lower rank. -/
def State.inflateStart (s : State) (m : Nat) : State :=
  if s.engineBusy m || !(s.dev == .standby || s.dev == .run || s.dev == .hold) then s
  else
    let cs := (List.range 4).filterMap fun r => (s.ready (4 * m + r)).map fun q => (s.ctxLead (4 * m + r), q)
    let best := minD (maxL (cs.map (·.1))) (cs.map (·.1))
    match cs.find? fun x => x.1 == best with
    | some (_, q) => (s.reserve q).modQuire q.sig q.ctx q.first fun q => { q with st := .inflating }
    | none => s

/-- The quire that engine m is inflating. -/
def State.inflating (s : State) (m : Nat) : Option Quire := s.qre.dir.find? fun q => q.ctx / 4 == m && q.st == .inflating

/-- A store read of engine m fails (R52). -/
def State.inflateFail (s : State) (m : Nat) : State :=
  match s.inflating m with
  | some q => s.rsRequest q.sig q.ctx q.first 2
  | none => s

/-- The look-ahead word that holds a quire's first byte: the rings stand in context order (R54), 8 bytes a word. -/
def State.ringWord (s : State) (q : Quire) : Nat := (s.ctxs.idxOf q.ctx * s.sRing + q.ringAt) / 8

/-- How far into a quire's ring bytes a look-ahead word lies; none where it lies in another context's ring. The ring is byte-circular (R54). -/
def State.ringOffset (s : State) (q : Quire) (w : Nat) : Option Nat :=
  if s.sRing = 0 ∨ s.ctxs[8 * w / s.sRing]? ≠ some q.ctx then none
  else some ((8 * w % s.sRing + s.sRing - q.ringAt % s.sRing) % s.sRing)

/-- Whether a look-ahead word lies in a quire's lines. -/
def State.ringIn (s : State) (q : Quire) (w : Nat) : Bool := (s.ringOffset q w).any fun o => decide (o < q.size)

/-- Whether a released line lies in a poisoned look-ahead word (R430). -/
def State.lineBad (s : State) (q : Quire) (l : Nat) : Bool :=
  s.sram.poisoned.any fun k => k.1 == 0 && (s.ringOffset q k.2).any fun o => o / Nat.max 1 (bLine q.bpn) == l - q.first && decide (o < q.size)

/-- Engine m ends a quire (R51): the payload CRC decides first, then the stream, then the line CRC; a good quire is released (R53). A second attempt's failure keeps the
reason that it has by this order. [DEDUCED, log 117; DESIGN CHOICE, log 132] -/
def State.inflateDone (s : State) (m : Nat) : State :=
  match s.inflating m with
  | none => s
  | some q =>
    let (d, s) := s.fetchQuire q.pages (40 + q.clen)
    match d with
    | none => s.rsRequest q.sig q.ctx q.first 2
    | some b =>
      let payload := slice b 32 q.clen
      let injM := s.injHit 0x03 m
      let s := if injM then s.injUse else s
      let badW := s.sram.poisoned.any fun k => k.1 == 1 && k.2 / 4096 == m
      let s := (s.sramClear fun k => k.1 == 1 && k.2 / 4096 == m).sramFlip 1 (4096 * m)
      let out := if injM || badW then none else if q.isStored then (if q.clen = q.size then some payload else none) else inflate q.flush q.size payload
      if crc32c payload ≠ leAt b (32 + q.clen) 4 then (s.inc F.QRE_CNT_PCRC_COUNT).rsRequest q.sig q.ctx q.first 1
      else
        match out with
        | none => (s.inc F.QRE_CNT_MALF_COUNT).rsRequest q.sig q.ctx q.first 4
        | some lines =>
          let injL := s.injHit 0x04 m
          let s := if injL then s.injUse else s
          if injL ∨ crc32c lines ≠ leAt b (36 + q.clen) 4 then
            let s := s.inc F.QRE_CNT_UCRC_COUNT
            if q.retried then s.rsRequest q.sig q.ctx q.first 3
            else s.modQuire q.sig q.ctx q.first fun q => { q with retried := true }
          else
            ((s.modQuire q.sig q.ctx q.first fun q => { q with st := .released, data := lines, pages := [] }).sramClear
              fun k => k.1 == 0 && s.ringIn q k.2).sramFlip 0 (s.ringWord q)

/-- T_inf(D) in ns (R57). -/
def tInf (d : Nat) : Nat := d / 2 + 64 * 300 + 200

/-- L_min in ns, signed (R66); the line period is not rounded before it is multiplied. -/
def State.lMin (s : State) : Int :=
  let dmax := s.g F.QRE_CFG_QMAXKIB * 1024
  let bl := bLine (s.g F.QRE_CFG_MAXBPN)
  let lines : Int := if bl = 0 then 0 else ((s.sRing : Int) - (dmax : Int)) / (bl : Int)
  let hz := s.g F.POS_LRMAX_HZ
  (if hz = 0 then 0 else lines * 1000000000 / (hz : Int)) - 5 * (tInf dmax : Int) - 2000

/-! ## What gathering takes (R53, R58, R82) -/

/-- The raw context-line of a line, where released data holds it. -/
def State.releasedLine (s : State) (sig c l : Nat) : Option (Nat × Bytes) :=
  match s.covering sig c l with
  | some q => if q.st = .released then some (q.bpn, slice q.data ((l - q.first) * bLine q.bpn) (bLine q.bpn)) else none
  | none => none

/-- The stage of a line that is late (R82); none: released. No accepted quire covers the line of an aborted one. [DESIGN CHOICE, log 134] -/
def State.lateStage (s : State) (sig c l : Nat) : Option Nat :=
  match s.covering sig c l with
  | none => some 1
  | some q =>
    match q.st with
    | .released => none
    | .resend => some 2
    | .blank => some 2
    | .stored => some 3
    | .inflating => some 4
    | .aborted => some 1

/-- Gathering passes a line: the ring bytes of passed lines are free, and quires wholly passed hold none (R55). -/
def State.passLine (s : State) (sig l : Nat) : State :=
  s.modQre fun x => { x with dir := x.dir.map fun q =>
    if q.sig = sig ∧ q.first ≤ l then
      let t := Nat.max q.taken (Nat.min q.count (l + 1 - q.first))
      { q with taken := t, data := if t = q.count then [] else q.data }
    else q }

/-! ## Commands -/

/-- QRE_SIGCMD.ABORT (R67). [DEDUCED, log 50] -/
def State.sigAbort (s : State) (src : Src) : State :=
  let sig := s.g F.QRE_SIGSEL_NUM
  if (s.qre.started ∧ sig = s.g F.QRE_SIGCUR_NUM) ∨ !s.openSigs.contains sig then s.recReg E.QRE_CMD 0x20040 src
  else s.abortSig sig

/-- A STANDBY write changed QRE_SIGBASE (R34): stored quires below the new value are free and count as stale. [DEDUCED, log 117] -/
def State.sigbaseChanged (s : State) : State :=
  let base := s.g F.QRE_SIGBASE_NUM
  let low := (s.qre.dir.map (·.sig)).eraseDups.filter fun x => decide (sigDiff x base < 0)
  let n := s.qre.dir.countP fun q => low.contains q.sig && !q.pages.isEmpty
  (low.foldl (fun s x => s.dropSig x false) s).incBy F.QRE_CNT_STALE_COUNT n

end Sys2Proof.Machine
end

