-- ==== Sys2Proof/Machine/ThreadOps.lean ====
section
/-!
DEFINITION. Operations of the Thread lanes (R161 to R198): blocks, bring-up, commands, line frames, acknowledgements and re-sends, recovery, retirement and the lane test.
-/

namespace Sys2Proof.Machine

/-! ## Lines in flight -/

/-- The line in flight with module-line number k. -/
def State.lineK (s : State) (k : Nat) : Option Line := s.gth.lines.find? fun x => x.k == k

/-- Change the line in flight with module-line number k. -/
def State.modLine (s : State) (k : Nat) (f : Line → Line) : State :=
  { s with gth := { s.gth with lines := s.gth.lines.map fun x => if x.k = k then f x else x } }

/-- A module's part of a line. -/
def Line.ml (x : Line) (m : Nat) : ModLine := spGet {} x.mods m

/-- Change module m's part of line k. -/
def State.modML (s : State) (k m : Nat) (f : ModLine → ModLine) : State :=
  s.modLine k fun x => { x with mods := spMod {} x.mods m f }

/-! ## Blocks (R161 to R166) -/

/-- Change lane m. -/
def State.modLane (s : State) (m : Nat) (f : Lane → Lane) : State := { s with thl := { s.thl with lane := spMod {} s.thl.lane m f } }

/-- Stage codes (R168). -/
def lStage : LStage → Nat
  | .disabled => 0 | .detect => 1 | .train => 2 | .bitlock => 3 | .blocklock => 4
  | .capex => 5 | .active => 6 | .recover => 7 | .test => 8 | .retired => 9

/-- Whether lane m is ACTIVE. -/
def State.laneUp (s : State) (m : Nat) : Bool := (s.lane m).stage == .active

/-- The stage code that lane m is in, or in RECOVER the one it repeats (R168). -/
def State.laneCode (s : State) (m : Nat) : Nat := let x := s.lane m; if x.stage = .recover then x.sub else lStage x.stage

/-- Whether lane m's receiver adapts its DFE taps: in TRAIN and ACTIVE, unless FREEZE holds them (R167). -/
def State.eqAdapts (s : State) (m : Nat) : Bool := (s.laneCode m == 2 || s.laneCode m == 6) && !s.gb (F.THL_EQCFG_FREEZE m)

/-- The equaliser's state, CTLE and DFE, as it stands: what adaptation has reached is a free value; a fixed CTLE shows as such, and what stands still stays (R167, R198). [DEDUCED, log 59] -/
def State.eqNow (s : State) (m : Nat) : Nat :=
  let v := if s.eqAdapts m then Config.freeValue s.free % 2 ^ 25 else (s.lane m).eq % 2 ^ 25
  let fixed := s.g (F.THL_EQCFG_CTLE m)
  let c := if fixed ≠ 0 then fixed else if s.laneCode m = 2 ∨ s.laneCode m = 6 then Config.freeValue (s.free + 1) % 16 else (s.lane m).eq / 2 ^ 28
  v + c * 2 ^ 28

/-- The equaliser's state is kept as it stands; two free values are used up. -/
def State.eqHold (s : State) (m : Nat) : State := { (s.modLane m fun x => { x with eq := s.eqNow m }) with free := s.free + 2 }

/-- FREEZE is set on lane m: the taps that adaptation has reached stay (R167). -/
def State.eqFreeze (s : State) (m : Nat) : State :=
  if s.laneCode m = 2 ∨ s.laneCode m = 6 then
    let (v, s) := s.draw
    s.modLane m fun x => { x with eq := x.eq / 2 ^ 28 * 2 ^ 28 + v % 2 ^ 25 }
  else s

/-- Whether a lane's transmitter sends blocks: not in electrical idle, nor while a test pattern goes out, that of TRAIN, of RECOVER repeating it, or of TEST. -/
def Lane.sends (x : Lane) : Bool :=
  match x.stage with
  | .disabled | .detect | .train | .test | .retired => false
  | .recover => x.sub != 2
  | _ => true

/-- Whether the transmitter of lane m sends blocks. -/
def State.laneSends (s : State) (m : Nat) : Bool := (s.lane m).sends

/-- Put lane m into a stage. Where it sends no blocks there, their count begins anew after it (R166). -/
def State.setStage (s : State) (m : Nat) (st : LStage) (sub : Nat) : State :=
  let s := if s.laneCode m = 2 ∨ s.laneCode m = 6 then s.eqHold m else s
  (s.modLane m fun x => let y := { x with stage := st, sub }; if y.sends then y else { y with blocks := 0 }).p (F.THL_LANESTS_STAGE m) (lStage st)

/-- A control block (R163): the type, six bytes, and the CRC-8. -/
def ctlBlock (ty : Nat) (b : Bytes) : Bytes := let h := leBytes 1 ty ++ slice b 0 6; h ++ leBytes 1 (crc8 h)

/-- A received control block is accepted when its CRC-8 holds and its type is known in this direction (R163, R164). -/
def ctlOk (b : Bytes) : Bool := crc8 (slice b 0 7) == byteAt b 7 && [0x1E, 0x66, 0x78, 0x87, 0x99, 0xAA].contains (byteAt b 0)

/-- Count a discarded control block (R163). -/
def State.ctlBad (s : State) (m : Nat) : State := s.inc (F.THL_CNT_CTLBAD_COUNT m)

/-- One block time of lane m in tenths of a picosecond times 1000 (12.8, 6.4 or 5.12 ns as hundredths of a ns). -/
def State.blockCns (s : State) (m : Nat) : Nat := let r := s.g (F.THL_CFG_RATE m); if r = 0 then 1280 else if r = 1 then 640 else 512


/-- An IDLE block. -/
def idleBlock : Bytes := ctlBlock 0x1E []

/-- Bytes of bundle copies, 228 each, as data blocks; a block that holds the first byte of a copy's CRC says where. -/
def dataOf (k g : Nat) (b : Bytes) : List LBlk :=
  (List.range (b.length / 8)).map fun i =>
    let e := 8 * i + 7
    { ctl := false, b := slice b (8 * i) 8, crc := if 224 ≤ e ∧ (e - 224) % 228 < 8 then some (7 - (e - 224) % 228) else none, bund := (k, g + (e - 224) / 228) }

/-- Context LANE of lane m (R418). -/
def State.ctxOfLane (s : State) (m : Nat) : Nat := ctxLane m (s.gb (F.THL_LANESTS_PORTB m)) (s.g (F.THL_LANESTS_LFN m))

/-! ## Retirement and re-sends (R179, R194, R195) -/

/-- Drop the commands of lane m and the blocks that wait. -/
def State.cmdClear (s : State) (m : Nat) : State :=
  s.modLane m fun x => { x with cmd := none, cmdq := [], cpSeen := false, bad := false, txSk := [], brq := [], txBr := [], txData := [], txCm := [] }

/-- Lane m is retired; `inj` says that an injected fault took it past its threshold (R431). -/
def State.laneRetire (s : State) (m : Nat) (inj : Bool) : State :=
  let s := (((s.cmdClear m).modLane m fun x => { x with wait := false, resendK := [], recTimes := [] }).setStage m .retired 0).fenLow m
  (s.record { c := E.THL_RETIRE, inst := m, ctxType := 8, ctx := s.ctxOfLane m, inj, handles := true }).raise SEv.LINK_RETIRED m

/-- One re-send counts toward the retirement of lane m (R194). [DEDUCED, log 99] -/
def State.noteResend (s : State) (m k : Nat) (inj : Bool) : State :=
  let thr := s.g (F.THL_RETCFG_THR m)
  if thr = 0 then s
  else
    let ks := k :: (s.lane m).resendK
    let top := maxL ks
    let ks := ks.filter fun j => decide (top < j + 2 ^ (s.g (F.THL_RETCFG_WIN m) + 8))
    let s := s.modLane m fun x => { x with resendK := ks }
    if thr < ks.length then s.laneRetire m inj else s

/-- The module index at position p of bundle g (R102). -/
def bundleQ (g p : Nat) : Nat := 1024 * (p / 64) + 16 * (p % 64) + g

/-- The 228 bytes of bundle g (R171, R173): 256 fire words of 7 bits and the CRC. -/
def bundleBytes (lfn g : Nat) (words : List Nat) : Bytes :=
  let v := (List.range 256).foldr (fun p a => words.getD (bundleQ g p) 0 % 128 + 128 * a) 0
  let b := leBytes 224 v
  b ++ leBytes 4 (crc32c (leBytes 2 lfn ++ leBytes 1 g ++ b))

/-- The FS block of a line frame (R172). -/
def fsBlock (lfn sig line : Nat) : Bytes := ctlBlock 0x2D (leBytes 2 lfn ++ leBytes 1 sig ++ leBytes 3 (line % 2 ^ 20))

/-- Use up a pending injection of a lane, counting it (R431). -/
def State.laneInj (s : State) (m : Nat) (on : Bool) (f : Lane → Lane) : State := if on then (s.modLane m f).inc F.ERR_CNT_INJ_COUNT else s

/-- Whether word w of the Thread replay array lies in lane m's frame slot (17 slots of 3,656 bytes in 64 KiB), in bundle g where one is given (R29, R430). [DESIGN CHOICE, log 22] -/
def replayHolds (m slot : Nat) (g : Option Nat) (w : Nat) : Bool :=
  let o := w % 8192 * 8
  w / 8192 == m && o / 3656 == slot && (match g with | some g => decide (8 + 228 * g < o % 3656 + 8) && decide (o % 3656 < 236 + 228 * g) | none => true)

/-- Whether a bundle cannot be re-sent because its replay words are poisoned (R430). -/
def State.replayBad (s : State) (k m g : Nat) : Bool := s.sram.poisoned.any fun x => x.1 == 4 && replayHolds m (k % 17) (some g) x.2

/-- Bundle g of module m's part, where it is outstanding: sent, not acknowledged, its cut-off not passed. -/
def ModLine.open? (x : ModLine) (g : Nat) : Option Bund :=
  if x.slot ≤ g then (x.bunds[g]?).filter fun b => !b.acked else none

/-- Change bundle g. -/
def State.modBund (s : State) (k m g : Nat) (f : Bund → Bund) : State :=
  s.modML k m fun x => { x with bunds := x.bunds.mapIdx fun i b => if i = g then f b else b }

/-- Whether a copy of bundle g may still start (R180): its last block leaves 100 ns or more before the cut-off, where that is scheduled. -/
def State.copyFits (s : State) (m : Nat) (x : ModLine) (g : Nat) : Bool :=
  match x.tf with
  | none => true
  | some t =>
    let cut := tAdd t (nsU (g * s.g F.FIR_FGCFG_SLOT) : Nat)
    decide (((30 * s.blockCns m + 10000) * 65536 : Nat) ≤ 100 * tdiff cut s.now)

/-- Whether a copy of bundle g of line k may start on lane m (R179, R180): it is outstanding, the lane ACTIVE, and NRS and the cut-off allow it. -/
def State.mayResend (s : State) (k m g : Nat) : Bool :=
  match s.lineK k with
  | none => false
  | some x => ((x.ml m).open? g).any fun b => s.laneUp m && decide (b.resends < s.g (F.THL_RTCFG_NRS m)) && s.copyFits m (x.ml m) g && !s.replayBad k m g

/-- A copy of bundle g of line k starts on lane m (R179): a BR group. The 228 bytes leave 4 bytes of the last of the 29 data blocks open: a free value. [DEDUCED, log 99] -/
def State.resend (s : State) (k m g : Nat) : State :=
  match s.lineK k with
  | none => s
  | some x =>
    let u := ((x.ml m).bunds[g]?).getD {}
    let gen := (u.gen + 1) % 4
    let s := s.modBund k m g fun b => { b with gen, resends := b.resends + 1 }
    let (pad, s) := s.draw
    let br : LBlk := { ctl := true, b := ctlBlock 0x33 (leBytes 2 (k % 65536) ++ leBytes 1 (g + 16 * gen)) }
    let s := s.modLane m fun y => { y with txBr := br :: dataOf k g (bundleBytes (k % 65536) g (x.ml m).words ++ leBytes 4 pad) }
    (s.inc (F.THL_CNT_RESENT_COUNT m)).noteResend m k u.inj

/-! ## Block boundaries (R166, R175) -/

/-- Whether an IDLE block is due at the next boundary (R166): 990 blocks since the last one, and the boundary not inside a BR group. -/
def Lane.idleDue (x : Lane) : Bool := decide (990 ≤ x.blocks) && x.txBr.isEmpty

/-- Whether anything waits to be sent. -/
def Lane.busy (x : Lane) : Bool := !x.txSk.isEmpty || !x.txBr.isEmpty || !x.txData.isEmpty || !x.txCm.isEmpty

/-- The block that takes the next boundary, and the lane after it (R166, R175): a due IDLE; SK; BR with its data blocks; a frame in progress; CM, never inside a frame; a new frame. [DEDUCED, log 59] -/
def Lane.pick (x : Lane) : Option LBlk × Lane :=
  if !x.busy then (none, x)
  else if x.idleDue then (some { ctl := true, b := idleBlock }, { x with blocks := 0 })
  else
    let x' := { x with blocks := x.blocks + 1 }
    match x.txSk, x.txBr, x.txData, x.txCm with
    | b :: r, _, _, _ => (some { ctl := true, b }, { x' with txSk := r })
    | [], b :: r, _, _ => (some b, { x' with txBr := r })
    | [], [], d :: r, [] => (some d, { x' with txData := r })
    | [], [], d :: r, c :: cs => if d.ctl then (some { ctl := true, b := c }, { x' with txCm := cs }) else (some d, { x' with txData := r })
    | [], [], [], c :: cs => (some { ctl := true, b := c }, { x' with txCm := cs })
    | [], [], [], [] => (none, x)

/-- The copies asked for on lane m, oldest first: the first that may start takes the boundary, and those before it are dropped (R179, R180). -/
def State.brNext (s : State) (m : Nat) : List (Nat × Nat) → State
  | [] => s.modLane m fun x => { x with brq := [] }
  | (k, g) :: r => if s.mayResend k m g then (s.modLane m fun x => { x with brq := r }).resend k m g else s.brNext m r

/-- A boundary that falls to a copy: none under way, no SK block and no IDLE before it. -/
def State.brStart (s : State) (m : Nat) : State :=
  let x := s.lane m
  if x.brq.isEmpty || !x.txSk.isEmpty || !x.txBr.isEmpty || x.idleDue then s else s.brNext m x.brq

/-- A block as it leaves lane m, with a pending injection of its kind (R197): BCRC on the first CRC of a bundle copy, HCRC on an FS block. -/
def State.blkOut (s : State) (m : Nat) (b : LBlk) : State :=
  let x := s.lane m
  let flip (i : Nat) : Bytes := b.b.set i (BitVec.ofNat 8 (Nat.xor (byteAt b.b i) 1))
  match b.crc with
  | some i =>
    if x.injBcrc then ((s.laneInj m true fun y => { y with injBcrc := false }).modBund b.bund.1 m b.bund.2 fun u => { u with inj := true }).emit (.thread m b.ctl (flip i))
    else s.emit (.thread m b.ctl b.b)
  | none =>
    if x.injHcrc && b.ctl && byteAt b.b 0 == 0x2D then
      ((s.laneInj m true fun y => { y with injHcrc := false }).modML b.bund.1 m fun y => { y with bunds := y.bunds.map fun u => { u with inj := true } }).emit (.thread m b.ctl (flip 7))
    else s.emit (.thread m b.ctl b.b)

/-- A block boundary of lane m: one waiting block leaves, if the boundary's time has come. Boundaries with nothing waiting carried IDLE blocks. [DEDUCED, log 59] -/
def State.laneKick (s : State) (m : Nat) : State :=
  let now := 100 * s.ns
  let t := (s.lane m).txNext
  if !s.laneSends m || decide (now < t) then s
  else
    let gap := decide (t + s.blockCns m ≤ now)
    let s := (if gap then s.modLane m fun x => { x with blocks := 0 } else s).brStart m
    match (s.lane m).pick with
    | (some b, x') => (s.modLane m fun _ => { x' with txNext := (if gap then now else t) + s.blockCns m }).blkOut m b
    | (none, _) => s

/-- The lanes' block boundaries in one cycle of TBCLK. -/
def State.lanesTick (s : State) : State := s.thl.lane.foldl (fun s x => s.laneKick x.1) s

/-- The count of blocks since the last IDLE has reached 990, and the next boundary may take an IDLE block (R166): it leaves, unless boundaries with nothing waiting have carried one. -/
def State.idleInsert (s : State) (m : Nat) : State :=
  let x := s.lane m
  if s.laneSends m && x.idleDue && decide (100 * s.ns < x.txNext + s.blockCns m) then
    (s.modLane m fun x => { x with blocks := 0, txNext := x.txNext + s.blockCns m }).emit (.thread m true idleBlock)
  else s

/-- Ask for a copy of bundle g of line k on lane m, where one may start (R179): it starts at the next boundary that falls to it. -/
def State.askResend (s : State) (k m g : Nat) : State :=
  if s.mayResend k m g && !(s.lane m).brq.contains (k, g) then (s.modLane m fun x => { x with brq := x.brq ++ [(k, g)] }).laneKick m else s

/-- Copies of bundle g of line k still asked for on lane m are given up (R86). -/
def State.dropCopy (s : State) (k m g : Nat) : State := s.modLane m fun x => { x with brq := x.brq.filter fun y => y != (k, g) }

/-- A CM or TS block for lane m. -/
def State.sendCm (s : State) (m : Nat) (b : Bytes) : State := (s.modLane m fun x => { x with txCm := x.txCm ++ [b] }).laneKick m

/-! ## Commands (R187) -/

/-- The module-line number that lane m's next SYNC names (R176, R193): the first line in flight whose frame has been sent, or is still to be, and that is still to fire; else the next
line. [DEDUCED, log 59] -/
def State.syncK (s : State) (m : Nat) : Nat :=
  match s.gth.lines.find? fun x => (x.mods.any fun y => y.1 == m) && !(x.ml m).came && ((x.ml m).sent || !(x.ml m).done) && !x.dead with
  | some x => x.k
  | none => s.gth.k

/-- The CM block of a command. -/
def cmBlock (c : LCmd) : Bytes := ctlBlock 0x55 (leBytes 1 c.code ++ leBytes 5 c.arg)

/-- Send the command under way. -/
def State.cmdTx (s : State) (m : Nat) (c : LCmd) : State := s.sendCm m (cmBlock c)

/-- Start the next queued command of lane m. SYNC takes its argument when it is sent. -/
def State.cmdNext (s : State) (m : Nat) : State :=
  let x := s.lane m
  match x.cmd, x.cmdq with
  | none, (code, arg) :: r =>
    let c : LCmd := ⟨code, if code = 1 then s.syncK m % 65536 else arg, 0, false⟩
    (s.modLane m fun x => { x with cmd := some c, cmdq := r }).cmdTx m c
  | _, _ => s

/-- Send a command to module m, after those under way. -/
def State.command (s : State) (m code arg : Nat) : State := (s.modLane m fun x => { x with cmdq := x.cmdq ++ [(code, arg)] }).cmdNext m

/-! ## Bring-up (R168, R169) -/

/-- Lane m enters DETECT. -/
def State.laneDetect (s : State) (m : Nat) : State :=
  (((s.cmdClear m).modLane m fun x => { x with wait := false, locked := false }).p (F.THL_LANESTS_CAPOK m) 0).setStage m .detect 0

/-- Bring-up of every enabled lane starts as the device enters TRAIN. -/
def State.lanesStart (s : State) : State :=
  (List.range 32).foldl (fun s m => if s.gb (F.THL_CTL_EN m) then s.laneDetect m else s) s

/-- A probe of lane m's termination. -/
def State.laneProbe (s : State) (m : Nat) (found : Bool) : State :=
  let x := s.lane m
  if x.stage = .detect && !x.wait && found then s.setStage m .train 0 else s

/-- Lane m enters the stage with a code, or in RECOVER repeats it. -/
def State.laneStep (s : State) (m : Nat) (st : LStage) : State :=
  if (s.lane m).stage = .recover then s.setStage m .recover (lStage st) else s.setStage m st 0

/-- A TS block of the controller (R168): the stage it is in, the rate, and the module. One goes out on entry to BITLOCK and to BLOCKLOCK. [DESIGN CHOICE, log 147] -/
def State.tsTx (s : State) (m : Nat) : State :=
  s.sendCm m (ctlBlock 0x66 (leBytes 1 (s.laneCode m) ++ leBytes 1 (s.g (F.THL_CFG_RATE m)) ++ leBytes 1 m))

/-- The pattern has run its time and the receiver has bit lock. [DESIGN CHOICE, log 147] -/
def State.laneBitLock (s : State) (m : Nat) : State :=
  if s.laneCode m = 2 && !(s.lane m).wait then
    let s := (s.modLane m fun x => { x with locked := false }).laneStep m .bitlock
    s.tsTx m
  else s

/-- A TS block of the module; `locked` says 64 consecutive valid sync headers have come. -/
def State.tsReceive (s : State) (m : Nat) (b : Bytes) (locked : Bool) : State :=
  let s := if locked then s.modLane m fun x => { x with locked := true } else s
  if !ctlOk b then s.ctlBad m
  else
    let c := byteAt b 1
    if byteAt b 0 = 0x66 && s.laneCode m = 3 && !(s.lane m).wait && (s.lane m).locked && decide (4 ≤ c ∧ c ≤ 6) then
      (((s.modLane m fun x => { x with cpSeen := false, bad := false }).laneStep m .blocklock)).tsTx m
    else s

/-- The reported parts of a CP frame's 30 bytes (R169, THL_CAP0 to THL_CAP5). -/
def State.capReport (s : State) (m : Nat) (c : Bytes) : State :=
  let d (i n : Nat) : Nat := leAt c (6 + i) n
  [leAt c 1 2 * 65536 + leAt c 3 2,
   byteAt c 0 * 2 ^ 24 + byteAt c 5 * 65536 + d 14 1 * 256 + d 9 1 % 16 * 16 + d 8 1 % 16,
   d 10 2 * 65536 + d 12 2,
   d 15 1 * 2 ^ 24 + bitsOf (d 8 1) 4 4,
   d 0 4, d 4 4].zipIdx.foldl (fun s (v, i) => s.setReg (F.THL_CAP_VAL m i).addr v) s

/-- The capability check (R169) on the 30 bytes of a CP frame. -/
def State.capOk (s : State) (m : Nat) (c : Bytes) : Bool :=
  let d (i n : Nat) : Nat := leAt c (6 + i) n
  let rate := s.g (F.THL_CFG_RATE m)
  crc32c (slice c 0 26) == d 20 4 && byteAt c 0 == 1
    && (List.range 4).all (fun r => !s.ctxOn (4 * m + r) || bitOf (d 8 1) r)
    && decide (rate < 3) && bitOf (d 9 1) rate
    && decide (d 10 2 ≤ s.g F.FIR_FGCFG_SLOT) && decide (d 12 2 ≤ s.g F.FIR_FGCFG_MINLOW)
    && bitOf (d 14 1) 0 && bitOf (d 14 1) 2 && decide (4 ≤ d 15 1)
    && (!s.gb (F.THL_CFG_DUAL m) || bitOf (d 14 1) 1)

/-- Lane m enters CAPEX (LANECAP is held while it stays there). -/
def State.capex (s : State) (m : Nat) : State := ((s.cmdClear m).p (F.THL_LANESTS_CAPOK m) 0).setStage m .capex 0

/-- A CP frame of module m: its block and three data blocks. -/
def State.cpReceive (s : State) (m : Nat) (b : Bytes) : State :=
  if !ctlOk b then s.ctlBad m
  else if byteAt b 0 ≠ 0x99 ∨ s.laneCode m ≠ 4 ∨ (s.lane m).wait ∨ (s.lane m).cpSeen then s
  else
    let c := slice b 1 6 ++ slice b 8 24
    let rec' := (s.lane m).stage == .recover
    let old := (s.lane m).cap
    let s := ((s.modLane m fun x => { x with cpSeen := true }).capReport m c).p (F.THL_LANESTS_PORTB m) (bitsOf (leAt c 14 1) 4 4)
    if rec' && old != some c then (s.capex m).record { c := E.THL_CAPCHG, inst := m, ctxType := 8, ctx := s.ctxOfLane m }
    else if !s.capOk m c then s.capex m
    else
      let s := (s.modLane m fun x => { x with cap := some c }).p (F.THL_LANESTS_CAPOK m) 1
      let tim (s : State) : State := (s.command m 2 (s.g F.FIR_FGCFG_SLOT)).command m 3 (s.g (F.THL_CFG_REFIRE m))
      if rec' then (tim s).command m 1 0 else tim (s.command m 1 0)

/-- Lane m becomes ACTIVE; back from RECOVER, or while lines are gathered, SYNC names the next frame it will fire (R193). -/
def State.laneActive (s : State) (m : Nat) : State :=
  let back := (s.lane m).stage == .recover || s.dev == .run || s.dev == .hold
  let s := (s.modLane m fun x => { x with fails := 0 }).setStage m .active 0
  if back then s.command m 1 0 else s

/-- A command of lane m has ended; the answer names it with its result (none: no response came). -/
def State.cmdEnd (s : State) (m : Nat) (ok : Bool) : State :=
  let s := s.modLane m fun x => { x with cmd := none, bad := x.bad || (!ok && x.cpSeen && s.laneCode m == 4 && x.cmd.any fun c => decide (c.code ≤ 3)) }
  let x := s.lane m
  if s.laneCode m = 4 && x.cpSeen && x.cmdq.isEmpty && !x.bad then s.laneActive m else s.cmdNext m

/-- A CR block of module m (R187): the state, and the command it completes with its argument and result. -/
def State.crReceive (s : State) (m : Nat) (b : Bytes) : State × Option (Nat × Nat × Nat) :=
  if !ctlOk b then (s.ctlBad m, none)
  else if s.injHit 0x12 m then ((s.modLane m fun x => { x with cmd := x.cmd.map fun c => { c with inj := true } }).injStep, none)
  else
    match (s.lane m).cmd with
    | some c =>
      if byteAt b 0 = 0xAA ∧ byteAt b 1 = c.code then
        let r := byteAt b 2
        let ok := r == 0 || (r == 1 && (s.lane m).stage == .recover && (c.code == 2 || c.code == 3))
        (s.cmdEnd m ok, some (c.code, c.arg, r))
      else (s, none)
    | none => (s, none)

/-- No response within 10 us (R187): the command is repeated up to 3 times, then recorded; the answer names one that ends. -/
def State.cmdTimeout (s : State) (m : Nat) : State × Option (Nat × Nat) :=
  match (s.lane m).cmd with
  | some c =>
    if c.tries < 3 then ((s.modLane m fun x => { x with cmd := some { c with tries := c.tries + 1 } }).cmdTx m c, none)
    else
      let s := s.record { c := E.THL_CMDTMO, inst := m, ctxType := 8, ctx := s.ctxOfLane m, inj := c.inj }
      (s.cmdEnd m false, some (c.code, c.arg))
  | none => (s, none)

/-- Lane m fails (R168): after 1 ms it returns to DETECT; the third consecutive failure is recorded. -/
def State.laneFail (s : State) (m : Nat) : State :=
  let s := (s.cmdClear m).modLane m fun x => { x with wait := true, fails := x.fails + 1 }
  if (s.lane m).fails = 3 then (s.record { c := E.THL_TRAINFAIL, inst := m, ctxType := 8, ctx := s.ctxOfLane m }).latch Att.LANEDOWN else s

/-- A stage of lane m exceeds its limit. -/
def State.laneTimeout (s : State) (m : Nat) : State :=
  let x := s.lane m
  if x.wait then s
  else match x.stage with
    | .train => s.laneFail m
    | .bitlock => s.laneFail m
    | .blocklock => s.laneFail m
    | .recover => s.laneFail m
    | _ => s

/-- 1 ms after a failure. -/
def State.laneRetry (s : State) (m : Nat) : State := if (s.lane m).wait then s.laneDetect m else s

/-! ## Recovery and retirement (R193 to R195) -/

/-- Lane m enters RECOVER (R193), or retires when it does so too often (R194). [DEDUCED, log 88] -/
def State.laneRecover (s : State) (m : Nat) (inj : Bool) : State :=
  if !s.laneUp m then s
  else
    let s := s.inc (F.THL_CNT_RECOVER_COUNT m)
    let ts := ((s.lane m).recTimes.filter fun t => decide (s.us < t + 1000000)) ++ [s.us]
    let s := s.modLane m fun x => { x with recTimes := ts }
    let max := s.g (F.THL_RETCFG_RECMAX m)
    if max ≠ 0 ∧ max < ts.length then s.laneRetire m inj
    else ((s.cmdClear m).modLane m fun x => { x with locked := false }).setStage m .recover 2

/-- A write changes EN of lane m (R168): in TRAIN or later the lane starts or stops, a RETIRED one too. [DESIGN CHOICE, log 146] -/
def State.laneEnable (s : State) (m : Nat) (was : Bool) : State :=
  let on := s.gb (F.THL_CTL_EN m)
  if was = on ∨ devCode s.dev < 4 then s
  else if on then s.laneDetect m
  else ((s.cmdClear m).modLane m fun x => { x with wait := false, fails := 0 }).setStage m .disabled 0

/-! ## Line frames (R171 to R177) -/

/-- The line frame of module m for a line starts, or waits for the one in progress, where the lane is ACTIVE (R174, R175). [DEDUCED, log 59] -/
def State.sendFrame (s : State) (x : Line) (m : Nat) : State :=
  if !s.laneUp m then s
  else
    let s := (s.sramClear fun k => k.1 == 4 && replayHolds m (x.k % 17) none k.2).sramFlip 4 (8192 * m + 457 * (x.k % 17))
    let lfn := x.k % 65536
    let fs : LBlk := { ctl := true, b := fsBlock lfn x.sig x.line, bund := (x.k, 0) }
    let s := (s.modLane m fun y => { y with txData := y.txData ++ fs :: dataOf x.k 0 ((List.range 16).flatMap fun g => bundleBytes lfn g (x.ml m).words) }).laneKick m
    let s := (s.p (F.THL_LANESTS_LFN m) lfn).modLane m fun y => { y with sentK := x.k :: y.sentK.take 31 }
    s.modML x.k m fun y => { y with sent := true, bunds := if y.bunds.isEmpty then List.replicate 16 {} else y.bunds }

/-- An SK block for the frame of module-line k on lane m (R177); FEN rises no earlier than 100 ns after it has left. -/
def State.skSend (s : State) (k m : Nat) : State :=
  let y := s.lane m
  let leave := Nat.max y.txNext (100 * s.ns) + s.blockCns m * (y.txSk.length + 1 + b2n y.idleDue) - 100 * s.ns
  let s := ((s.modLane m fun z => { z with txSk := z.txSk ++ [ctlBlock 0x4B (leBytes 2 (k % 65536))] }).laneKick m).inc (F.THL_CNT_SKIP_COUNT m)
  let t := tAdd s.now (cdiv (leave * 65536) 100 + nsU 100 : Nat)
  s.modFen m fun y => { y with skUntil := some t }

/-- An SK block for line k on lane m, where its frame was sent. [DEDUCED, log 59] -/
def State.skip (s : State) (k m : Nat) : State := if ((s.lineK k).any fun x => (x.ml m).sent) && s.laneUp m then s.skSend k m else s

/-- What a lane still sends of its lines when line work stops: nothing in FAULT (R413), else SK blocks and the rest of a frame or a BR group already started (R177, R412). [DEDUCED, log 59] -/
def Lane.stopLines (x : Lane) (all : Bool) : Lane :=
  let rest (l : List LBlk) : List LBlk := if all then [] else l.takeWhile fun b => !b.ctl
  { x with txSk := if all then [] else x.txSk, brq := [], txBr := rest x.txBr, txData := rest x.txData }

/-- The lanes' part in the end of line work (R412, R413). -/
def State.lanesQuiet (s : State) : State :=
  s.thl.lane.foldl (fun s x => s.modLane x.1 fun y => y.stopLines (s.dev == .fault || s.dev == .retired)) s

/-! ## Acknowledgement and re-send (R178 to R181) -/

/-- The line in flight that an LFN names on lane m, where its frame was sent. -/
def State.lineOfLfn (s : State) (m lfn : Nat) : Option Line := s.gth.lines.find? fun x => x.k % 65536 == lfn && (x.ml m).sent

/-- An AK block of module m. -/
def State.akReceive (s : State) (m : Nat) (b : Bytes) : State :=
  if !ctlOk b then s.ctlBad m
  else if byteAt b 0 ≠ 0x78 ∨ !s.laneUp m then s
  else
    let g := byteAt b 3 % 16
    if (s.lane m).injAck then
      let s := s.laneInj m true fun y => { y with injAck := false }
      match s.lineOfLfn m (leAt b 1 2) with
      | none => s
      | some x => s.modBund x.k m g fun u => { u with inj := true }
    else match s.lineOfLfn m (leAt b 1 2) with
    | none => s
    | some x =>
      match (x.ml m).open? g with
      | none => s
      | some u =>
        if bitsOf (byteAt b 3) 5 4 ≠ u.gen then s
        else if bitOf (byteAt b 3) 6 then (s.inc (F.THL_CNT_NAK_COUNT m)).askResend x.k m g
        else s.modBund x.k m g fun u => { u with acked := true }

/-- No AK within TACK of the latest copy of a bundle. [DEDUCED, log 99] -/
def State.ackTimeout (s : State) (m lfn g : Nat) : State :=
  match s.lineOfLfn m lfn with
  | none => s
  | some x =>
    match (x.ml m).open? g with
    | none => s
    | some _ => (s.inc (F.THL_CNT_ACKTMO_COUNT m)).askResend x.k m g

/-! ## Status frames (R182 to R186) -/

/-- A status frame (R183): whether it is a line frame, its LFN, temperature, fault flags, blank groups, mismatches, byte 8 and the measurement results. -/
structure SFrame where
  isLine : Bool
  lfn : Nat
  temp : Nat
  faults : Nat
  blank : Nat
  mism : Nat
  b8 : Nat
  res : List Nat
  deriving DecidableEq, Repr

/-- Read a status frame of 152 bytes whose CRC holds. -/
def parseStatus (b : Bytes) : Option SFrame :=
  let d (o n : Nat) : Nat := leAt b (8 + o) n
  if crc32c (slice b 1 6 ++ slice b 8 140) ≠ d 140 4 then none
  else some { isLine := byteAt b 3 == 0, lfn := leAt b 1 2, temp := d 0 2 % 4096, faults := d 2 2, blank := d 4 2, mism := d 6 2, b8 := d 8 1,
              res := (List.range (Nat.min 32 (d 9 1))).map fun i => d (12 + 4 * i) 4 }

/-- The bundles recorded late that a status frame shows fired (R181). [DEDUCED, log 121] -/
def State.ackLost (s : State) (m : Nat) (f : SFrame) : State :=
  let ls := spGet [] s.gth.lates m
  match ls.find? fun x => x.1 % 65536 == f.lfn with
  | none => s
  | some (k, gs) =>
    let n := (List.range 16).countP fun g => bitOf gs g && !bitOf f.blank g
    let s := s.incBy (F.THL_CNT_ACKLOST_COUNT m) n
    { s with gth := { s.gth with lates := spSet [] s.gth.lates m (ls.filter fun x => x.1 != k) } }

/-- What a good line status frame of module m leaves in the lane's registers, and its faults (R185, R186, R190). -/
def State.lineStatus (s : State) (m : Nat) (f : SFrame) (inj : Bool) : State :=
  let s := s.setReg (F.THL_LASTSTS_VAL m 0).addr (f.faults * 65536 + f.blank)
  let s := s.setReg (F.THL_LASTSTS_VAL m 1).addr (f.mism * 65536 + f.b8)
  let s := s.setReg (F.THL_LASTSTS_VAL m 2).addr f.lfn
  let portB := s.gb (F.THL_LANESTS_PORTB m)
  let s := s.p (F.THL_LANESTS_OWNER m) (b2n (bitOf f.b8 0 == portB))
  let s := s.p (F.THL_LANESTS_OTHERGOOD m) (b2n (bitOf f.b8 (if portB then 1 else 2)))
  let s := if f.mism ≠ 0 then s.inc (F.THL_CNT_MISMATCH_COUNT m) else s
  let s := s.ackLost m f
  let run := [E.THL_MODFAULT.code, m]
  if Nat.land f.faults (s.g (F.THL_CFG_FAULTMASK m)) ≠ 0 then
    let fresh := !(s.err.opened.any fun o => o.key == run)
    let s := s.record { c := E.THL_MODFAULT, inst := m, ctxType := 8, ctx := ctxLane m portB f.lfn, stays := true, inj, handles := true }
    if fresh then s.raise SEv.HEAD_FAULT m else s
  else s

/-! ## Commands by register (R168, R195 to R197) -/

/-- A THL_CMD write of lane m is ignored and logged. -/
def State.thlCmdRec (s : State) (m : Nat) (src : Src) : State :=
  s.record { c := E.THL_CMD, inst := m, ctxType := 6, ctx := ctxReg (F.THL_CMD_RETRAIN m).addr src }

/-- THL_CMD.RETRAIN. -/
def State.laneRetrain (s : State) (m : Nat) (src : Src) : State :=
  if s.dev ≠ .standby ∧ s.dev ≠ .hold then s.thlCmdRec m src
  else match (s.lane m).stage with
    | .active => s.laneRecover m false
    | .capex => s.setStage m .train 0
    | _ => s

/-- THL_CMD.RESTORE. -/
def State.laneRestore (s : State) (m : Nat) (src : Src) : State :=
  if s.dev ≠ .standby then s.thlCmdRec m src
  else if (s.lane m).stage = .retired then (s.modLane m fun x => { x with resendK := [], recTimes := [], fails := 0 }).laneDetect m
  else s

/-- LOOP leaves at once as the command under way of lane m, at the boundary after which blocks end or the pattern of TRAIN follows (R187, R196). -/
def State.loopCmd (s : State) (m : Nat) (on : Bool) : State :=
  let c : LCmd := ⟨8, b2n on, 0, false⟩
  ((s.cmdClear m).modLane m fun x => { x with cmd := some c }).emit (.thread m true (cmBlock c))

/-- THL_CMD.TEST: LOOP on, and the lane moves to TEST. -/
def State.laneTest (s : State) (m : Nat) (src : Src) : State :=
  if s.dev ≠ .standby then s.thlCmdRec m src
  else if s.laneUp m then
    let s := (s.loopCmd m true).setStage m .test 0
    (s.modLane m fun x => { x with prbs := {}, gen := {} }).p (F.THL_PRBS_LOCK m) 0
  else s

/-- THL_CMD.TESTEXIT: LOOP off, and the lane retrains from TRAIN. -/
def State.laneTestExit (s : State) (m : Nat) (src : Src) : State :=
  if s.dev ≠ .standby then s.thlCmdRec m src
  else if (s.lane m).stage = .test then
    let s := s.loopCmd m false
    (s.modLane m fun x => { x with locked := false }).setStage m .train 0
  else s

/-- THL_CMD: the commands of one write, in bit order. -/
def State.thlCmd (s : State) (m : Nat) (src : Src) (w : Nat) : State :=
  let s := if bitOf w 0 then s.laneRetrain m src else s
  let s := if bitOf w 1 then s.laneRestore m src else s
  let s := if bitOf w 2 then s.laneTest m src else s
  if bitOf w 3 then s.laneTestExit m src else s

/-- THL_INJ (R197). -/
def State.thlInj (s : State) (m w : Nat) : State :=
  let s := s.modLane m fun x =>
    { x with injBcrc := x.injBcrc || bitOf w 0, injHcrc := x.injHcrc || bitOf w 1, injAck := x.injAck || bitOf w 2, injScrc := x.injScrc || bitOf w 3 }
  if bitOf w 4 && s.laneUp m then (s.inc F.ERR_CNT_INJ_COUNT).laneRecover m true else s

/-- THL_PRBS.INJ1: one bit error goes out on the pattern; it acts only in TEST with the generator on (R196). [DESIGN CHOICE, log 98] -/
def State.prbsInj1 (s : State) (m : Nat) : State :=
  if (s.lane m).stage = .test && s.gb (F.THL_PRBS_GENEN m) then (s.modLane m fun x => { x with injBits := x.injBits + 1 }).inc F.ERR_CNT_INJ_COUNT else s

/-- Bits that the head module loops back reach lane m's checker (R196), and the generator sends as many. [DESIGN CHOICE, log 98] -/
def State.prbsCheck (s : State) (m : Nat) (bits : List Bool) : State :=
  let x := s.lane m
  if x.stage ≠ .test then s
  else
    let poly := s.g (F.THL_PRBS_POLY m)
    let inv := s.gb (F.THL_PRBS_INV m)
    let (g, out, hits) := genRun poly inv (s.g (F.THL_PRBS_INJRATE m)) bits.length x.gen x.injBits
    let s := if s.gb (F.THL_PRBS_GENEN m) then ((s.modLane m fun y => { y with gen := g, injBits := x.injBits - bits.length }).incBy F.ERR_CNT_INJ_COUNT hits).emit (.threadBits m out) else s
    if s.gb (F.THL_PRBS_CHKEN m) then
      let (c, n) := prbsRun poly inv x.prbs bits
      ((s.modLane m fun y => { y with prbs := c }).p (F.THL_PRBS_LOCK m) (b2n c.lock)).incBy (F.THL_PRBSERR_COUNT m) n
    else s

/-- The commands that every entry to RUN sends on the lanes (R187, R410). -/
def State.lanesCmds (s : State) : State :=
  (List.range 32).foldl (fun s m =>
    if s.laneUp m then ((s.command m 1 (s.gth.k % 65536)).command m 2 (s.g F.FIR_FGCFG_SLOT)).command m 3 (s.g (F.THL_CFG_REFIRE m)) else s) s

/-- Entry to RUN from STANDBY: the windows of re-sends begin anew with the line numbers (R174, R194), and the commands go out. -/
def State.lanesRun (s : State) : State :=
  ((List.range 32).foldl (fun s m => if (s.lane m).resendK.isEmpty then s else s.modLane m fun x => { x with resendK := [] }) s).lanesCmds

end Sys2Proof.Machine
end

