-- ==== Sys2Proof/Machine/NozzleOps.lean ====
section
/-!
DEFINITION. Operations of the nozzle map and of electrical measurement (R199 to R220), with the folio frames that forward writes (R205, R267).
-/

namespace Sys2Proof.Machine

/-! ## Folio roles and frames (R266, R267) -/

/-- The acting standby of a folio pair. -/
def State.standby (s : State) : Bool := s.member && s.gb F.FOL_STS_ACTROLE

/-- The acting primary of a folio pair. -/
def State.primary (s : State) : Bool := s.member && !s.gb F.FOL_STS_ACTROLE

/-- RUN or HOLD. -/
def State.running (s : State) : Bool := s.dev == .run || s.dev == .hold

/-- The most recent gathered module-line, modulo 2^16 (R203). -/
def State.kNow (s : State) : Nat := (s.gth.k + 65535) % 65536

/-- Its full number, as a record's context has it (R418): all ones before the first line. [DEDUCED, log 106] -/
def State.kRec (s : State) : Nat := (s.gth.k + 2 ^ 32 - 1) % 2 ^ 32

/-- Send a folio frame over the folio port; a management-only port discards it (R267, R351). -/
def State.folSend (s : State) (ty : Nat) (b : Bytes) : State :=
  let f := s.mkFrame (s.g F.FOL_PEER_NODE) 1 ty b
  if !s.member || (s.port 3).stage != .active then s
  else if s.portFilters 3 f then s.dropped 4 f F.SPN_CNT_FILTER_COUNT E.SPN_FILTER
  else s.queueOn 3 f

/-- A forwarded write (R267): E, kind, source, address, mask and value. [DESIGN CHOICE, log 30] -/
def fwdBytes (e kind src addr mask val : Nat) : Bytes := leBytes 2 e ++ leBytes 1 kind ++ leBytes 1 src ++ leBytes 4 addr ++ leBytes 4 mask ++ leBytes 4 val

/-- Forward writes, at most 16 a frame. -/
def State.folFwd : Nat → List Bytes → State → State
  | 0, _, s => s
  | n + 1, ws, s => if ws.isEmpty then s else State.folFwd n (ws.drop 16) (s.folSend FT.FOL_FWD (ws.take 16).flatten)

/-! ## The map -/

/-- The window address of an entry (R201). -/
def nzAddr (m q : Nat) : Nat := 0x400000 + 4 * (4096 * m + q)

/-- The bits that WRMASK selects (R202). -/
def nzMask (w : Nat) : Nat :=
  (if bitOf w 5 then 0xE0000000 else 0) + (if bitOf w 4 then 0x1E000000 else 0) + (if bitOf w 3 then 0x01FC0000 else 0)
    + (if bitOf w 2 then 0x0003C000 else 0) + (if bitOf w 1 then 0x00003FF0 else 0) + (if bitOf w 0 then 0xF else 0)

/-- The mask of STATE. -/
def stateMask : Nat := 0xE0000000

/-- The mask of RCODE. -/
def rcodeMask : Nat := 0x00003FF0

/-- A word with the bits of a mask replaced. -/
def maskIn (old mask new : Nat) : Nat := Nat.lor (Nat.land old (Nat.xor mask 0xFFFFFFFF)) (Nat.land new mask)

/-- Dead nozzles of module m in force; a poisoned entry counts, being treated as disabled (R79, R430). -/
def State.deadCount (s : State) (m : Nat) : Nat :=
  (s.win.countP fun x => decide (nzAddr m 0 ≤ x.1) && decide (x.1 < nzAddr (m + 1) 0) && nzDead x.2.toNat && !s.addrBad x.1)
    + 2 * s.sram.poisoned.countP fun x => x.1 == 3 && x.2 / 2048 == m

/-- Change the nozzle block. -/
def State.modNzh (s : State) (f : NzhSt → NzhSt) : State := { s with nzh := f s.nzh }

/-- Length of the run of dead columns from column j on, in one direction. [DEDUCED, log 68] -/
def State.deadRun (s : State) (m g : Nat) (up : Bool) : Nat → Nat → Nat
  | 0, _ => 0
  | n + 1, j =>
    let k := layoutK (s.layout m)
    if 1024 * k ≤ j then 0
    else if nzDead (s.nz m (nozzleAt (s.layout m) g j)) then
      1 + (if up then s.deadRun m g up n (j + 1) else if j = 0 then 0 else s.deadRun m g up n (j - 1))
    else 0

/-- The cluster test after a change of STATE of nozzle q of module m (R216): the run of dead columns that holds its column, or one that ends or begins beside it, the lower first. [DEDUCED, log 68] -/
def State.clusterTest (s : State) (m q : Nat) : State :=
  let thr := s.g F.NZH_CTL_CLUSTER
  let lay := s.layout m
  let g := groupOf lay (q / 1024)
  let j := columnOf lay (q / 1024) (q % 1024)
  let lo := if j = 0 then 0 else s.deadRun m g false 4096 (j - 1)
  let hi := s.deadRun m g true 4096 (j + 1)
  let first : Option Nat :=
    if nzDead (s.nz m q) then (if thr ≤ lo + 1 + hi then some (j - lo) else none)
    else if thr ≤ lo then some (j - lo) else if thr ≤ hi then some (j + 1) else none
  match first with
  | some c => if thr = 0 then s else (s.record { c := E.NZH_CLUSTER, ctxType := 2, ctx := ctxLine m g c s.kRec, handles := true }).latch Att.NOZCLUSTER
  | none => s

/-- The candidate state for a state in force and a measured class (R212). -/
def candidate (recov : Bool) (st cls : Nat) : Option Nat :=
  if st = cls ∨ 5 ≤ st then none
  else if st ≤ 1 then some cls
  else if st = 4 then (if 2 ≤ cls then some cls else none)
  else if 2 ≤ cls ∨ recov then some cls
  else none

/-- Whether classification may have decided on state `x` from state `st` (R202, R212), with RECOV at either value. [DEDUCED, log 33] -/
def maybeFrom (st x : Nat) : Bool := [true, false].any fun r => candidate r st x == some x

/-- Apply a map write (R202): a condition that fails drops it; a change of STATE is counted, recorded and reported (R213, R216, R217). Where the write carries no E, outside RUN and HOLD,
the descriptor gives the most recent gathered module-line. [DESIGN CHOICE, log 152] -/
def State.applyMap (s : State) (w : MapW) : State :=
  let old := s.nz w.m w.q
  let new := maskIn old w.mask w.val
  if (w.cond = 1 ∧ nzState old ≠ w.from') ∨ (w.cond = 2 ∧ !nzUsable old) ∨ (w.cond = 3 ∧ !maybeFrom (nzState old) (nzState w.val)) then s.inc F.NZH_CNT_STALEWR_COUNT
  else
    let before := s.deadCount w.m
    let s := (s.setWin (nzAddr w.m w.q) new).modNzh fun x => { x with dirty := putBit x.dirty w.m true }
    let after := s.deadCount w.m
    let s := s.p (F.NZH_MODSTS_DEAD w.m) after
    if nzState old = nzState new then s
    else
      let s : State := if w.src = 1 then s else
        let s := s.inc F.NZH_CNT_CHANGE_COUNT
        let sev := if nzUsable new then 0 else 1
        let s := s.record { c := { E.NZH_STATE with sev }, ctxType := 2, ctx := ctxLine w.m (w.q / 1024) (w.q % 1024) s.kRec, inj := w.inj, handles := true }
        let (s, lost) := s.post? (s.g F.NZH_RPTCFG_RING) DT.NOZZLE_CHANGE 0
          (leBytes 2 w.q ++ leBytes 1 w.m ++ leBytes 1 (w.src - 1) ++ leBytes 4 old ++ leBytes 4 new ++ leBytes 2 (w.e.getD s.kNow) ++ leBytes 2 s.nzh.seq)
        let s := s.modNzh fun x => { x with seq := (x.seq + 1) % 65536 }
        if lost then s.inc F.NZH_CNT_RPTLOST_COUNT else s
      let thr := s.g F.NZH_CTL_DEADTHR
      let s := if thr ≠ 0 ∧ before < after ∧ thr ≤ after then s.latch Att.NOZDEAD else s
      s.clusterTest w.m w.q

/-! ## Staging (R203 to R205) -/

/-- Module m's staging list. -/
def State.stagedOf (s : State) (m : Nat) : List MapW := spGet [] s.nzh.staged m

/-- Set module m's staging list. -/
def State.setStaged (s : State) (m : Nat) (l : List MapW) : State := s.modNzh fun x => { x with staged := spSet [] x.staged m l }

/-- Whether the boundary before module-line e has passed. -/
def State.passed (s : State) (e : Nat) : Bool := decide (sext 16 (s.gth.k % 65536 + 65536 - e % 65536) > 0)

/-- Put a write into its module's staging list; one whose boundary has passed counts as late. -/
def State.stagePut (s : State) (w : MapW) : State :=
  let s := s.setStaged w.m (s.stagedOf w.m ++ [w])
  if w.e.any fun e => s.passed e then s.inc F.NZH_CNT_MAPLATE_COUNT else s

/-- Forward a staged write to the standby (R205). -/
def State.forwardMap (s : State) (w : MapW) : State :=
  if s.primary then State.folFwd 1 [fwdBytes (w.e.getD 0) 1 w.src (nzAddr w.m w.q) w.mask w.val] s else s

/-- A write enters its module's list (R203, R205): a calibration write takes its E now, and the acting primary forwards it. -/
def State.stageEnter (s : State) (w : MapW) : State :=
  let w := if w.src = 3 ∧ w.e = none then { w with e := some ((s.kNow + s.g F.NZH_MAPCFG_ADLY) % 65536) } else w
  (s.stagePut w).forwardMap w

/-- A write meets its module's list (R204): a full list drops an RCODE write and keeps any other waiting. [DEDUCED, log 70] -/
def State.stageFit (s : State) (w : MapW) : State :=
  if (s.stagedOf w.m).length < 1024 then s.stageEnter w
  else if w.mask = rcodeMask then s.inc F.NZH_CNT_STAGEFULL_COUNT
  else s.modNzh fun x => { x with waiting := x.waiting ++ [w] }

/-- Stage a write (R203, R204): outside RUN and HOLD it applies at once. The standby applies none of its own (R205). [DEDUCED, log 70] -/
def State.stage (s : State) (w : MapW) : State :=
  if !s.running then s.applyMap { w with e := none }
  else if s.standby && w.src != 1 then
    (if w.mask = stateMask then s.modNzh fun x => { x with own := x.own ++ [w] } else s)
  else s.stageFit w

/-- A write that waited for space enters module m's list (R204). [DEDUCED, log 70] -/
def State.stageWaiting (s : State) (m : Nat) : State :=
  match s.nzh.waiting.find? fun w => w.m == m with
  | some w =>
    if 1024 ≤ (s.stagedOf m).length then s
    else (s.modNzh fun x => { x with waiting := x.waiting.erase w }).stageEnter w
  | none => s

/-- All the waiting writes that now fit, oldest first. -/
def State.stageAll (s : State) : State :=
  s.nzh.waiting.foldl (fun s w => if (s.stagedOf w.m).length < 1024 then (s.modNzh fun x => { x with waiting := x.waiting.erase w }).stageEnter w else s) s

/-- A difference between the standby's decisions and the forwarded writes (R205). -/
def State.folDiff (s : State) (w : MapW) : State :=
  (s.inc F.NZH_CNT_FOLDIFF_COUNT).record { c := E.NZH_FOLDIFF, ctxType := 2, ctx := ctxLine w.m (w.q / 1024) (w.q % 1024) s.kRec }

/-- The standby compares a forwarded STATE write of classification with its own decisions. [DEDUCED, log 33] -/
def State.folMatch (s : State) (w : MapW) : State :=
  if !s.standby || w.src != 2 || w.mask != stateMask then s
  else
    match s.nzh.own.find? fun o => o.m == w.m && o.q == w.q && nzState o.val == nzState w.val with
    | some o => s.modNzh fun x => { x with own := x.own.erase o }
    | none => s.folDiff w

/-- The standby's decisions whose line has come without a forwarded write. -/
def State.folUnmatched (s : State) (m : Nat) : State :=
  let old := s.nzh.own.filter fun o => o.m == m && (o.e.any fun e => s.passed e)
  old.foldl (fun s o => (s.modNzh fun x => { x with own := x.own.erase o }).folDiff o) s

/-- A module's block of a dump (R218), in force from the module-line that is gathered next. [DEDUCED, log 69] -/
def State.dumpBlock (s : State) (m : Nat) : Bytes :=
  leBytes 1 m ++ leBytes 1 0 ++ leBytes 2 s.gth.k ++ leBytes 4 0 ++ (List.range 4096).flatMap fun q => leBytes 4 (s.nz m q)

/-- Every block of the dump is copied: the upload is asked for. -/
def State.dumpUpload (s : State) : State :=
  match s.nzh.dump with
  | some (_, b) => (s.modNzh fun x => { x with dump := none }).upload (s.g F.NZH_RPTCFG_COMP) (s.g F.NZH_RPTCFG_RING) DT.NOZZLE_MAP_DUMP 1 b
  | none => s

/-- A line boundary of module m (R218): a dump that waits for it copies its block and clears its dirty bit; the last block starts the upload. -/
def State.dumpCopy (s : State) (m : Nat) : State :=
  match s.nzh.dump with
  | some (ms, b) =>
    if ms.contains m then
      let b := b ++ s.dumpBlock m
      let ms := ms.erase m
      let s := s.modNzh fun x => { x with dump := some (ms, b), dirty := putBit x.dirty m false }
      if ms.isEmpty then s.dumpUpload else s
    else s
  | none => s

/-- Outside RUN and HOLD the blocks still to copy are copied at once. [DEDUCED, log 69] -/
def State.dumpRest (s : State) : State :=
  match s.nzh.dump with
  | some (ms, _) => ms.foldl State.dumpCopy s
  | none => s

/-- The line boundary of module m before module-line `gth.k` (R78, R203): the window writes that wait, and at most 256 staged writes that are due; one whose own
boundary has passed is a cause for the line (R273). [DEDUCED, log 102] -/
def State.mapBoundary (s : State) (m : Nat) : State :=
  let q := s.nzh.queue.filter fun w => w.m == m
  let s := if q.isEmpty then s else q.foldl State.applyMap (s.modNzh fun x => { x with queue := x.queue.filter fun w => w.m != m })
  let due (w : MapW) : Bool := match w.e with | some e => decide (0 ≤ sext 16 (s.gth.k % 65536 + 65536 - e)) | none => true
  let now := ((s.stagedOf m).filter due).take 256
  let s := if now.isEmpty then s else
    let s := s.setStaged m (now.foldl (fun l w => l.erase w) (s.stagedOf m))
    let s := if now.any fun w => w.e.any fun e => s.passed e then { s with fol := { s.fol with lateMap := putBit s.fol.lateMap m true } } else s
    now.foldl (fun s w => (s.folMatch w).applyMap w) s
  let s := if s.nzh.own.isEmpty then s else s.folUnmatched m
  let s := if s.nzh.waiting.isEmpty then s else s.stageAll
  s.dumpCopy m

/-- The device leaves RUN and HOLD: every staged write applies at once (R204, R412). -/
def State.mapFlush (s : State) : State :=
  let ws := s.nzh.queue ++ (List.range 32).flatMap s.stagedOf ++ s.nzh.waiting
  (ws.foldl State.applyMap (s.modNzh fun x => { x with queue := [], staged := [], waiting := [], own := [] })).dumpRest

/-- A software write to the map window (R202, R204, R205); false: ignored, the standby's own. [DEDUCED, log 102] -/
def State.mapWrite (s : State) (a w : Nat) (src : Src) : Bool × State :=
  let i := (a - 0x400000) / 4
  let mask := if src = .loader then 0xFFFFFFFF else nzMask (s.g F.NZH_MAPCFG_WRMASK)
  let x : MapW := { m := i / 4096, q := i % 4096, e := none, src := 1, mask, val := w, cond := 0, from' := 0 }
  if s.running && s.standby then (false, s.recReg E.NZH_MAPWR a src)
  else if mask = 0 then (true, s)
  else if !s.running then (true, s.applyMap x)
  else if s.primary then (true, s.stage { x with e := some ((s.kNow + s.g F.NZH_MAPCFG_ADLY) % 65536) })
  else (true, s.modNzh fun y => { y with queue := y.queue ++ [x] })

/-! ## Measurement (R206 to R209) -/

/-- The MEAS in progress on module m. -/
def State.measOf (s : State) (m : Nat) : Option Meas := spGet none s.nzh.meas m

/-- Set it. -/
def State.setMeas (s : State) (m : Nat) (x : Option Meas) : State :=
  (s.modNzh fun y => { y with meas := spSet none y.meas m x }).p (F.NZH_MODSTS_MEASURING m) (b2n x.isSome)

/-- Module m's candidates. -/
def State.candsOf (s : State) (m : Nat) : List Cand := spGet [] s.nzh.cands m

/-- Set them. -/
def State.setCands (s : State) (m : Nat) (l : List Cand) : State :=
  (s.modNzh fun y => { y with cands := spSet [] y.cands m l }).p (F.NZH_MODSTS_PEND m) l.length

/-- The sweep pointer at or after q that lies in a rank with an enabled context (R207). -/
def State.sweepAt (s : State) (m q : Nat) : Nat :=
  match ((List.range 5).map fun i => if i = 0 then q % 4096 else (q / 1024 + i) % 4 * 1024).find? fun p => s.ctxOn (4 * m + p / 1024) with
  | some p => p
  | none => 0

/-- Nozzles of module m that a sweep covers. -/
def State.sweepSize (s : State) (m : Nat) : Nat := 1024 * ((List.range 4).countP fun r => s.ctxOn (4 * m + r))

/-- Move the pointer over n nozzles of the sweep (R207), which may end it (R209). -/
def State.sweepOver (s : State) (m n next : Nat) : State :=
  let left := spGet 0 s.nzh.sweepLeft m - n
  let s := (s.modNzh fun y => { y with sweepLeft := spSet 0 y.sweepLeft m left }).p (F.NZH_MODSTS_PTR m) (s.sweepAt m next)
  if s.nzh.sweepLeft.isEmpty then s.p F.NZH_STS_SWEEPING 0 else s

/-- A sweep of every enabled module starts (R209); with none enabled it is complete at once. -/
def State.sweepStart (s : State) : State :=
  s.mods.foldl (fun s m => s.modNzh fun y => { y with sweepLeft := spSet 0 y.sweepLeft m (s.sweepSize m) }) (s.p F.NZH_STS_SWEEPING (b2n (!s.mods.isEmpty)))

/-- Whether the device is between signatures (R206). -/
def State.endpaper (s : State) : Bool := match s.gth.cur with | none => true | some c => c.ended

/-- Whether MEAS may be sent to module m now (R206). -/
def State.measAllowed (s : State) (m : Nat) : Bool :=
  s.gb F.NZH_CTL_MEASEN && s.laneUp m && s.gb (F.THL_LANESTS_CAPOK m) && !s.standby
    && s.gth.lines.all (fun x => !(x.ml m).sent || (x.ml m).came) && !(s.fen m).high
    && ((s.dev == .standby && s.gb F.NZH_STS_SWEEPING) || (s.running && s.gb F.NZH_CTL_ENDPEN && s.endpaper))

/-- A re-measurement of nozzle q that did not give the candidate's class drops the candidate (R211). -/
def State.unconfirmed (s : State) (m q : Nat) : State :=
  if (s.candsOf m).any fun c => c.q == q then (s.setCands m ((s.candsOf m).filter fun c => c.q != q)).inc F.NZH_CNT_UNCONF_COUNT else s

/-- The command whose last result was lost is over: its range is passed, and nothing in it is measured again before the next sweep (R207, R211). Any lost frame since the command began may
have carried it. [DESIGN CHOICE, log 151] -/
def State.measClose (s : State) (m : Nat) : State :=
  match s.measOf m with
  | some x => if x.lost then (if x.confirm then (s.setMeas m none).unconfirmed m x.first else (s.setMeas m none).sweepOver m x.count (x.first + x.count)) else s
  | none => s

/-- Send MEAS to module m (R206, R207). -/
def State.measSend (s : State) (m : Nat) : State :=
  let s := s.measClose m
  if !s.measAllowed m || (s.measOf m).isSome then s
  else
    let go (s : State) (first count : Nat) (confirm : Bool) : State :=
      (s.setMeas m (some ⟨first, count, confirm, false⟩)).command m 4 (first + 4096 * (count % 4096))
    match s.candsOf m with
    | c :: _ => go s c.q 1 true
    | [] =>
      let p := s.sweepAt m (s.g (F.NZH_MODSTS_PTR m))
      if (s.dev == .standby && spGet 0 s.nzh.sweepLeft m == 0) || !s.modOn m then s
      else
        let ch := s.g F.NZH_MEASCFG_CHUNK
        go s p (Nat.min (if ch = 0 then 4096 else ch) (1024 - p % 1024)) false

/-- The class of a code for a rank type (R210), as a STATE. -/
def State.classify (s : State) (t c : Nat) : Nat :=
  if s.g (F.NZH_CLSA_OPENMIN t) ≤ c ∨ c = 1023 then 2
  else if c ≤ s.g (F.NZH_CLSA_SHORTMAX t) then 3
  else if c < s.g (F.NZH_CLSB_WEAKLO t) ∨ s.g (F.NZH_CLSB_WEAKHI t) < c then 1
  else 0

/-- A confirmed change is staged (R211). -/
def State.confirmed (s : State) (m lfn : Nat) (c : Cand) : State :=
  s.stage { m, q := c.q, e := some ((lfn + s.g F.NZH_MAPCFG_ADLY) % 65536), src := 2, mask := stateMask, val := c.state * 2 ^ 29, cond := 1, from' := c.from', inj := c.inj }

/-- A valid result in range: RCODE, and the classification (R211 to R213). `confirm` says it re-measures a candidate. A candidate pending
when CLSEN is cleared stays pending and goes on being re-measured. [DESIGN CHOICE, log 153] -/
def State.measResult (s : State) (m lfn q code : Nat) (confirm : Bool) : State :=
  let hit := s.nzh.inj && s.g F.NZH_INJ_MOD == m
  let s := if hit then (s.modNzh fun x => { x with inj := false }).inc F.ERR_CNT_INJ_COUNT else s
  let cls := s.classify (s.rtype m (q / 1024)) (if hit then s.g F.NZH_INJ_CODE else code)
  let s := (s.inc F.NZH_CNT_MEAS_COUNT).stage
    { m, q, e := some ((lfn + s.g F.NZH_MAPCFG_ADLY) % 65536), src := 2, mask := rcodeMask, val := code * 16, cond := 0, from' := 0 }
  if !s.gb F.NZH_CTL_CLSEN then s
  else match (s.candsOf m).find? fun c => c.q == q with
  | some c =>
    if !confirm then s
    else if cls ≠ c.state then s.unconfirmed m q
    else if c.left ≤ 1 then (s.setCands m ((s.candsOf m).erase c)).confirmed m lfn c
    else s.setCands m ((s.candsOf m).map fun x => if x = c then { c with left := c.left - 1 } else x)
  | none =>
    let st := nzState (s.nz m q)
    match candidate (s.gb F.NZH_CLSCFG_RECOV) st cls with
    | none => s
    | some x =>
      let c : Cand := ⟨q, x, st, s.g F.NZH_CLSCFG_CONFM1, hit⟩
      if c.left = 0 then s.confirmed m lfn c
      else if 32 ≤ (s.candsOf m).length then s.inc F.NZH_CNT_PENDFULL_COUNT
      else s.setCands m (s.candsOf m ++ [c])

/-- One measurement result of a status frame (R188, R207, R208, R211). The standby, which sent no MEAS, classifies what it receives (R205). -/
def State.measWord (s : State) (m lfn w : Nat) : State :=
  let q := bitsOf w 31 20
  let code := bitsOf w 19 10
  if s.standby then
    (if bitOf w 9 then s
     else if bitOf w 8 then s.measResult m lfn q code ((s.candsOf m).any fun c => c.q == q)
     else (s.inc F.NZH_CNT_INVALID_COUNT).unconfirmed m q)
  else
    match s.measOf m with
    | none => s.inc F.NZH_CNT_INVALID_COUNT
    | some x =>
      if bitOf w 9 then
        let s := (s.inc F.NZH_CNT_ABORT_COUNT).setMeas m none
        if x.confirm then s else s.sweepOver m (q - x.first) q
      else
        let inR := decide (x.first ≤ q) && decide (q < x.first + x.count)
        let s : State := if bitOf w 8 && inR then s.measResult m lfn q code x.confirm
          else
            let s := s.inc F.NZH_CNT_INVALID_COUNT
            if inR && x.confirm then s.unconfirmed m q else s
        if q + 1 = x.first + x.count then (if x.confirm then s.setMeas m none else (s.setMeas m none).sweepOver m x.count (q + 1)) else s

/-- A MEAS was rejected, is unsupported, or got no response (R207). -/
def State.measRejected (s : State) (m : Nat) (rejected : Bool) : State :=
  let s := s.setMeas m none
  if rejected then s.record { c := E.NZH_MEASREJ, ctxType := 2, ctx := ctxLine m 0 0 s.kRec } else s

/-- A status frame of module m was lost: results may have been lost with it. -/
def State.measLost (s : State) (m : Nat) : State :=
  match s.measOf m with
  | some x => s.setMeas m (some { x with lost := true })
  | none => s

/-! ## Dumps (R218) and commands -/

/-- Start a dump of modules (R218): each block is copied at its module's next line boundary; outside RUN and HOLD, where none comes, at once. [DEDUCED, log 69] -/
def State.dumpStart (s : State) (ms : List Nat) : State :=
  let s := (s.p F.NZH_STS_DUMPBUSY 1).modNzh fun x => { x with dump := some (ms, []) }
  if ms.isEmpty then s.dumpUpload else if s.running then s else s.dumpRest

/-- The modules whose dirty bit is set. -/
def State.dirtyMods (s : State) : List Nat := (List.range 32).filter fun m => bitOf s.nzh.dirty m

/-- A dump's upload is announced; a dirty dump that a publication asked for follows. -/
def State.dumpDone (s : State) : State :=
  let s := s.p F.NZH_STS_DUMPBUSY 0
  if s.nzh.autoNext then (s.modNzh fun x => { x with autoNext := false }).dumpStart s.dirtyMods else s

/-- A publication asks for a dirty dump (AUTODUMP). -/
def State.autoDump (s : State) : State :=
  if !s.gb F.NZH_RPTCFG_AUTODUMP then s
  else if s.gb F.NZH_STS_DUMPBUSY then s.modNzh fun x => { x with autoNext := true }
  else s.dumpStart s.dirtyMods

/-- NZH_CMD.SWEEP. -/
def State.sweepCmd (s : State) (src : Src) : State := if s.dev = .standby then s.sweepStart else s.recReg E.NZH_CMD F.NZH_CMD_SWEEP.addr src

/-- NZH_CMD.DUMP and DUMPDIRTY. -/
def State.dumpCmd (s : State) (src : Src) (all : Bool) : State :=
  if s.gb F.NZH_STS_DUMPBUSY then s.recReg E.NZH_CMD F.NZH_CMD_SWEEP.addr src
  else s.dumpStart (if all then List.range 32 else s.dirtyMods)

/-- NZH_CMD: the commands of one write, in bit order. -/
def State.nzhCmd (s : State) (src : Src) (w : Nat) : State :=
  let s := if bitOf w 0 then s.sweepCmd src else s
  let s := if bitOf w 1 then s.dumpCmd src true else s
  if bitOf w 2 then s.dumpCmd src false else s

/-- NZH_INJ.ARM (R220). -/
def State.nzhInjArm (s : State) : State := s.modNzh fun x => { x with inj := true }

end Sys2Proof.Machine
end

