-- ==== Sys2Proof/Machine/FireOps.lean ====
section
/-!
DEFINITION. Operations of the firing block (R101 to R125): bands, hot modules and the thermal gate, FEN outputs, group slots and the strobe watchdog, and the status frames that feed them.
-/

namespace Sys2Proof.Machine

/-! ## Lateness records (R84) -/

/-- A line not late closes the open record of its key, in any stage or in one. -/
def State.unlate (s : State) (kind id : Nat) (stage : Option Nat) : State :=
  s.closeRecs fun k => k.head? == some E.GTH_LATE.code && k.drop 2 == [kind, id] && (stage.all fun x => k.getD 1 0 % 16 == x)

/-- A late event of a key (kind 1: a context, kind 2: a module) in a stage: it extends the open record of its stage; a change of stage closes that first. One of ERR_INJ 0x05
makes a record of its own (R431: `own`); the lines of a retired lane make none (R195). [DESIGN CHOICE, log 26] -/
def State.lateRec (s : State) (kind id stage inst ctx : Nat) (inj own : Bool) : State :=
  if (s.lane (if kind = 1 then id / 4 else id)).stage = .retired then s.unlate kind id none
  else
    let s := s.closeRecs fun k => k.head? == some E.GTH_LATE.code && k.drop 2 == [kind, id] && (own || k.getD 1 0 % 16 != stage)
    s.recordRun { c := E.GTH_LATE, inst, ctxType := 1, ctx, key := [kind, id], inj, handles := true }

/-- The signature and line of the latest module-line whose number has these low 16 bits. -/
def State.frameOf? (s : State) (lfn : Nat) : Option (Nat × Nat) :=
  let back := (s.gth.k + 65535 - lfn % 65536) % 65536
  if s.gth.k ≤ back then none
  else
    let k := s.gth.k - 1 - back
    (s.gth.recent.find? fun x => decide (x.1 ≤ k)).map fun (k0, sig, l) => (sig, l + (k - k0))

/-- The same, with 0 and 0 where no such line has been gathered since entry to RUN. [DEDUCED, log 118] -/
def State.frameOf (s : State) (lfn : Nat) : Nat × Nat := (s.frameOf? lfn).getD (0, 0)

/-- Context LINE of a line frame of module m (R418). -/
def State.ctxFrame (s : State) (m lfn : Nat) : Nat := let (sig, l) := s.frameOf lfn; ctxLine m 0 sig l

/-! ## Blank groups (R239) -/

/-- Add to the list of blank groups; a full list loses its oldest entry. [DEDUCED, log 103] -/
def State.addBlank (s : State) (m sig l groups : Nat) : State :=
  match s.ins.blanks.find? fun b => b.1 == m && b.2.1 == sig && b.2.2.1 == l with
  | some b => { s with ins := { s.ins with blanks := s.ins.blanks.map fun x => if x = b then (m, sig, l, Nat.lor b.2.2.2 groups) else x } }
  | none =>
    let s := if 256 ≤ s.ins.blanks.length then s.inc F.INS_CNT_BLLOST_COUNT else s
    { s with ins := { s.ins with blanks := s.ins.blanks.drop (s.ins.blanks.length - 255) ++ [(m, sig, l, groups)] } }

/-! ## Hot modules and the gate (R121 to R124) -/

/-- Whether module m is hot (R121). -/
def State.isHot (s : State) (m : Nat) : Bool := bitOf s.fir.hot m || bitOf s.fir.lost m

/-- Whether any module is hot. -/
def State.anyHot (s : State) : Bool := s.fir.hot != 0 || s.fir.lost != 0

/-- Change the firing block. -/
def State.modFir (s : State) (f : FirSt → FirSt) : State := { s with fir := f s.fir }

/-- Set the thermal gate (R122). -/
def State.gateSet (s : State) (inj : Bool) : State :=
  if s.fir.gate then s else (s.modFir fun x => { x with gate := true, heldLines := 0, gateInj := inj }).p F.FIR_STS_GATE 1

/-- A module becomes hot (R122). -/
def State.goHot (s : State) (m lfn : Nat) (c : ECode) (inj : Bool) : State :=
  let s := (s.p (F.FIR_TEMP_HOT m) 1).gateSet inj
  (s.record { c, inst := lfn % 65536, ctxType := 1, ctx := s.ctxFrame m lfn, key := [m], inj, handles := true }).raise SEv.THERMAL_HARD m

/-- A module stops being hot; THERMAL_RESUME is raised when none is (R124). -/
def State.goCool (s : State) (m : Nat) : State :=
  let s := s.p (F.FIR_TEMP_HOT m) 0
  if s.anyHot then s else s.raise SEv.THERMAL_RESUME 0

/-- The line frame of module m at which the 64th consecutive status frame is missing: 64 after the latest one whose status frame came, of the frames of this RUN where none has (R121,
R418). [DEDUCED, log 101] -/
def State.lostK (s : State) (m : Nat) : Nat :=
  match spGet none s.fir.statK m with
  | some k => (k + 64) % 65536
  | none => 63

/-- No valid status frame for 64 consecutive line frames (R121). [DEDUCED, log 101] -/
def State.statusLost (s : State) (m : Nat) : State :=
  if bitOf s.fir.lost m then s
  else
    let was := s.isHot m
    let s := (s.modFir fun x => { x with lost := putBit x.lost m true }).p (F.FIR_TEMP_STALE m) 1
    if was then s else s.goHot m (s.lostK m) E.FIR_TLOST (bitOf s.fir.statInj m)

/-- The temperature of a good status frame (R121). [DEDUCED, log 120] -/
def State.tempReport (s : State) (m lfn temp : Nat) (inj : Bool) : State :=
  let was := s.isHot m
  let hard := s.g F.FIR_TLIM_HARD
  let hot := if hard = 0 then bitOf s.fir.hot m
    else if hard ≤ temp then true
    else if temp < s.g F.FIR_TLIM_RESUME then false
    else bitOf s.fir.hot m
  let s := s.modFir fun x => { x with hot := putBit x.hot m hot, lost := putBit x.lost m false, statInj := putBit x.statInj m false }
  let s := (s.p (F.FIR_TEMP_TEMP m) temp).p (F.FIR_TEMP_STALE m) 0
  if hot && !was then s.goHot m lfn E.FIR_THARD inj
  else if was && !hot then s.goCool m
  else s

/-- A status frame of module m (R182 to R186); its records stand in the order of their blocks (R420). The answer is the frame where it was good. -/
def State.statusFrame (s : State) (m : Nat) (b : Bytes) : State × Option SFrame :=
  if !ctlOk b then (s.ctlBad m, none)
  else if byteAt b 0 ≠ 0x87 then (s, none)
  else
    let bad (s : State) : State := (s.inc (F.THL_CNT_STSCRC_COUNT m)).measLost m
    if (s.lane m).injScrc then (bad (s.laneInj m true fun y => { y with injScrc := false }), none)
    else if s.injHit 0x0A m then (bad ((s.modFir fun x => { x with statInj := putBit x.statInj m true }).injStep), none)
    else
      match parseStatus b with
      | none => (bad s, none)
      | some f =>
        let injF := s.injHit 0x13 m
        let f := if injF then { f with faults := s.injArg % 65536 } else f
        let s := if injF then s.injUse else s
        let injT := s.injHit 0x09 m
        let f := if injT then { f with temp := s.injArg % 4096 } else f
        let s := if injT then s.injUse else s
        let s := s.tempReport m f.lfn f.temp injT
        let s := if f.isLine then s.lineStatus m f injF else s
        let s : State := if !f.isLine then s else
          let s := s.modFir fun x => { x with statK := spSet none x.statK m (some f.lfn) }
          let reps := ⟨f.lfn, f.temp, s.isHot m, injT⟩ :: (spGet [] s.fir.reps m).take 255
          let s := s.modFir fun x => { x with reps := spSet [] x.reps m reps }
          if f.blank = 0 then s else match s.frameOf? f.lfn with
            | some (sig, l) => s.addBlank m sig l f.blank
            | none => s
        (f.res.foldl (fun s w => s.measWord m f.lfn w) s, some f)

/-- The report that module-line k uses (R108, R123): that of line frame k - TDLY, where it has arrived. [DEDUCED, log 101] -/
def State.report (s : State) (m k : Nat) : Option TRep :=
  let d := s.g F.FIR_TCFG_TDLY
  if k < d then none else (spGet [] s.fir.reps m).find? fun r => r.k == (k - d) % 65536

/-- Whether the frame of line k - TDLY was sent to module m. -/
def State.reportDue (s : State) (m k : Nat) : Bool :=
  let d := s.g F.FIR_TCFG_TDLY
  decide (d ≤ k) && (s.lane m).sentK.contains (k - d)

/-- Drop the reports older than the one that module-line k uses; neither it nor a later line uses them. [DEDUCED, log 101] -/
def State.pruneReports (s : State) (m k : Nat) : State :=
  let d := s.g F.FIR_TCFG_TDLY
  s.modFir fun x => { x with reps := spMod [] x.reps m fun l => l.filter fun r => decide (0 ≤ sext 16 (r.k + 131072 - (k + 65536 - d) % 65536)) }

/-- A band moved by a temperature (R108). -/
def bandStep (thr : Nat → Nat) (hyst temp b : Nat) : Nat :=
  let up : Nat := ((List.range 15).filter fun i => decide (b ≤ i)).foldl (fun b i => if b = i ∧ thr i ≤ temp then b + 1 else b) b
  ((List.range 15).reverse.filter fun i => decide (i < up)).foldl (fun b i => if b = i + 1 ∧ ((temp : Int) < (thr i : Int) - (hyst : Int)) then b - 1 else b) up

/-- The band of module-line k of module m (R108), with its status, WARN and counter; the flag says the band was kept for want of a report. [DEDUCED, log 101] -/
def State.bandOf (s : State) (m k sig l : Nat) : State × Bool :=
  let old := if k = 0 then s.g F.FIR_TCFG_INITBAND else s.g (F.FIR_TEMP_BAND m)
  let rep := s.report m k
  let kept := rep.isNone && s.reportDue m k
  let b := match rep with
    | some r => bandStep (fun i => s.g (F.FIR_TBTHR_TEMP i) % 4096) (s.g F.FIR_TCFG_HYST) r.temp old
    | none => old
  let s := if kept then s.inc F.FIR_CNT_TSTALE_COUNT else s
  let s := s.p (F.FIR_TEMP_BAND m) b
  let warn := decide (s.g F.FIR_TCFG_WARNBAND ≤ b)
  let was := s.gb (F.FIR_TEMP_WARN m)
  let s := s.p (F.FIR_TEMP_WARN m) (b2n warn)
  let s := if warn && !was then
      s.record { c := E.FIR_TWARN, inst := k % 65536, ctxType := 1, ctx := ctxLine m 0 sig l, key := [m], inj := rep.any fun r => r.inj, handles := true }
    else s
  (s.pruneReports m k, kept)

/-- FIR_STS follows the bands. -/
def State.firStatus (s : State) : State :=
  let bs := s.mods.map fun m => s.g (F.FIR_TEMP_BAND m)
  (s.p F.FIR_STS_THROTTLE (b2n (bs.any s.throttles))).p F.FIR_STS_WARN (b2n (s.mods.any fun m => s.gb (F.FIR_TEMP_WARN m)))

/-- Whether any module is reported hot for module-line k, a missing report standing in by the module's state (R123). -/
def State.hotFor (s : State) (k : Nat) : Bool :=
  (List.range 32).any fun m => match s.report m k with | some r => r.hot | none => s.isHot m

/-- The aligned hold of R271 in a folio pair, else HOLD. -/
def State.holdNow (s : State) : Bool := if s.member then s.fol.hold else s.dev == .hold

/-- The gate clears at GST of module-line k, line l, where R124 allows it; FIR_TRESUME counts the withheld lines, those not yet due included, and its context is 0. [DEDUCED, log 120; DESIGN CHOICE, log 145] -/
def State.gateClear (s : State) (k l : Nat) : State :=
  if s.fir.gate && !s.hotFor k && s.running && !s.holdNow && (!s.scanning || l == 0) then
    let due := s.gth.lines.countP fun x => decide (x.k < k) && !x.held && x.mods.any fun y => !y.2.came
    let s := (s.modFir fun x => { x with gate := false, resumeK := k }).p F.FIR_STS_GATE 0
    s.record { c := E.FIR_TRESUME, ctxType := 1, count := s.fir.heldLines + due, inj := s.fir.gateInj }
  else s

/-! ## FEN outputs (R103, R104, R177) -/

/-- Whether FEN of line x is held low by the gate or by HOLD, or since the device is not in RUN. -/
def State.lineHeld (s : State) (x : Line) : Bool := x.wh || s.fir.gate || s.dev != .run || s.holdNow || decide (x.k < s.fir.resumeK)

/-- Base of the proof-tap index (R99). -/
def State.ptIdx (s : State) (i : Nat) : Nat := s.g F.GTH_PTIDX_HI_ADDR * 2 ^ 32 + s.g F.GTH_PTIDX_LO_ADDR * 4096 + 64 * i

/-- A line's FEN is held low: it counts once (R123), and its proof-tap entry carries the withheld flag. -/
def State.holdLine (s : State) (x : Line) : State :=
  if x.held then s
  else
    let s := (s.modLine x.k fun y => { y with held := true }).inc F.FIR_CNT_WITHHELD_COUNT
    let s := s.modFir fun y => { y with heldLines := y.heldLines + 1 }
    match x.ptEntry with
    | some i => if x.idxWh then s else (s.dramWrite (s.ptIdx i + 24) [BitVec.ofNat 8 (b2n x.rev + 2)] 2 0).2
    | none => s

/-- A line leaves flight once every module has finished it and its pipeline has ended, and its digest has gone out where a folio member sends one. -/
def State.lineLeave (s : State) (k : Nat) : State :=
  match s.lineK k with
  | some x =>
    if (x.mods.all fun y => y.2.slot == 16 && y.2.done) && (x.trig.isSome || x.ptEntry.isNone) && (x.folSent || !s.member) then { s with gth := { s.gth with lines := s.gth.lines.filter fun y => y.k != k } }
    else s
  | none => s

/-- The module-line is finished on module m: its frame is released, and a line with every module finished leaves flight. [DESIGN CHOICE, log 109] -/
def State.lineFinish (s : State) (k m : Nat) : State :=
  match s.lineK k with
  | none => s
  | some x =>
    let ml := x.ml m
    let mask := sumL ((List.range 16).map fun g => if (ml.bunds[g]?).any fun b => b.late then 2 ^ g else 0)
    let s := if mask = 0 then s.unlate 2 m (some 6) else { s with gth := { s.gth with lates := spMod [] s.gth.lates m fun l => ((k, mask) :: l).take 16 } }
    (s.modML k m fun y => { y with slot := 16, words := if y.done && (x.folSent || !s.member) then [] else y.words }).lineLeave k

/-- An SK block for line k on lane m, and its groups are blank (R177, R239). -/
def State.skipBlank (s : State) (k m : Nat) : State :=
  match s.lineK k with
  | some x => if (x.ml m).sent then (s.skip k m).addBlank m x.sig x.line 0xFFFF else s
  | none => s

/-- An SK block stands in for the rise (R177): the frame is skipped and its groups fire nothing. Its bundles keep their cut-offs (R180), where it has a fire time. [DEDUCED, log 59] -/
def State.skipLine (s : State) (x : Line) (m : Nat) : State :=
  let s := ((s.skipBlank x.k m).closeRunOf E.FIR_FENSLIP [m]).modML x.k m fun y => { y with came := true }
  if (x.ml m).tf.isNone then s.lineFinish x.k m else s

/-- A bundle is late at its cut-off (R86, R181): a module-line counts once, in the record that names its lowest late group. [DEDUCED, log 121] -/
def State.bundleLate (s : State) (x : Line) (m g : Nat) : State :=
  let first := !((x.ml m).bunds.any fun b => b.late)
  let s := (s.modBund x.k m g fun b => { b with late := true }).addBlank m x.sig x.line (2 ^ g)
  if first then s.lateRec 2 m 6 (0x16 + 256 * g) (ctxLine m 0 x.sig x.line) ((x.ml m).bunds[g]?.any fun b => b.inj) false else s

/-- The next slot of line k on module m starts (R180): the cut-off of its bundle, which is late where it is not acknowledged or the lane not ACTIVE (R193); a copy still asked for is
given up (R86). After the last slot the frame is released. -/
def State.slotStart (s : State) (m k : Nat) : State :=
  match s.lineK k with
  | none => s
  | some x =>
    let g := (x.ml m).slot
    let late := (!((x.ml m).bunds[g]?.any fun b => b.acked) || !s.laneUp m) && (s.lane m).stage != .retired
    let s := (if late then s.bundleLate x m g else s).dropCopy k m g
    let s := s.modML k m fun y => { y with slot := g + 1 }
    if g + 1 = 16 then s.lineFinish k m else s

/-- The next slot of module m's oldest firing line starts. -/
def State.groupSlot (s : State) (m : Nat) : State :=
  match s.gth.lines.find? fun x => (x.ml m).came && decide ((x.ml m).slot < 16) with
  | none => s
  | some x => s.slotStart m x.k

/-- The slots left of earlier lines whose FEN did not rise on module m end, as its next fire time comes. [DEDUCED, log 59] -/
def State.slotsEnd (s : State) (m : Nat) : State :=
  (s.gth.lines.filter fun x => (x.ml m).came && !(x.ml m).fen && decide ((x.ml m).slot < 16)).foldl (fun s x => iter (fun s => s.slotStart m x.k) (16 - (x.ml m).slot) s) s

/-- The falling edge of the latest pulse of FEN m, the coming one where it is high. -/
def State.lastFall (s : State) (m : Nat) : Option Nat :=
  let x := s.fen m
  if x.high then some (tAdd x.rise (nsU (16 * s.g F.FIR_FGCFG_SLOT) : Nat)) else x.fell

/-- The later of a time and an earliest one. -/
def tMax (t : Nat) : Option Nat → Nat
  | none => t
  | some u => if 0 < tdiff u t then u else t

/-- The oldest triggered line of module m whose fire time has not come. -/
def State.nextFire (s : State) (m : Nat) : Option Line := s.gth.lines.find? fun x => (x.ml m).tf.isSome && !(x.ml m).came

/-- The fire time comes of a frame that was sent before line work stopped: FEN stays low, and its SK block goes out (R177, R412). -/
def State.fireStopped (s : State) (m : Nat) : State :=
  match s.gth.skips.find? fun x => x.1 == m with
  | none => s
  | some x =>
    let s := { s with gth := { s.gth with skips := s.gth.skips.erase x } }
    if s.laneUp m && s.dev == .standby then s.skSend x.2 m else s

/-- The fire time of module m's next line comes (R103, R104, R122, R177). [DEDUCED, log 59, 108] -/
def State.fireTime (s : State) (m : Nat) : State :=
  match s.nextFire m with
  | none => s.fireStopped m
  | some x =>
    let s := s.slotsEnd m
    let ml := x.ml m
    let t := ml.tf.getD 0
    if !s.laneUp m || !ml.sent then
      s.modML x.k m fun y => { y with came := true, bunds := if y.bunds.isEmpty then List.replicate 16 {} else y.bunds }
    else if s.lineHeld x then (s.holdLine x).skipLine x m
    else if bitOf (s.g F.FIR_WDSTS_CUT) m || s.fir.clkLost then s.skipLine x m
    else
      let rise := tMax (tMax t ((s.lastFall m).map fun f => tAdd f (nsU (s.g F.FIR_FGCFG_MINLOW) : Nat))) (s.fen m).skUntil
      let inj := !ml.slip && s.injHit 0x08 m
      let s := if inj then s.injUse else s
      let slip := decide (0 < tdiff rise t)
      let s := if (slip || inj) && !ml.slip then
          (s.inc F.FIR_CNT_FENSLIP_COUNT).recordRun { c := E.FIR_FENSLIP, inst := x.k % 65536, ctxType := 1, ctx := ctxLine m 0 x.sig x.line, key := [m], inj }
        else if ml.slip then s else s.closeRunOf E.FIR_FENSLIP [m]
      if slip then s.modML x.k m fun y => { y with tf := some rise, slip := true }
      else
        let stuck := s.injHit 0x07 m
        let s := if stuck then s.injUse else s
        let s := s.modFen m fun y => { y with drive := true, high := true, k := x.k, rise := t, skUntil := none, stuck }
        s.modML x.k m fun y => { y with came := true, fen := true }

/-- FEN m's internal drive falls (R103); a drive that an injection holds stays. -/
def State.fenFall (s : State) (m : Nat) : State :=
  let x := s.fen m
  if x.stuck || !x.drive then s
  else s.modFen m fun y => { y with drive := false, high := false, fell := if y.high then some s.now else y.fell }

/-- Whether a boundary-scan instruction drives the outputs from the boundary register: EXTEST or CLAMP (R20, R459). -/
def State.scanDrives (s : State) : Bool := s.jtag.hold && (s.jtag.instr == 0 || s.jtag.instr == 4)

/-- The FEN balls follow the boundary register while EXTEST or CLAMP is current; a cut that is latched and a lost REFCLK0 hold a ball low (R28, R117, R459).
Cell m is taken for FEN m. [DESIGN CHOICE, log 141] -/
def State.scanOut (s : State) : State :=
  if !s.jtag.hold then s
  else
    (List.range 32).foldl (fun s m =>
      let on := s.scanDrives && bitOf s.jtag.cells m && !bitOf (s.g F.FIR_WDSTS_CUT) m && !s.fir.clkLost
      if on == (s.fen m).high then s
      else s.modFen m fun y => if on then { y with high := true, rise := s.now } else { y with high := false, fell := some s.now }) s

/-- The level of FEN ball m (R20): high-impedance in OFF, and in RESET except where EXTEST or CLAMP drives it. -/
def State.fenBall (s : State) (m : Nat) : Level :=
  if s.dev == .off || (s.dev == .reset && !s.scanDrives) then .z else if (s.fen m).high then .high else .low

/-- The strobe watchdog cuts FEN m (R117, R118). While a test pattern holds it high, the logic is in RESET: the ball falls and the cut is latched, no more (R459). [DESIGN CHOICE, log 141] -/
def State.fenCut (s : State) (m : Nat) : State :=
  let x := s.fen m
  if !x.high then s
  else if s.jtag.hold then
    (s.modFen m fun y => { y with high := false, fell := some s.now }).p F.FIR_WDSTS_CUT (putBit (s.g F.FIR_WDSTS_CUT) m true)
  else
    let s := s.modFen m fun y => { y with high := false, drive := y.drive && !y.stuck, stuck := false, fell := some s.now }
    let s := s.p F.FIR_WDSTS_CUT (putBit (s.g F.FIR_WDSTS_CUT) m true)
    (s.record { c := E.FIR_WDCUT, inst := x.k % 65536, ctxType := 1, ctx := s.ctxFrame m x.k, key := [m], inj := x.stuck, handles := true }).raise SEv.FEN_CUT m

/-- Writing 1 to FIR_WDSTS bits clears the cuts whose internal drive is low (R118). -/
def State.cutClear (s : State) (w : Nat) : State :=
  s.p F.FIR_WDSTS_CUT ((List.range 32).foldl (fun v m => if bitOf w m && !(s.fen m).drive then putBit v m false else v) (s.g F.FIR_WDSTS_CUT))

/-- REFCLK0 is lost (R28): every FEN output is low until it returns. [DEDUCED, log 108] -/
def State.clkLoss (s : State) : State :=
  (List.range 32).foldl (fun s m => if (s.fen m).high then s.modFen m fun y => { y with high := false, fell := some s.now } else s)
    (s.modFir fun x => { x with clkLost := true })

/-- REFCLK0 is back. [DEDUCED, log 108] -/
def State.clkBack (s : State) : State := (s.modFir fun x => { x with clkLost := false }).scanOut

/-- Whether the output path may be calibrated (R31): in a gap between FEN pulses, in RUN or at an endpaper. -/
def State.mayCal (s : State) : Bool :=
  ((List.range 32).all fun m => !(s.fen m).high) && (s.dev == .run || ((s.dev == .standby || s.dev == .hold) && s.endpaper))

/-- The output path is calibrated (R31). [DEDUCED, log 112] -/
def State.pathCal (s : State) : State := if s.mayCal then s.modFir fun x => { x with calNs := s.ns } else s

end Sys2Proof.Machine
end

