-- ==== Sys2Proof/Machine/InspectOps.lean ====
section
/-!
DEFINITION. Operations of the camera ports, the pipeline, registration and collation (R221 to R247).
-/

namespace Sys2Proof.Machine

/-- Change the inspection block. -/
def State.modIns (s : State) (f : InsSt → InsSt) : State := { s with ins := f s.ins }

/-- A software write of a context register is noted with its time. -/
def State.noteWrite (s : State) (a : Nat) : State := s.modIns fun x => { x with wrote := (a, s.ns) :: x.wrote.filter fun w => w.2 == s.ns && w.1 != a }

/-- Whether software has written a context register at this very time, so that its write prevails over a hardware update (R234, R262). [DESIGN CHOICE, log 142] -/
def State.wroteNow (s : State) (a : Nat) : Bool := s.ins.wrote.contains (a, s.ns)

/-! ## Triggers, strobes and anchors (R223, R224) -/

/-- Camera trigger k. -/
def State.ctrig (s : State) (k : Nat) : TrigOut := spGet {} s.ins.ctrig k

/-- Change camera trigger k. -/
def State.modCtrig (s : State) (k : Nat) (f : TrigOut → TrigOut) : State := s.modIns fun x => { x with ctrig := spMod {} x.ctrig k f }

/-- Strobe k. -/
def State.lstb (s : State) (k : Nat) : TrigOut := spGet {} s.ins.lstb k

/-- Change strobe k. -/
def State.modLstb (s : State) (k : Nat) (f : TrigOut → TrigOut) : State := s.modIns fun x => { x with lstb := spMod {} x.lstb k f }

/-- Whether a DIRSEL code admits a direction. -/
def dirAdmits (d : Nat) (rev : Bool) : Bool := d == 0 || (d == 1 && !rev) || (d == 2 && rev)

/-- The enabled contexts that follow trigger k. -/
def State.camCtxs (s : State) (k : Nat) : List Nat := (List.range 8).filter fun n => s.gb (F.INS_CTX_CFG_EN n) && s.g (F.INS_CTX_CFG_TSEL n) == k

/-- The exposure position in 2^-16 counts, truncated (R224): `tcnt` is the count period in timebase units. -/
def exposurePos (pos : Int) (rev : Bool) (sdly swid : Nat) (tcnt : Rat) : Int :=
  let d : Rat := ((2 * sdly + swid : Nat) : Rat) * 32768
  let q : Rat := if tcnt = 0 then (Config.quotZero (2 * sdly + swid : Nat) : Rat) else d / tcnt
  (((pos : Rat) + (if rev then -q else q)) * 65536).floor

/-- The pulses that the trigger of line l schedules on output k (R223); one whose time has passed is omitted. The contexts whose DIRSEL may admit the swath are the enabled ones. [DESIGN CHOICE, log 154] -/
def State.pulseK (s : State) (k l sig : Nat) (rev : Bool) (te : Nat) (pos : Int) (tcnt : Rat) (phi : List Nat) : State :=
  let start := s.g (F.INS_TRIG_CFG_START k)
  let every := s.g (F.INS_TRIG_CFG_EVERY k)
  let dirOk := !s.scanning || (s.camCtxs k).any fun n => dirAdmits (s.g (F.INS_CTX_CFG_DIRSEL n)) rev
  if every = 0 ∨ l < start ∨ (l - start) % every ≠ 0 ∨ !dirOk then s
  else
    let px := exposurePos pos rev (s.g (F.INS_TRIG_LS_SDLY k)) (s.g (F.INS_TRIG_LS_SWID k)) tcnt
    let put (s : State) (d wid : Nat) (f : (TrigOut → TrigOut) → State) : State :=
      let p : Pulse := ⟨tAdd te (nsU d), wid, sig, rev, px, phi⟩
      if 0 < tdiff s.now p.t then s.inc F.INS_CNT_TRIGSKIP_COUNT else f fun x => { x with waiting := x.waiting ++ [p] }
    let s := put s (s.g (F.INS_TRIG_CT_CDLY k)) (s.g (F.INS_TRIG_CT_CWID k)) (s.modCtrig k)
    put s (s.g (F.INS_TRIG_LS_SDLY k)) (s.g (F.INS_TRIG_LS_SWID k)) (s.modLstb k)

/-- The pulses of every output at the trigger of line l. [DEDUCED, log 67] -/
def State.pulses (s : State) (l sig : Nat) (rev : Bool) (te : Nat) (pos : Int) (tcnt : Rat) (phi : List Nat) : State :=
  (List.range 4).foldl (fun s k => s.pulseK k l sig rev te pos tcnt phi) s

/-- The anchors of context n. -/
def State.anchorsOf (s : State) (n : Nat) : List Anchor := spGet [] s.ins.anchors n

/-- Queue an anchor for context n; a fifth displaces the oldest (R224). -/
def State.queueAnchor (s : State) (n : Nat) (a : Anchor) : State :=
  let l := s.anchorsOf n ++ [a]
  let s := if 4 < l.length then s.inc F.INS_CNT_NOFRAME_COUNT else s
  s.modIns fun x => { x with anchors := spSet [] x.anchors n (l.drop (l.length - 4)) }

/-- Whether an output is still high at time t (R223): its pulse falls later. -/
def TrigOut.stillHigh (x : TrigOut) (t : Nat) : Bool := x.high && decide (0 < tdiff x.fall t)

/-- An output whose next pulse rises: it falls the pulse's width later (R223). -/
def Pulse.rise (p : Pulse) (rest : List Pulse) : TrigOut := { high := true, fall := tAdd p.t (nsU p.wid), waiting := rest }

/-- CTRIGk's next pulse is due to rise. -/
def State.ctrigUp (s : State) (k : Nat) : State :=
  match (s.ctrig k).waiting with
  | [] => s
  | p :: r =>
    if (s.ctrig k).stillHigh p.t then (s.modCtrig k fun x => { x with waiting := r }).inc F.INS_CNT_TRIGSKIP_COUNT
    else
      let s := s.modCtrig k fun _ => p.rise r
      ((s.camCtxs k).filter fun n => dirAdmits (s.g (F.INS_CTX_CFG_DIRSEL n)) p.rev).foldl
        (fun s n => s.queueAnchor n ⟨s.ns, p.sig, p.rev, p.px, p.phi⟩) s

/-- CTRIGk falls, where CWID ns have passed since its rise (R223). -/
def State.ctrigDown (s : State) (k : Nat) : State :=
  if (s.ctrig k).stillHigh s.now then s else s.modCtrig k fun x => { x with high := false }

/-- LSTBk's next pulse is due to rise. -/
def State.lstbUp (s : State) (k : Nat) : State :=
  match (s.lstb k).waiting with
  | [] => s
  | p :: r =>
    if (s.lstb k).stillHigh p.t then (s.modLstb k fun x => { x with waiting := r }).inc F.INS_CNT_TRIGSKIP_COUNT
    else s.modLstb k fun _ => p.rise r

/-- LSTBk falls, where SWID ns have passed since its rise (R223). -/
def State.lstbDown (s : State) (k : Nat) : State :=
  if (s.lstb k).stillHigh s.now then s else s.modLstb k fun x => { x with high := false }

/-! ## Packets (R221, R226, R245, R246) -/

/-- Camera port p. -/
def State.camPort (s : State) (p : Nat) : CamPort := spGet {} s.ins.port p

/-- Change camera port p. -/
def State.modCam (s : State) (p : Nat) (f : CamPort → CamPort) : State := s.modIns fun x => { x with port := spMod {} x.port p f }

/-- The context bound to a port and virtual channel (R222). -/
def State.camCtx (s : State) (p vc : Nat) : Option Nat :=
  (List.range 8).find? fun n => s.gb (F.INS_CTX_CFG_EN n) && s.g (F.INS_CTX_CFG_PORT n) == p && s.g (F.INS_CTX_CFG_VC n) == vc

/-- Context CAMERA of context n (R418). -/
def State.ctxCamOf (s : State) (n : Nat) : Nat :=
  ctxCam n (s.g (F.INS_CTX_CFG_PORT n)) (s.g (F.INS_CTX_FCNT_FRAMENUM n)) (s.g (F.INS_CTX_FCNT_COUNT n))

/-- Use an injection armed on port p (R246). -/
def State.camInj (s : State) (p b : Nat) : Bool × State :=
  if bitOf (s.camPort p).inj b then (true, (s.modCam p fun x => { x with inj := putBit x.inj b false }).inc F.ERR_CNT_INJ_COUNT) else (false, s)

/-- A transient fault of port p (R245): more than THR within 1 s retire it. -/
def State.camFault (s : State) (p : Nat) (inj : Bool) : State :=
  let ts := s.ns :: (s.camPort p).faults.filter fun t => decide (s.ns < t + 1000000000)
  let thr := s.g F.INS_RETCFG_THR
  let s := s.modCam p fun x => { x with faults := ts }
  if thr ≠ 0 ∧ thr < ts.length then
    let s := (s.p (F.INS_PORTSTS_RETIRED p) 1).p F.INS_STS_RETIRED (putBit (s.g F.INS_STS_RETIRED) p true)
    s.record { c := E.INS_PORTRET, inst := p, ctxType := 7, ctx := ctxCam 0 p 0 0, inj, handles := true }
  else s

/-- A packet header arrives on port p; the flag says the packet is used. -/
def State.csiHdr (s : State) (p : Nat) (h : CsiHdr) : Bool × State :=
  if !s.gb (F.INS_PORTCFG_EN p) || s.gb (F.INS_PORTSTS_RETIRED p) then (false, s)
  else
    let (inj, s) := s.camInj p 0
    if h.bad || inj then (false, (s.inc F.INS_CNT_HDRERR_COUNT).camFault p inj)
    else (!h.vcx, if h.cor then s.inc F.INS_CNT_HDRCOR_COUNT else s)

/-- INS_STS follows the frames. -/
def State.insStatus (s : State) : State :=
  let w := sumL ((List.range 8).map fun n => if s.ins.frames.any fun f => f.ctx == n then 2 ^ n else 0)
  let s := (s.p F.INS_STS_WAITING w).p F.INS_STS_BUSY (b2n s.ins.proc.isSome)
  match s.ins.proc with
  | some f => s.p F.INS_STS_ACTIVE f.ctx
  | none => s

/-- The open frame of context n. -/
def State.openFrame (s : State) (n : Nat) : Option CamFrame :=
  (s.ins.proc.toList ++ s.ins.frames).find? fun f => f.ctx == n && !f.ended

/-- Change the open frame of context n. -/
def State.modOpen (s : State) (n : Nat) (f : CamFrame → CamFrame) : State :=
  let g (x : CamFrame) : CamFrame := if x.ctx = n ∧ !x.ended then f x else x
  s.modIns fun x => { x with proc := x.proc.map g, frames := x.frames.map g }

/-- The open frame of context n ends (R226): at its FE, or at a new FS. -/
def State.endOpen (s : State) (n : Nat) (noFe : Bool) : State :=
  match s.openFrame n with
  | none => s
  | some f =>
    let short := decide (f.rows.length < s.g (F.INS_CTX_SIZE_HEIGHT n))
    let s := if short then s.inc F.INS_CNT_SHORTF_COUNT else s
    s.modOpen n fun x => { x with ended := true, shortF := short, noFe := noFe }

/-- An FS packet opens a frame (R225, R226). -/
def State.frameStart (s : State) (p vc num : Nat) : State :=
  match s.camCtx p vc with
  | none => s
  | some n =>
    let s := (s.endOpen n true).modIns fun x => { x with dropping := putBit x.dropping n false }
    let s := s.p (F.INS_CTX_FCNT_FRAMENUM n) num
    let fresh := (s.anchorsOf n).filter fun a => decide (s.ns ≤ a.ns + 1000 * s.g F.INS_CTL_FSWIN)
    let s := s.incBy F.INS_CNT_NOFRAME_COUNT ((s.anchorsOf n).length - fresh.length)
    let s := s.modIns fun x => { x with anchors := spSet [] x.anchors n (fresh.drop 1) }
    let s := if fresh.isEmpty then
        (s.inc F.INS_CNT_NOTRIG_COUNT).record { c := E.INS_NOTRIG, inst := n, ctxType := 7, ctx := s.ctxCamOf n, key := [n], stays := true, byGap := false, handles := true }
      else s.closeRunOf E.INS_NOTRIG [n]
    let (reg, s) := s.camInj p 3
    let cut := s.injHit 0x14 n
    let limit := if cut then some s.injArg else none
    let s := if cut then s.injUse else s
    let f : CamFrame := { ctx := n, num, order := s.ins.order, anchor := fresh.head?, limit, injReg := reg, injFr := cut }
    let s := s.modIns fun x => { x with frames := x.frames ++ [f], order := x.order + 1 }
    (if limit = some 0 then s.endOpen n false else s).insStatus

/-- A frame of context n goes on the run of irregular frames, or ends it (R226). -/
def State.frameRun (s : State) (f : CamFrame) : State :=
  if f.shortF || f.longF || f.crc || f.noFe then
    s.record { c := E.INS_FRAME, inst := f.ctx, ctxType := 7, ctx := s.ctxCamOf f.ctx, key := [f.ctx], stays := true, byGap := false, inj := f.injFr, handles := true }
  else s.closeRunOf E.INS_FRAME [f.ctx]

/-- Drop a frame (R229). [DEDUCED, log 65] -/
def State.dropFrame (s : State) (f : CamFrame) (inj : Bool) : State :=
  let n := f.ctx
  let s := s.modIns fun x =>
    { x with proc := x.proc.filter fun y => y.order != f.order, frames := x.frames.filter fun y => y.order != f.order,
             dropping := if f.ended then x.dropping else putBit x.dropping n true }
  let s := (s.setReg (F.INS_CTX_FSTS_DROP n).addr
      (2 ^ 31 + b2n f.longF * 2 ^ 30 + b2n f.shortF * 2 ^ 29 + b2n f.crc * 2 ^ 28 + b2n f.noFe * 2 ^ 27 + b2n f.anchor.isNone * 2 ^ 26
        + satN 4095 f.shortL * 2 ^ 12 + satN 4095 f.longL)).inc F.INS_CNT_DROP_COUNT
  ((s.frameRun f).record { c := E.INS_FIFOOVF, inst := n, ctxType := 7, ctx := s.ctxCamOf n, key := [n], stays := true, byGap := false, inj, handles := true }).insStatus

/-- The rows in the FIFO of port p: those of its waiting frames. [DEDUCED, log 65] -/
def State.fifoRows (s : State) (p : Nat) : Nat :=
  sumL ((s.ins.frames.filter fun f => s.g (F.INS_CTX_CFG_PORT f.ctx) == p).map fun f => f.rows.length)

/-- Pixels of RAW10 data, shifted left by 2 bits (R222). [PRESUMED, log 64] -/
def raw10 : Bytes → List Nat
  | a :: b :: c :: d :: e :: r =>
    let px (x : Byte) (k : Nat) : Nat := (4 * x.toNat + bitsOf e.toNat (2 * k + 1) (2 * k)) * 4
    px a 0 :: px b 1 :: px c 2 :: px d 3 :: raw10 r
  | _ => []

/-- Pixels of RAW12 data. [PRESUMED, log 64] -/
def raw12 : Bytes → List Nat
  | a :: b :: c :: r => (16 * a.toNat + c.toNat % 16) :: (16 * b.toNat + c.toNat / 16) :: raw12 r
  | _ => []

/-- A pixel row of context n arrives (R226, R229). -/
def State.rowIn (s : State) (p n dt : Nat) (b : Bytes) (ok inj : Bool) : State :=
  match s.openFrame n with
  | none => if bitOf s.ins.dropping n then s else s.inc F.INS_CNT_ORPHAN_COUNT
  | some f =>
    if s.g (F.INS_CTX_SIZE_HEIGHT n) ≤ f.rows.length then
      (if f.longF then s else s.inc F.INS_CNT_LONGF_COUNT).modOpen n fun x => { x with longF := true }
    else
      let (ovf, s) := s.camInj p 2
      let waiting := s.ins.frames.filter fun x => s.g (F.INS_CTX_CFG_PORT x.ctx) == p
      let victim : Option CamFrame := if ovf || decide (64 ≤ s.fifoRows p) then (match waiting.getLast? with | some x => some x | none => s.ins.proc) else none
      let s := match victim with | some v => s.dropFrame v ovf | none => s
      if (s.openFrame n).isNone then s
      else
        let px := if dt = 0x2B then raw10 b else raw12 b
        let w := s.g (F.INS_CTX_SIZE_WIDTH n)
        let short := decide (px.length < w)
        let long := decide (w < px.length)
        let s := if !ok then s.inc F.INS_CNT_PCRC_COUNT else s
        let s := if short then s.inc F.INS_CNT_SHORTL_COUNT else s
        let s := if long then s.inc F.INS_CNT_LONGL_COUNT else s
        let s := s.modOpen n fun x =>
          { x with rows := x.rows ++ [⟨if ok then px.take w else [], !ok⟩], crc := x.crc || !ok, injFr := x.injFr || (inj && !ok),
                   shortL := satN 4095 (x.shortL + b2n short), longL := satN 4095 (x.longL + b2n long) }
        let s := s.sramFlip 5 (86016 * p + 1344 * (s.fifoRows p - 1))
        if f.limit = some (f.rows.length + 1) then s.endOpen n false else s

/-- A long packet arrives (R221, R222, R226). [DEDUCED, log 65] -/
def State.longPacket (s : State) (p : Nat) (h : CsiHdr) (dt : Nat) (b : Bytes) (crcOk : Bool) : State :=
  let (use, s) := s.csiHdr p h
  if !use then s
  else
    let (inj, s) := s.camInj p 1
    let ok := crcOk && !inj
    let s := if dt = 0x2B ∨ dt = 0x2C then s else s.inc F.INS_CNT_OTHERDT_COUNT
    let s : State := if dt ≠ 0x2B ∧ dt ≠ 0x2C then s else
      match s.camCtx p h.vc.toNat with
      | some n => if (dt == 0x2C) == s.gb (F.INS_CTX_CFG_RAW12 n) then s.rowIn p n dt b ok inj else s
      | none => s
    if ok then s else s.camFault p inj

/-- A short packet (R221). -/
def State.shortPacket (s : State) (p : Nat) (h : CsiHdr) (dt num : Nat) : State :=
  let (use, s) := s.csiHdr p h
  if !use then s
  else if dt = 0 then s.frameStart p h.vc.toNat num
  else if dt = 1 then (match s.camCtx p h.vc.toNat with | some n => (s.endOpen n false).modIns fun x => { x with dropping := putBit x.dropping n false } | none => s)
  else if dt = 2 ∨ dt = 3 then s
  else s.inc F.INS_CNT_OTHERDT_COUNT

/-- A D-PHY lane state changes (R221). -/
def State.dphy (s : State) (p : Nat) (hs ulps deskew : Bool) : State :=
  let s := s.modCam p fun x => { x with hs, ulps }
  let s := (s.p (F.INS_PORTSTS_HS p) (b2n hs)).p (F.INS_PORTSTS_ULPS p) (b2n ulps)
  if deskew then s.p (F.INS_PORTSTS_DESKEWED p) 1 else s

/-! ## The pipeline (R227, R228, R230) -/

/-- The parameter words a frame copies: CFG, SIZE, BLK01, BLK23, CM0 to CM5, OFS01, OFS23, XORG, XPITCH, CAMDY, RPITCH, REGCOR. -/
def State.camParams (s : State) (n : Nat) : List Nat := (List.range 17).map fun i => s.reg ((F.INS_CTX_CFG_EN n).addr + 4 * i)

/-- The idle pipeline takes the frame whose FS came first (R227, R228). -/
def State.frameTake (s : State) : State :=
  match s.ins.proc, s.ins.frames with
  | none, f :: r =>
    if s.gb F.INS_CTL_EN then (s.modIns fun x => { x with proc := some { f with params := s.camParams f.ctx }, frames := r }).insStatus else s
  | _, _ => s

/-- Word i of a frame's parameters. -/
def CamFrame.par (f : CamFrame) (i : Nat) : Nat := f.params.getD i 0

/-- Width of the frame. -/
def CamFrame.width (f : CamFrame) : Nat := bitsOf (f.par 1) 28 16

/-- Height of the frame. -/
def CamFrame.height (f : CamFrame) : Nat := bitsOf (f.par 1) 11 0

/-- An index with mirrored edges: -1 reads 1, n reads n - 2. [DEDUCED, log 66] -/
def mirror (n : Nat) (i : Int) : Nat :=
  if n ≤ 1 then 0
  else
    let p : Nat := 2 * (n - 1)
    let k : Nat := (i % (p : Int)).toNat
    if k < n then k else p - k

/-- A plane of values by row and column. -/
abbrev Plane := Array (Array Nat)

/-- The value of a plane. [DEDUCED, log 66] -/
def Plane.at (p : Plane) (i x : Nat) : Nat := (p.getD i #[]).getD x 0

/-- A plane of a frame computed place by place. -/
def mkPlane (h w : Nat) (f : Nat → Nat → Nat) : Plane := Array.ofFn (n := h) fun i => Array.ofFn (n := w) fun x => f i.val x.val

/-- A value limited to 0 to 4,095. -/
def clamp12 (v : Int) : Nat := (clampI 0 4095 v).toNat

/-- Whether a place holds a pad pixel. -/
def CamFrame.pad (f : CamFrame) (i x : Nat) : Bool := decide (((f.rows[i]?.map fun r => r.px.length).getD 0) ≤ x)

/-- Pixels as received, pad where missing. -/
def CamFrame.raw (f : CamFrame) : Plane :=
  let pad := bitsOf (f.par 0) 11 0
  Array.ofFn (n := f.height) fun i =>
    let px : Array Nat := ((f.rows[i.val]?.map fun r => r.px).getD []).toArray
    Array.ofFn (n := f.width) fun x => px.getD x.val pad

/-- Stage 1: black level. -/
def CamFrame.black (f : CamFrame) (raw : Plane) : Plane :=
  mkPlane f.height f.width fun i x =>
    let ph := i % 2 * 2 + x % 2
    let w := f.par (2 + ph / 2)
    raw.at i x - (if ph % 2 = 0 then bitsOf w 11 0 else bitsOf w 27 16)

/-- A flat-field entry FFG[n][b][x] (R244). -/
def State.ffg (s : State) (n b x : Nat) : Nat :=
  let o := 2 * (16384 * n + 8192 * b + x)
  bitsOf (s.winWord (0x580000 + o / 4 * 4)) (8 * (o % 4) + 15) (8 * (o % 4))

/-- Stage 2: flat field. -/
def State.flat (s : State) (f : CamFrame) (v1 : Plane) : Plane :=
  let b := bitsOf (f.par 0) 17 17
  let gain : Array Nat := Array.ofFn (n := f.width) fun x => s.ffg f.ctx b x.val
  mkPlane f.height f.width fun i x => satN 4095 ((v1.at i x * gain.getD x 0 + 8192) / 16384)

/-- The colour of a site (0 red, 1 green, 2 blue) under a BAYER code. -/
def siteColour (bayer i x : Nat) : Nat :=
  let ph := i % 2 * 2 + x % 2
  let red := if bayer = 0 then 0 else if bayer = 1 then 1 else if bayer = 2 then 2 else 3
  if ph = red then 0 else if ph = 3 - red then 2 else 1

/-- Stage 3, green (R230): at red and blue sites along the smoother direction. -/
def State.green (s : State) (f : CamFrame) (v2 : Plane) : Plane :=
  let edgt : Int := (4 * s.g F.INS_CTL_EDGT : Nat)
  let bayer := bitsOf (f.par 0) 25 24
  mkPlane f.height f.width fun i x =>
    if siteColour bayer i x = 1 then v2.at i x
    else
      let v (dx di : Int) : Int := (v2.at (mirror f.height (i + di)) (mirror f.width (x + dx)) : Nat)
      let ab (z : Int) : Int := (z.natAbs : Nat)
      let dh := ab (v (-1) 0 - v 1 0) + ab (2 * v 0 0 - v (-2) 0 - v 2 0)
      let dv := ab (v 0 (-1) - v 0 1) + ab (2 * v 0 0 - v 0 (-2) - v 0 2)
      let gh := (2 * (v (-1) 0 + v 1 0) + 2 * v 0 0 - v (-2) 0 - v 2 0) / 4
      let gv := (2 * (v 0 (-1) + v 0 1) + 2 * v 0 0 - v 0 (-2) - v 0 2) / 4
      clamp12 (if dh + edgt < dv then gh else if dv + edgt < dh then gv else (gh + gv) / 2)

/-- Stage 3, red (0) or blue (2): bilinear interpolation of C - G. -/
def CamFrame.chroma (f : CamFrame) (v2 g : Plane) (c : Nat) : Plane :=
  let bayer := bitsOf (f.par 0) 25 24
  mkPlane f.height f.width fun i x =>
    let here := siteColour bayer i x
    if here = c then v2.at i x
    else
      let d (dx di : Int) : Int :=
        let i' := mirror f.height (i + di)
        let x' := mirror f.width (x + dx)
        ((v2.at i' x' : Nat) : Int) - ((g.at i' x' : Nat) : Int)
      let k : Int := if here = 1 then (if siteColour bayer i (x + 1) = c then (d (-1) 0 + d 1 0) / 2 else (d 0 (-1) + d 0 1) / 2)
        else (d (-1) (-1) + d 1 (-1) + d (-1) 1 + d 1 1) / 4
      clamp12 (((g.at i x : Nat) : Int) + k)

/-- Coefficient M[c][i] of a frame. -/
def CamFrame.coef (f : CamFrame) (c i : Nat) : Int :=
  let k := 3 * c + i
  sext 16 (if k % 2 = 0 then f.par (4 + k / 2) % 65536 else f.par (4 + k / 2) / 65536)

/-- Offset OFS[c] of a frame. -/
def CamFrame.ofs (f : CamFrame) (c : Nat) : Int := sext 16 (if c % 2 = 0 then f.par (10 + c / 2) % 65536 else f.par (10 + c / 2) / 65536)

/-- DLUT[n][c][a] (R230, INS registers). -/
def State.dlut (s : State) (n c a : Nat) : Nat :=
  let o := 1024 * (4 * n + c) + a
  bitsOf (s.winWord (0x5C0000 + o / 4 * 4)) (8 * (o % 4) + 7) (8 * (o % 4))

/-- What the pipeline makes of a frame: v1 and the density of each channel. -/
structure Piped where
  v1 : Plane
  y : Array Plane

/-- Stages 1 to 5. -/
def State.pipeline (s : State) (f : CamFrame) : Piped :=
  let v1 := f.black f.raw
  let v2 := s.flat f v1
  let g := s.green f v2
  let r := f.chroma v2 g 0
  let b := f.chroma v2 g 2
  let y := Array.ofFn (n := 4) fun c =>
    let lut : Array Nat := Array.ofFn (n := 1024) fun a => s.dlut f.ctx c.val a.val
    mkPlane f.height f.width fun i x =>
      let o := (f.coef c 0 * (r.at i x : Nat) + f.coef c 1 * (g.at i x : Nat) + f.coef c 2 * (b.at i x : Nat)) / 1024 + f.ofs c
      lut.getD (clamp12 o / 4) 0
  ⟨v1, y⟩

/-- Density of a channel at a sensor coordinate in 1/256 pixel on a row (R231); none: outside the frame or a pad pixel. -/
def CamFrame.dens (f : CamFrame) (z : Piped) (c : Nat) (x : Int) (i : Int) : Option Nat :=
  let xi := x / 256
  let fr := (x % 256).toNat
  if xi < 0 ∨ (f.width : Int) ≤ xi + 1 ∨ i < 0 ∨ (f.height : Int) ≤ i then none
  else
    let x0 := xi.toNat
    let i := i.toNat
    if f.pad i x0 || f.pad i (x0 + 1) then none
    else
      let y := z.y.getD c #[]
      some (((256 - fr) * y.at i x0 + fr * y.at i (x0 + 1) + 128) / 256)

/-! ## The lines a row saw (R231, R232) -/

/-- A completed proof-tap entry: its index, line, encoder position, reverse flag, withheld flag, blank contexts, and whether the
entry after it cannot be read or waits for its trigger. -/
structure PtLine where
  idx : Nat
  line : Nat
  pos : Int
  rev : Bool
  wh : Bool
  blank : Nat
  cut : Bool

/-- The entry at place i of the ring that its index describes, where that can be read, with its signature. -/
def ptEntryOf (i : Nat) (b : Bytes) : Nat × PtLine :=
  (leAt b 8 4, ⟨i, leAt b 12 4, sext 64 (leAt b 16 8), bitOf (byteAt b 24) 0, bitOf (byteAt b 24) 1, leAt b 32 16, false⟩)

/-- The completed entries of the ring, by signature, from a read of their indexes (R304 PTRD); one whose read is answered with an error is none (R295, R320). An entry is
marked where the next one cannot be read, or waits for its trigger. [DESIGN CHOICE, log 136] -/
def State.ptTable (s : State) : List (Nat × PtLine) × State :=
  let n := s.g F.GTH_PTLINES_LINES
  let waits (i : Nat) : Bool := s.gth.lines.any fun x => x.trig.isNone && x.ptEntry == some i
  let places := (List.range (Nat.min n (Nat.max s.gth.ptNext s.gth.ptOld))).filter fun i => !waits i
  let (tab, s) := places.foldl (fun (x : List (Nat × Option (Nat × PtLine)) × State) i =>
    let (b, s) := x.2.dramRead (s.ptIdx i) 64 3 0
    (x.1 ++ [(i, b.map (ptEntryOf i))], s)) ([], s)
  let cut (i sig : Nat) : Bool :=
    (tab.any fun t => t.1 == i && t.2.isNone) || s.gth.lines.any fun x => x.trig.isNone && x.ptEntry == some i && x.sig == sig
  (tab.filterMap fun t => t.2.map fun e => (e.1, { e.2 with cut := cut ((t.1 + 1) % n) e.1 }), s)

/-- The completed entries of a signature, by line: those since entry to RUN, or where it has none, those of an earlier run not yet overwritten (R238). -/
def State.ptLines (s : State) (tab : List (Nat × PtLine)) (sig : Nat) : List PtLine :=
  let es := tab.filterMap fun t => if t.1 = sig then some t.2 else none
  let now := es.filter fun e => decide (e.idx < s.gth.ptNext)
  (if now.isEmpty then es else now).foldr (insertBy fun (x : PtLine) => x.line) []

/-- Whether the last line of a signature that has been gathered is among these entries, so that nothing follows them. -/
def State.ptLast (s : State) (sig : Nat) (es : List PtLine) : Bool :=
  (match s.gth.cur with
  | some c => c.sig != sig || (es.getLast?.any fun e => decide (c.n ≤ e.line + 1))
  | none => true) && !(es.getLast?.any fun e => e.cut)

/-- Lines that a row covers, with their weights in 1/256 (R232). -/
inductive Rows where
  | lines (l : List (Nat × PtLine))
  | beyond
  | missing

/-- Where a position (2^-24 counts) lies among a signature's lines: λ, when two consecutive entries bracket it. -/
def lambdaOf (rev : Bool) (q : Int) : List PtLine → Option Rat
  | a :: b :: r =>
    let e (x : PtLine) : Int := x.pos * 16777216
    let within : Bool := if rev then decide (q ≤ e a) && decide (e b < q) || q == e b && r.isEmpty else decide (e a ≤ q) && decide (q < e b) || q == e b && r.isEmpty
    if b.line = a.line + 1 ∧ within then
      some ((a.line : Rat) + (if e b = e a then 0 else ((q - e a : Int) : Rat) / ((e b - e a : Int) : Rat)))
    else lambdaOf rev q (b :: r)
  | _ => none

/-- Row i of a frame against the entries of its signature for a module with fire offset φ. -/
def State.rowLines (s : State) (f : CamFrame) (a : Anchor) (es : List PtLine) (i phi : Nat) : Rows :=
  let pitch := s.g F.POS_PITCH_COUNTS
  let rp := f.par 15
  let dir : Int := if a.rev then -1 else 1
  let dyc := sext 16 (f.par 16 % 65536)
  let q := a.px * 256 - dir * (sext 32 (f.par 14) * 16777216 + (256 * (i : Int) + dyc) * (rp : Int)) - dir * ((phi * pitch : Nat) : Int)
  match es.head?, es.getLast? with
  | some e0, some e1 =>
    let half : Rat := (rp : Rat) / (pitch : Rat) / 2
    match lambdaOf a.rev q es with
    | some lam =>
      if lam - half < (e0.line : Rat) - 1 / 2 then (if e0.line = 0 then .beyond else .missing)
      else if (e1.line : Rat) + 1 / 2 < lam + half then (if s.ptLast a.sig es then .beyond else .missing)
      else
        let ws := es.filterMap fun e =>
          let lo : Rat := max (lam - half) ((e.line : Rat) - 1 / 2)
          let hi : Rat := min (lam + half) ((e.line : Rat) + 1 / 2)
          if lo < hi then some (((hi - lo) * 256).floor.toNat, e) else none
        .lines (if ws.all fun x => x.1 == 0 then [] else ws)
    | none =>
      let before := if a.rev then decide (e0.pos * 16777216 < q) else decide (q < e0.pos * 16777216)
      let after := if a.rev then decide (q < e1.pos * 16777216) else decide (e1.pos * 16777216 < q)
      if before then (if e0.line = 0 then .beyond else .missing)
      else if after then (if s.ptLast a.sig es then .beyond else .missing)
      else .missing
  | _, _ => .missing

/-! ## Columns (R74, R89, R231) -/

/-- A nozzle column of colour group g: module and column; the shared columns of a seam belong to the lower module. -/
structure Col where
  m : Nat
  g : Nat
  j : Nat
  deriving DecidableEq

/-- Shared columns of seam m in module m's colour columns. [DEDUCED, log 56] -/
def State.sharedCols (s : State) (m : Nat) : Nat := if m < 31 then layoutK (s.layout m) * s.g (F.GTH_SEAM_OVL m) else 0

/-- The nozzles of a column: its own, and at a seam its partner. [DEDUCED, log 56] -/
def State.colNozzles (s : State) (c : Col) : List (Nat × Nat) :=
  let q := nozzleAt (s.layout c.m) c.g c.j
  let o := s.g (F.GTH_SEAM_OVL c.m)
  if c.m < 31 ∧ 1024 ≤ q % 1024 + o ∧ 0 < o then [(c.m, q), (c.m + 1, q / 1024 * 1024 + (q % 1024 + o - 1024))] else [(c.m, q)]

/-- The next column across the bar. -/
def State.colRight (s : State) (c : Col) : Option Col :=
  if c.j + 1 < 1024 * layoutK (s.layout c.m) then some { c with j := c.j + 1 }
  else if c.m < 31 then some ⟨c.m + 1, c.g, s.sharedCols c.m⟩ else none

/-- The column before it. -/
def State.colLeft (s : State) (c : Col) : Option Col :=
  let low := if 0 < c.m then s.sharedCols (c.m - 1) else 0
  if low < c.j then some { c with j := c.j - 1 }
  else if 0 < c.m then some ⟨c.m - 1, c.g, 1024 * layoutK (s.layout (c.m - 1)) - 1⟩ else none

/-- The columns of an enabled colour group of module m that it owns. -/
def State.colsOf (s : State) (m g : Nat) : List Col :=
  let low := if 0 < m then s.sharedCols (m - 1) else 0
  (List.range (1024 * layoutK (s.layout m))).filterMap fun j => if low ≤ j then some ⟨m, g, j⟩ else none

/-- Whether a colour group of a module is enabled, and its channel (INS_MODCHm). -/
def State.groupCh (s : State) (m g : Nat) : Option Nat :=
  let w := s.g (F.INS_MODCH_MAP m)
  if bitOf w (4 * g + 3) then some (bitsOf w (4 * g + 1) (4 * g)) else none

/-- The sensor coordinate of a column in 1/256 pixel (R231). -/
def State.sensorX (s : State) (f : CamFrame) (c : Col) : Int :=
  let x : Int := ((s.g (F.INS_MODX_X0 c.m) + c.j * 64 / layoutK (s.layout c.m) : Nat) : Int)
  let d := 65536 * (x - sext 32 (f.par 12))
  let xp := f.par 13 % 65536
  (if xp = 0 then Config.quotZero d else d / (xp : Int)) + sext 16 (f.par 16 / 65536)

/-- The nozzles that cover a bar column of a colour (R90). [DEDUCED, log 56] -/
def State.barNozzles (s : State) (g bar : Nat) : List (Nat × Nat) :=
  s.mods.filterMap fun m =>
    let b := s.g (F.GTH_MODCFG_BASE m)
    if b ≤ bar ∧ bar < b + 1024 * layoutK (s.layout m) then some (m, nozzleAt (s.layout m) g (bar - b)) else none

/-! ## Samples (R235 to R238) -/

/-- One line of a row with its levels: weight, and for each band its nozzle offset, entry and level data. -/
structure RowLine where
  w : Nat
  bands : List (Nat × Nat × PtLine × Array Byte)

/-- Expected density of a level in a channel (R235). -/
def State.ldt (s : State) (c lev : Nat) : Nat :=
  let w := if lev < 4 then s.reg (F.INS_LDT_LO_VAL c).addr else s.reg (F.INS_LDT_HI_VAL c).addr
  bitsOf w (8 * (lev % 4) + 7) (8 * (lev % 4))

/-- A fired level in proof-tap data. -/
def ptLevel (b : Array Byte) (m q : Nat) : Nat :=
  let bit := 3 * (q % 1024)
  let o := 384 * (4 * m + q / 1024) + bit / 8
  bitsOf ((b.getD o 0).toNat + 256 * (b.getD (o + 1) 0).toNat) (bit % 8 + 2) (bit % 8)

/-- What one column of a row expects: e, whether some line of it is withheld or has the column's context blank, whether the column's own fire group is in the list of
blank groups (R238), and the nozzle that fired it. -/
structure Cell where
  e : Nat
  bad : Bool
  blank : Bool
  owner : Option (Nat × Nat)

/-- Whether a group of a line is in the list of blank groups (R239). -/
def State.inBlank (s : State) (m sig l q : Nat) : Bool :=
  s.ins.blanks.any fun b => b.1 == m && b.2.1 == sig && b.2.2.1 == l && bitOf b.2.2.2 (q % 16)

/-- The nozzles of a column in a band (R236): in single-pass mode the column's own. -/
def State.cellNozzles (s : State) (c : Col) (p : Nat) : List (Nat × Nat) :=
  if s.scanning then s.barNozzles c.g (s.barCol c.m (nozzleAt (s.layout c.m) c.g c.j) + p * s.g F.GTH_SCANCFG_BANDW) else s.colNozzles c

/-- A column of a row (R235, R236). -/
def State.cell (s : State) (ch : Nat) (rows : List RowLine) (c : Col) : Cell :=
  let wt := sumL (rows.map fun r => r.w)
  let parts := rows.flatMap fun r => r.bands.map fun (p, sg, e, b) => (r.w, p, sg, e, (s.cellNozzles c p).map fun (m, q) => ((m, q), ptLevel b m q))
  let sum := sumL (parts.map fun (w, _, _, _, ns) => w * s.ldt ch (maxL (ns.map (·.2))))
  let bad := parts.any fun (_, _, _, e, ns) => e.wh || ns.any fun ((m, q), _) => bitOf e.blank (4 * m + q / 1024)
  let inList := parts.any fun (_, _, sg, e, ns) => ns.any fun ((m, q), _) => s.inBlank m sg e.line q
  let fired := parts.filter fun (_, _, _, _, ns) => ns.any fun (_, v) => decide (0 < v)
  let fbands := (fired.map fun (_, p, _, _, _) => p).eraseDups
  let cand := (s.cellNozzles c (fbands.headD 0))
  let share (n : Nat × Nat) : Nat := sumL (parts.map fun (w, _, _, _, ns) => if ns.any fun (n', v) => n' == n && decide (0 < v) then w else 0)
  let best := maxL (cand.map share)
  let owner := if s.scanning && fbands.length != 1 then none else cand.find? fun n => share n == best
  ⟨if wt = 0 then 0 else (sum + wt / 2) / wt, bad, inList, owner⟩

/-- The sums one frame adds to a nozzle's record (R237). -/
structure Sums where
  n : Nat := 0
  see : Nat := 0
  sen : Nat := 0
  sep : Int := 0
  srr : Nat := 0
  sr : Int := 0
  defs : Nat := 0
  deriving DecidableEq, Repr

/-- The frame accumulator: sums by nozzle index over the bar, the samples registration correlates (sensor coordinate, row, ŷ, nozzle index), and the places of
each row near an expected mark. -/
structure Accum where
  sums : Sparse Sums := []
  reg : List (Int × Nat × Nat × Nat) := []
  marks : List (Nat × Int) := []

/-- What a row gives of one column; `inn` is false for one that is there only as a neighbour. -/
structure RowCell where
  c : Col
  inn : Bool
  x : Int
  y : Option Nat
  cell : Cell
  ch : Nat

/-- The samples of one row (R237, R238), given the cells of every column of the bar that the row's modules hold. -/
def State.rowSamples (s : State) (w1 i : Nat) (regch : Nat) (cells : List RowCell) (acc : Accum) : Accum :=
  let w0 : Int := 256 - 2 * (w1 : Int)
  let find (c : Option Col) : Option RowCell := match c with | some c => cells.find? fun x => x.c == c | none => none
  let eOf (c : Option Col) : Int := match find c with | some r => (r.cell.e : Int) | none => 0
  let lost (c : Option Col) : Bool := match c, find c with | some _, none => true | _, some r => r.cell.bad | none, none => false
  let yhat (r : RowCell) : Nat := ((w0 * (r.cell.e : Int) + (w1 : Int) * (eOf (s.colLeft r.c) + eOf (s.colRight r.c)) + 128) / 256).toNat
  let live (r : RowCell) : Option (Int × Nat) :=
    match r.y, r.cell.owner with
    | some y, some (m, q) =>
      if !r.inn || r.cell.bad || r.cell.blank || lost (s.colLeft r.c) || lost (s.colRight r.c) || !nzUsable (s.nz m q) then none
      else some ((y : Int) - (yhat r : Int), yhat r)
    | _, _ => none
  let rOf (c : Option Col) : Int := match find c with | some r => (match live r with | some (v, _) => v | none => 0) | none => 0
  cells.foldl (fun acc r =>
    let acc := if r.inn ∧ r.y.isSome ∧ 0 < yhat r then { acc with marks := (i, r.x) :: acc.marks } else acc
    match live r, r.cell.owner with
    | some (v, yh), some (m, q) =>
      let acc := if r.ch = regch then { acc with reg := (r.x, i, yh, 4096 * m + q) :: acc.reg } else acc
      if r.cell.e < s.g F.INS_COLCFG_EMIN then acc
      else
        let rho := (w0 * v + (w1 : Int) * (rOf (s.colLeft r.c) + rOf (s.colRight r.c))) / 256
        let e := r.cell.e
        let right := (eOf (s.colRight r.c)).toNat
        let low := decide (v < -((e * s.g F.INS_COLCFG_DEFF / 256 : Nat) : Int))
        { acc with sums := spMod {} acc.sums (4096 * m + q) fun t =>
            { n := t.n + 1, see := t.see + e * e, sen := t.sen + e * right, sep := t.sep + (e : Int) * rho, srr := t.srr + (v * v).toNat,
              sr := t.sr + v, defs := t.defs + b2n low } }
    | _, _ => acc) acc

end Sys2Proof.Machine
end

