-- ==== Sys2Proof/Machine/CollateOps.lean ====
section
/-!
DEFINITION. A frame through registration and collation (R231 to R243), its merge into the statistics, and the commands of the inspection block.
-/

namespace Sys2Proof.Machine

/-! ## One frame -/

/-- L_sig of a signature, where ingress fixed it: also after its end. -/
def State.lenOf (s : State) (sig : Nat) : Option Nat :=
  match s.lsig sig with
  | some n => some n
  | none => (s.gth.lens.find? fun x => x.1 == sig).map (·.2)

/-- The entries a line of a row needs: in single-pass mode the line's own; in scanning mode one for each band p that covers the paper row (R90), of the swath p
earlier, at the same mask column (R236). Each with its band and signature; none where an entry is missing. [DEDUCED, log 66] -/
def State.bandEntries (s : State) (sig : Nat) (rev : Bool) (lines : Nat → List PtLine) (e : PtLine) : Option (List (Nat × Nat × PtLine)) :=
  if !s.scanning then some [(0, sig, e)]
  else
    let len (g : Nat) : Nat := (s.lenOf g).getD (match (lines g).getLast? with | some x => x.line + 1 | none => 0)
    let u := if rev then len sig - 1 - e.line else e.line
    let k := (sig + 2 ^ 32 - s.g F.QRE_SIGBASE_NUM) % 2 ^ 32
    ((List.range s.passes).filter fun p => p % s.ilace == 0 && decide (p ≤ k)).foldr (fun p acc =>
      match acc with
      | none => none
      | some r =>
        let sg := (sig + 2 ^ 32 - p) % 2 ^ 32
        let es := lines sg
        let back := match es.head? with | some x => x.rev | none => false
        match es.find? fun x => if back then x.line + 1 + u == len sg else x.line == u with
        | some x => some ((p, sg, x) :: r)
        | none => none) (some [])

/-- A row of a frame for module m: nothing, or its lines; the flag says an entry was missing. -/
def State.modRow (s : State) (f : CamFrame) (a : Anchor) (lines : Nat → List PtLine) (i m : Nat) : Option (List (Nat × List (Nat × Nat × PtLine))) × Bool :=
  match s.rowLines f a (lines a.sig) i (a.phi.getD m 0) with
  | .beyond => (none, false)
  | .missing => (none, true)
  | .lines ws =>
    match ws.mapM fun (w, e) => (s.bandEntries a.sig a.rev lines e).map fun b => (w, b) with
    | some r => if r.isEmpty then (none, false) else (some r, false)
    | none => (none, true)

/-- Read the level data of proof-tap entries, each once (R304 PTRD); none: an error response. [DEDUCED, log 66] -/
def State.ptRead (s : State) (idx : List Nat) : List (Nat × Option (Array Byte)) × State :=
  idx.foldl (fun (acc, s) i =>
    let base := s.g F.GTH_PTBASE_HI_ADDR * 2 ^ 32 + s.g F.GTH_PTBASE_LO_ADDR * 4096
    let (b, s) := s.dramRead (base + 49152 * i) 49152 3 0
    (acc ++ [(i, b.map List.toArray)], s)) ([], s)

/-- Modules with an enabled colour group. -/
def State.camMods (s : State) : List Nat := (List.range 32).filter fun m => (List.range 4).any fun g => (s.groupCh m g).isSome

/-- Whether a column is collated in this swath (R236): in scanning mode only those of band 0. -/
def State.colIn (s : State) (c : Col) : Bool :=
  !s.scanning || decide (s.barCol c.m (nozzleAt (s.layout c.m) c.g c.j) < s.g F.GTH_SCANCFG_BANDW)

/-- Whether a column next to a sampled one has no cell of its own on this row, so that its expected density is taken at the lines of the column beside it (R235): it
lies in another band, in a group that no camera channel is for, or on a module whose row is beyond its lines. One whose entries cannot be read has no density (R238). [DEDUCED, log 66] -/
def State.onlyNeighbour (s : State) (rows : List (Nat × Option (List (Nat × List (Nat × Nat × PtLine))) × Bool)) (c : Col) : Bool :=
  match (s.groupCh c.m c.g).isSome && s.colIn c, rows.find? fun r => r.1 == c.m with
  | _, some (_, _, true) => false
  | true, some (_, some _, _) => false
  | _, _ => true

/-- One row of a frame: its samples join the accumulator; rows without a readable entry count in INS_CNT_PTMISS. -/
def State.frameRow (s : State) (f : CamFrame) (a : Anchor) (z : Piped) (lines : Nat → List PtLine) (i : Nat) (acc : Accum) : Accum × State :=
  let rows := s.camMods.map fun m => (m, s.modRow f a lines i m)
  let s := s.incBy F.INS_CNT_PTMISS_COUNT (rows.countP fun r => r.2.2)
  let idx : List Nat := (rows.flatMap fun r => match r.2.1 with | some ls => ls.flatMap fun w => w.2.map fun b => b.2.2.idx | none => []).eraseDups
  let (data, s) := s.ptRead idx
  let get (i : Nat) : Option (Array Byte) := match data.find? fun d => d.1 == i with | some d => d.2 | none => none
  let read (ls : List (Nat × List (Nat × Nat × PtLine))) : Option (List RowLine) :=
    ls.mapM fun (l : Nat × List (Nat × Nat × PtLine)) =>
      (l.2.mapM fun (b : Nat × Nat × PtLine) => (get b.2.2.idx).map fun x => (b.1, b.2.1, b.2.2, x)).map fun b => (⟨l.1, b⟩ : RowLine)
  let good := rows.filterMap fun (m, r, _) => match r with | some ls => (read ls).map fun x => (m, x) | none => none
  let s := s.incBy F.INS_CNT_PTMISS_COUNT ((rows.countP fun r => r.2.1.isSome) - good.length)
  let cells := good.flatMap fun (m, ls) => (List.range 4).flatMap fun g =>
    match s.groupCh m g with
    | none => []
    | some ch =>
      let mk (inn : Bool) (c : Col) : RowCell := let x := s.sensorX f c; ⟨c, inn, x, if inn then f.dens z ch x i else none, s.cell ch ls c, ch⟩
      let cols := (s.colsOf m g).filter s.colIn
      cols.map (mk true) ++ ((cols.flatMap fun c => (s.colLeft c).toList ++ (s.colRight c).toList).filter fun c => s.onlyNeighbour rows c).map (mk false)
  (s.rowSamples (s.g F.INS_COLCFG_BLUR) i (bitsOf (f.par 0) 19 18) cells acc, s)

/-- Sums over pairs for a correlation: count, and the sums of y, ŷ, y², ŷ², y ŷ. -/
structure Corr where
  n : Int := 0
  a : Int := 0
  b : Int := 0
  aa : Int := 0
  bb : Int := 0
  ab : Int := 0

/-- The normalised correlation in 2^-16, truncated; 0 where a side does not vary. [DESIGN CHOICE, log 54] -/
def Corr.score (c : Corr) : Int :=
  let num := c.n * c.ab - c.a * c.b
  let den := (c.n * c.aa - c.a * c.a) * (c.n * c.bb - c.b * c.b)
  if den ≤ 0 then 0
  else
    let r : Int := (isqrt ((num * num * 4294967296 / den).toNat) : Nat)
    if num < 0 then -r else r

/-- The score C(s, t) of R234. [DESIGN CHOICE, log 54] -/
def scoreAt (f : CamFrame) (z : Piped) (ch : Nat) (reg : List (Int × Nat × Nat × Nat)) (sx st : Int) : Int :=
  (reg.foldl (fun (c : Corr) (x, i, yh, _) =>
    match f.dens z ch (x + 256 * sx) ((i : Int) + st) with
    | none => c
    | some y =>
      let y : Int := (y : Nat)
      let h : Int := (yh : Nat)
      { n := c.n + 1, a := c.a + y, b := c.b + h, aa := c.aa + y * y, bb := c.bb + h * h, ab := c.ab + y * h }) {}).score

/-- How registration decides a frame (R234). -/
inductive RegRes where
  | skip
  | fail
  | ok (ds dt : Rat)

/-- The offset of a parabola's vertex through three scores, within ±0.5. -/
def vertex (l c r : Int) : Rat :=
  let d := 2 * (l - 2 * c + r)
  let v : Rat := if d = 0 then 0 else ((l - r : Int) : Rat) / (d : Rat)
  max (-1 / 2) (min (1 / 2) v)

/-- Registration of a frame (R234). [DEDUCED, log 67] -/
def State.register (s : State) (f : CamFrame) (z : Piped) (reg : List (Int × Nat × Nat × Nat)) : RegRes :=
  let ch := bitsOf (f.par 0) 19 18
  let n := reg.length
  let sum := sumL (reg.map fun x => x.2.2.1)
  let sq := sumL (reg.map fun x => x.2.2.1 * x.2.2.1)
  if n * sq < sum * sum + s.g F.INS_REGCFG_REGMINV * n * n ∨ (n = 0 ∧ 0 < s.g F.INS_REGCFG_REGMINV) then .skip
  else
    let all := (List.range 9).flatMap fun (i : Nat) => (List.range 5).map fun (j : Nat) =>
      let sx : Int := (i : Int) - 4
      let st : Int := (j : Int) - 2
      (sx, st, scoreAt f z ch reg sx st)
    let best := all.foldl (fun (b : Int × Int × Int) x => if b.2.2 < x.2.2 then x else b) (all.headD (0, 0, 0))
    let (sx, st, c) := best
    if c * 256 < ((s.g F.INS_REGCFG_REGMIN * 65536 : Nat) : Int) ∨ sx.natAbs = 4 ∨ st.natAbs = 2 then .fail
    else
      let at' (x y : Int) : Int := scoreAt f z ch reg x y
      .ok ((sx : Rat) + vertex (at' (sx - 1) st) c (at' (sx + 1) st)) ((st : Rat) + vertex (at' sx (st - 1)) c (at' sx (st + 1)))

/-- The correction takes a step; a software write of REGCOR at the same time prevails (R234). [DEDUCED, log 67] -/
def State.regUpdate (s : State) (n : Nat) (ds dt : Rat) : State :=
  let gain : Rat := (s.g F.INS_REGCFG_REGGAIN : Nat)
  let step (v : Rat) : Int := (256 * v * gain / 16).floor
  let upd (s : State) (f : FR) (v : Rat) : State := s.p f (toBits 16 (clampI (-32768) 32767 (sext 16 (s.g f) + step v)))
  if s.wroteNow (F.INS_CTX_REGCOR_DXC n).addr then s else upd (upd s (F.INS_CTX_REGCOR_DXC n) ds) (F.INS_CTX_REGCOR_DYC n) dt

/-! ## Statistics records (R240 to R242) -/

/-- Address of word w of the record of nozzle index i over the bar. -/
def statAddr (i w : Nat) : Nat := 0x800000 + 24 * i + 4 * w

/-- The 192 bits of a record. -/
def State.stat (s : State) (i : Nat) : Nat := (List.range 6).foldr (fun w v => s.winWord (statAddr i w) + 2 ^ 32 * v) 0

/-- Write a record. -/
def State.setStat (s : State) (i v : Nat) : State := (List.range 6).foldl (fun s w => s.setWin (statAddr i w) (v / 2 ^ (32 * w) % 2 ^ 32)) s

/-- A record's fields. -/
structure Stat where
  n : Nat
  see : Nat
  sen : Nat
  sep : Int
  srr : Nat
  sr : Int
  defs : Nat
  halves : Nat
  deriving DecidableEq, Repr

/-- Read a record's bits (R240). -/
def statOf (v : Nat) : Stat :=
  ⟨bitsOf v 16 0, bitsOf v 48 17, bitsOf v 80 49, sext 33 (bitsOf v 113 81), bitsOf v 145 114, sext 25 (bitsOf v 170 146), bitsOf v 187 171, bitsOf v 190 188⟩

/-- A record's bits. -/
def Stat.bits (t : Stat) : Nat :=
  [(16, 0, t.n), (48, 17, t.see), (80, 49, t.sen), (113, 81, toBits 33 t.sep), (145, 114, t.srr), (170, 146, toBits 25 t.sr), (187, 171, t.defs),
    (190, 188, t.halves)].foldl (fun v x => putBits v x.1 x.2.1 x.2.2) 0

/-- Halve a record while N is at its limit (R241). -/
def Stat.halve (lim : Nat) : Nat → Stat → Stat
  | 0, t => t
  | k + 1, t =>
    if t.n < lim then t
    else Stat.halve lim k ⟨t.n / 2, t.see / 2, t.sen / 2, t.sep / 2, t.srr / 2, t.sr / 2, t.defs / 2, satN 7 (t.halves + 1)⟩

/-- Merge a frame's sums into a record. -/
def State.mergeStat (s : State) (i : Nat) (x : Sums) : State :=
  let t := statOf (s.stat i)
  let t : Stat := { t with n := t.n + x.n, see := t.see + x.see, sen := t.sen + x.sen, sep := t.sep + x.sep, srr := t.srr + x.srr, sr := t.sr + x.sr, defs := t.defs + x.defs }
  s.setStat i (Stat.halve (2 ^ s.g F.INS_COLCFG_NHALF) 64 t).bits

/-- Read word 0 of a record: it latches words 1 to 5 (R242). -/
def State.statRead (s : State) (i w : Nat) : Nat × State :=
  if w = 0 then (s.winWord (statAddr i 0), s.modIns fun x => { x with latch := some (i, (List.range 5).map fun k => s.winWord (statAddr i (k + 1))) })
  else
    match s.ins.latch with
    | some (j, ws) => (if j = i then ws.getD (w - 1) 0 else s.winWord (statAddr i w), s)
    | none => (s.winWord (statAddr i w), s)

/-- INS_CMD.CLRSTAT (R242). -/
def State.clrStat (s : State) (src : Src) : State :=
  if s.dev = .standby then { s with win := s.win.filter fun e => !(decide (0x800000 ≤ e.1) && decide (e.1 < 0xB00000)) }.sramClear fun k => k.1 == 6
  else s.recReg E.INS_CMD F.INS_CMD_CLRSTAT.addr src

/-- INS_CMD.RESTORE (R245). -/
def State.camRestore (s : State) (src : Src) (ports : Nat) : State :=
  if s.dev = .standby then
    ((List.range 4).filter fun p => bitOf ports p).foldl (fun s p =>
      ((s.p (F.INS_PORTSTS_RETIRED p) 0).p F.INS_STS_RETIRED (putBit (s.g F.INS_STS_RETIRED) p false)).modCam p fun x => { x with faults := [] }) s
  else s.recReg E.INS_CMD F.INS_CMD_RESTORE.addr src

/-- INS_CMD: the commands of one write. -/
def State.insCmd (s : State) (src : Src) (w : Nat) : State :=
  let s := if bitOf w 0 then s.clrStat src else s
  if bitsOf w 7 4 ≠ 0 then s.camRestore src (bitsOf w 7 4) else s

/-- INS_INJ: injections armed on a port (R246). -/
def State.insInj (s : State) (p w : Nat) : State := s.modCam p fun x => { x with inj := Nat.lor x.inj (w % 16) }

/-! ## Substrate sums (R243) -/

/-- The substrate record of a context's column: sum and count. -/
def State.sub (s : State) (n x : Nat) : Nat × Nat := (s.winWord (0x600000 + 8 * (8192 * n + x)), s.winWord (0x600000 + 8 * (8192 * n + x) + 4) % 65536)

/-- Write a substrate record. -/
def State.setSub (s : State) (n x : Nat) (v : Nat × Nat) : State :=
  (s.setWin (0x600000 + 8 * (8192 * n + x)) v.1).setWin (0x600000 + 8 * (8192 * n + x) + 4) v.2

/-- Halve sum and count while the count is at its limit. -/
def subHalve : Nat → Nat × Nat → Nat × Nat
  | 0, v => v
  | k + 1, v => if v.2 < 32768 then v else subHalve k (v.1 / 2, v.2 / 2)

/-- Merge a frame's substrate sums. -/
def State.substrate (s : State) (f : CamFrame) (z : Piped) (marks : List (Nat × Int)) : State :=
  (List.range f.width).foldl (fun s (x : Nat) =>
    let xc : Int := 256 * (x : Int)
    let rows := (List.range f.height).filter fun i => !f.pad i x && !(marks.any fun (k, mx) => k == i && decide ((mx - xc).natAbs ≤ 1024))
    if rows.isEmpty then s
    else
      let v := s.sub f.ctx x
      s.setSub f.ctx x (subHalve 64 (v.1 + sumL (rows.map fun i => z.v1.at i x), v.2 + rows.length))) s

/-! ## The end of a frame -/

/-- The frame's flags in INS_CTXn_FSTS, and its counters. [DEDUCED, log 65] -/
def State.frameFlags (s : State) (f : CamFrame) (fail skip : Bool) : State :=
  let n := f.ctx
  let s := s.setReg (F.INS_CTX_FSTS_DROP n).addr
    (b2n f.longF * 2 ^ 30 + b2n f.shortF * 2 ^ 29 + b2n f.crc * 2 ^ 28 + b2n f.noFe * 2 ^ 27 + b2n f.anchor.isNone * 2 ^ 26 + b2n fail * 2 ^ 25
      + b2n skip * 2 ^ 24 + satN 4095 f.shortL * 2 ^ 12 + satN 4095 f.longL)
  let s := (s.p (F.INS_CTX_FCNT_COUNT n) ((s.g (F.INS_CTX_FCNT_COUNT n) + 1) % 65536)).inc F.INS_CNT_FRAMES_COUNT
  let s := s.closeRunOf E.INS_FIFOOVF [n]
  let s := s.frameRun f
  if fail then
    let k := spGet 0 s.ins.fails n + 1
    let s := (s.inc F.INS_CNT_REGFAIL_COUNT).modIns fun x => { x with fails := spSet 0 x.fails n k }
    if k = s.g F.INS_REGCFG_FAILN then
      (s.record { c := E.INS_REGLOST, inst := n, ctxType := 7, ctx := s.ctxCamOf n, inj := f.injReg, handles := true }).latch Att.CAMREG
    else s
  else s.modIns fun x => { x with fails := spSet 0 x.fails n 0 }

/-- The columns that the 28,672 staging slots hold, in order across the bar; those beyond give no sample, in registration either (R241). [DEDUCED, log 67] -/
def Accum.slots (a : Accum) : Accum :=
  match a.sums[28672]? with
  | some (i, _) => { a with sums := a.sums.take 28672, reg := a.reg.filter fun x => decide (x.2.2.2 < i) }
  | none => a

/-- The frame in process finishes (R234, R241, R243). [DEDUCED, log 66] -/
def State.frameDone (s : State) : State :=
  match s.ins.proc with
  | none => s
  | some f =>
    if !f.ended then s
    else
      let s := s.modIns fun x => { x with proc := none }
      match f.anchor with
      | none => (s.frameFlags f f.injReg true).insStatus
      | some a =>
        let z := s.pipeline f
        let sigs := (List.range (if s.scanning then s.passes else 1)).map fun p => (a.sig + 2 ^ 32 - p) % 2 ^ 32
        let (ents, s) := s.ptTable
        let tab := sigs.map fun g => (g, s.ptLines ents g)
        let lines (g : Nat) : List PtLine := match tab.find? fun t => t.1 == g with | some t => t.2 | none => []
        let (acc, s) := (List.range f.height).foldl (fun (acc, s) i => State.frameRow s f a z lines i acc) (({} : Accum), s)
        let extra := acc.sums.length - 28672
        let s := s.incBy F.INS_CNT_OVERCOL_COUNT extra
        let acc := acc.slots
        let sums := acc.sums
        let res := if f.injReg then RegRes.fail else if s.gb F.INS_CTL_REGEN then s.register f z acc.reg else .skip
        let (fail, skip) : Bool × Bool := match res with | .fail => (true, false) | .skip => (false, true) | .ok _ _ => (false, false)
        let s := match res with | .ok ds dt => s.regUpdate f.ctx ds dt | _ => s
        let s := s.frameFlags f fail skip
        if fail then s.insStatus
        else
          let s := if s.gb F.INS_CTL_COLEN then sums.foldl (fun s (i, x) => s.mergeStat i x) s else s
          (if s.gb F.INS_CTL_SUBEN then s.substrate f z acc.marks else s).insStatus

end Sys2Proof.Machine
end

