-- ==== Sys2Proof/Machine/FolioOps.lean ====
section
/-!
DEFINITION. The folio pair, first part (R266 to R280): frames, digests, the comparison of lines, suspicion, the self-check, ownership and promotion.
-/

namespace Sys2Proof.Machine

/-- Change the folio block. -/
def State.modFol (s : State) (f : FolSt → FolSt) : State := { s with fol := f s.fol }

/-! ## Frames (R267, R271, R276) -/

/-- The modules whose lane from this device is ACTIVE, as a bitmap. -/
def State.lanesMap (s : State) : Nat := sumL ((List.range 32).map fun m => if s.laneUp m then 2 ^ m else 0)

/-- A self-check that can no longer end is given up: the peer is gone, or line work stops. [DEDUCED, log 35] -/
def State.chkStop (s : State) : State := if s.fol.chk.isNone && !s.fol.askChk then s else (s.modFol fun x => { x with chk := none, askChk := false }).p F.FOL_STS_SELFCHK 0

/-- Send FOL_STATE: device state, acting role, SUSPECT, what follows as flags ([0] K_h present, [1] K_h is to HOLD, [2] K_c present, [3] a self-check is
asked for, [4] K_h is to STANDBY), the state a FOLIO_HOLDREQ asks for, K_h, K_c, and the modules whose lane from this device is ACTIVE, which R272 and R284 have
the peer know. [DESIGN CHOICE, log 30] -/
def State.folState (s : State) (req : Nat) : State :=
  let kh := s.fol.kh
  let kc := s.fol.chk.map fun c => c.kc
  let flags := b2n kh.isSome + 2 * b2n (match kh with | some (_, h) => h | none => false) + 4 * b2n (kc.isSome && s.primary) + 8 * b2n s.fol.askChk + 16 * b2n s.fol.khStop
  s.folSend FT.FOL_STATE (leBytes 1 (devCode s.dev) ++ leBytes 1 (s.g F.FOL_STS_ACTROLE) ++ leBytes 1 (s.g F.FOL_STS_SUSPECT) ++ leBytes 1 flags
    ++ leBytes 1 req ++ leBytes 3 0 ++ leBytes 4 (match kh with | some (k, _) => k | none => 0) ++ leBytes 4 (kc.getD 0)
    ++ leBytes 4 s.lanesMap)

/-- Change the device state of a member, telling the peer (R267). -/
def State.folDev (s : State) (d : Dev) : State := (s.setDev d).folState 0

/-- Any folio frame shows that the peer is up; an isolation ends, and the acting standby will rejoin (R279). -/
def State.folHeard (s : State) : State :=
  let s := s.p F.FOL_STS_PEERUP 1
  if s.gb F.FOL_STS_ISOLATED then (s.p F.FOL_STS_ISOLATED 0).modFol fun x => { x with rejoin := x.rejoin || (s.standby && s.running) } else s

/-! ## Retirement and suspicion (R276, R277, R285) -/

/-- A member enters RETIRED (R285), from a state that R410 lists: transmitters idle, FEN low, FOL_STATE, the record. -/
def State.folRetire (s : State) : State :=
  if !(s.running || s.dev == .standby || s.dev == .fault) then s else
  let s := ((List.range 32).foldl (fun s m => ((s.cmdClear m).modLane m fun x => { x with wait := false }).setStage m .disabled 0) (s.setDev .retired)).fenAllLow
  (s.folState 0).record { c := E.FOL_RETIRE, ctxType := 1, handles := true }

/-- The self-check fails, and is over (R276, R277). -/
def State.selfFail (s : State) : State :=
  let s := (s.modFol fun x => { x with chk := none, askChk := false }).p F.FOL_STS_SELFCHK 0
  if !s.standby then s
  else (s.record { c := E.FOL_SELFFAIL, ctxType := 1, handles := true }).folRetire

/-- The self-check has passed once its 33 digests agree and, on the standby, the scrub pass has ended; the standby then joins by itself (R277, R281). -/
def State.selfPass (s : State) : State :=
  match s.fol.chk with
  | some c =>
    if 33 ≤ c.agreed ∧ (c.scrubbed ∨ !s.standby) then
      (s.modFol fun x => { x with chk := none, askChk := false, rejoin := x.rejoin || s.standby }).p F.FOL_STS_SELFCHK 0
    else s
  | none => s

/-- The primary names K_c and the self-check starts (R276). -/
def State.nameKc (s : State) : State :=
  if s.fol.chk.isSome then s
  else ((s.modFol fun x => { x with chk := some { kc := (s.gth.k + 2 ^ 32 - 1 + 2 * s.g F.NZH_MAPCFG_ADLY) % 2 ^ 32 } }).p F.FOL_STS_SELFCHK 1).folState 0

/-- The standby's self-check starts at the K_c the primary named, in place of one that was cut short. [DEDUCED, log 35] -/
def State.takeKc (s : State) (kc : Nat) : State :=
  if s.fol.chk.any fun c => c.kc == kc then s else (s.modFol fun x => { x with chk := some { kc }, askChk := false }).p F.FOL_STS_SELFCHK 1

/-- A self-check is wanted: the primary names its line, the standby asks the primary. -/
def State.startChk (s : State) : State := if s.standby then (s.modFol fun x => { x with askChk := true }).folState 0 else s.nameKc

/-- An unexplained outcome on the acting standby (R276, R277). -/
def State.suspect (s : State) (ctx : Nat) (inj : Bool) : State :=
  let was := s.gb F.FOL_STS_SUSPECT
  let s := (s.p F.FOL_STS_SUSPCNT (satN 255 (s.g F.FOL_STS_SUSPCNT + 1))).inc F.FOL_CNT_SUSPECT_COUNT
  let s := (s.p F.FOL_STS_SUSPECT 1).modFol fun x => { x with clean := 0 }
  let s := if was then s else (s.record { c := E.FOL_SUSPECT, ctxType := 1, ctx, inj, handles := true }).startChk
  let lim := s.g F.FOL_CFG_SUSPMAX
  if lim ≠ 0 ∧ lim ≤ s.g F.FOL_STS_SUSPCNT then s.folRetire else s

/-- SUSPECT clears after 2^CLEARN clean lines once the self-check has passed (R277). [DEDUCED, log 35] -/
def State.suspectClear (s : State) : State :=
  if s.gb F.FOL_STS_SUSPECT && s.fol.chk.isNone && !s.fol.askChk && decide (2 ^ s.g F.FOL_CFG_CLEARN ≤ s.fol.clean) then
    (s.p F.FOL_STS_SUSPECT 0).folState 0
  else s

/-! ## Comparison (R273 to R275) -/

/-- Whether module m is tainted at line k (R274). -/
def State.tainted (s : State) (m k : Nat) : Bool := decide (k < spGet 0 s.fol.taint m)

/-- Taint module m until before line e. -/
def State.taintM (s : State) (m e : Nat) : State := s.modFol fun x => { x with taint := spMod 0 x.taint m (Nat.max e) }

/-- Taint every module until before line e. -/
def State.taintAll (s : State) (e : Nat) : State := (List.range 32).foldl (fun s m => s.taintM m e) s

/-- The modules of a cause bitmap are tainted for 260 lines from line k. -/
def State.taintCause (s : State) (k cause : Nat) : State :=
  (List.range 32).foldl (fun s m => if bitOf cause m then s.taintM m (k + 260) else s) s

/-- The payload of FOL_LINE (R273). -/
def digBytes (d : LineDig) : Bytes :=
  leBytes 2 d.k ++ leBytes 2 0 ++ leBytes 4 d.sig ++ leBytes 4 d.line ++ leBytes 1 d.flags ++ leBytes 3 0 ++ leBytes 16 d.blank ++ leBytes 4 d.cause
    ++ (List.range 32).flatMap fun m => leBytes 4 (d.dig.getD m 0)

/-- Read a FOL_LINE payload. -/
def digOf (b : Bytes) : LineDig :=
  ⟨leAt b 0 2, leAt b 4 4, leAt b 8 4, byteAt b 12, leAt b 16 16, leAt b 32 4, (List.range 32).map fun m => leAt b (36 + 4 * m) 4⟩

/-- The digest of module m of a line: CRC-32C over its 16 bundle CRCs; 0 for a module with no enabled context. [DESIGN CHOICE, log 31] -/
def State.modDigest (s : State) (x : Line) (m : Nat) : Nat :=
  if !s.modOn m then 0
  else
    let w := (x.ml m).words
    crc32c ((List.range 16).flatMap fun g => (bundleBytes (x.k % 65536) g w).drop 224)

/-- Compare the two members' digests of a line (R275). `k` is the line's full number. [DEDUCED, log 35] -/
def State.folCompare (s : State) (k : Nat) (o p : LineDig) : State :=
  let ctx := ctxLine 0 0 o.sig o.line
  let s := (s.taintCause k o.cause).taintCause k p.cause
  let s := if bitOf o.flags 1 != bitOf p.flags 1 && (bitOf o.flags 2 || bitOf p.flags 2) then s.taintAll (k + 260) else s
  let s := (s.modFol fun x => { x with missNs := none }).closeRunOf E.FOL_PEERLOST []
  if o.sig ≠ p.sig ∨ o.line ≠ p.line then
    (s.record { c := E.FOL_SEQ, ctxType := 1, ctx, stays := true, byGap := false, handles := true }).modFol fun x => { x with rejoin := x.rejoin || s.standby, clean := x.clean + 1 }
  else
    let s := s.closeRunOf E.FOL_SEQ []
    let diff := (List.range 32).filter fun m => o.dig.getD m 0 != p.dig.getD m 0
    if diff.isEmpty then (s.closeRunOf E.FOL_DIVERGE []).modFol fun x => { x with clean := x.clean + 1, agreed := k % 65536 :: x.agreed.take 63 }
    else if diff.all fun m => s.tainted m k then
      ((s.inc F.FOL_CNT_EXPL_COUNT).record { c := E.FOL_DIVERGE, ctxType := 1, ctx := ctxLine (diff.headD 0) 0 o.sig o.line, stays := true, byGap := false }).modFol
        fun x => { x with clean := x.clean + 1 }
    else
      let s := s.inc F.FOL_CNT_UNEXPL_COUNT
      if s.standby && !s.gb F.FOL_STS_ISOLATED then s.suspect ctx false else s.modFol fun x => { x with clean := 0 }

/-- Send this member's digest of a line, taint what it has a cause for, and compare it with the peer's where that has come (R273 to R275). -/
def State.folLineOut (s : State) (x : Line) (flags : Nat) : State :=
  let d : LineDig := ⟨x.k % 65536, x.sig, x.line, flags, x.blank, x.cause, (List.range 32).map (s.modDigest x)⟩
  let s := (s.taintCause x.k x.cause).modFol fun y => { y with own := (⟨x.k, d.sig, d.line, d.flags, d.blank, d.cause, d.dig⟩ : LineDig) :: y.own.take 63 }
  let drop := s.fol.injDrop
  let s := if drop then (s.modFol fun y => { y with injDrop := false }).inc F.ERR_CNT_INJ_COUNT else s
  let bad := s.fol.injDig && !drop
  let s := if bad then (s.modFol fun y => { y with injDig := false }).inc F.ERR_CNT_INJ_COUNT else s
  let m := s.g F.FOL_INJ_MOD
  let out := if bad then { d with dig := d.dig.set m (Nat.xor (d.dig.getD m 0) 1) } else d
  let s := if drop then s else s.folSend FT.FOL_LINE (digBytes out)
  match s.fol.peer.find? fun p => p.k == x.k % 65536 with
  | some p => (s.modFol fun y => { y with peer := y.peer.filter fun q => q.k != p.k }).folCompare x.k d p
  | none => s

/-- A FOL_LINE arrives (R275). A standby that is to rejoin asks for the signature two after the primary's (R281). [DEDUCED, log 36] -/
def State.folLineIn (s : State) (b : Bytes) : State :=
  let p := digOf b
  let s : State := if s.fol.rejoin && s.standby then
      let sj := (p.sig + 2) % 2 ^ 32
      (s.modFol fun x => { x with rejoin := false, joinSig := some sj }).folSend FT.FOL_JOIN (leBytes 1 1 ++ leBytes 4 sj)
    else s
  match s.fol.own.find? fun o => o.k % 65536 == p.k with
  | some o => s.folCompare o.k o p
  | none => s.modFol fun x => { x with peer := p :: x.peer.take 63 }

/-- No FOL_LINE of the peer within PTMO of this member's own (R275). -/
def State.folLineMiss (s : State) : State :=
  if !s.member then s
  else
    let s := s.inc F.FOL_CNT_PEERMISS_COUNT
    match s.fol.missNs with
    | none => s.modFol fun x => { x with missNs := some s.ns }
    | some t =>
      if s.g F.FOL_CFG_PTMO * 1000 < s.ns - t then
        let o := match s.fol.own.head? with | some o => ctxLine 0 0 o.sig o.line | none => 0
        let fresh := !(s.err.opened.any fun r => r.key.head? == some E.FOL_PEERLOST.code)
        let s := s.record { c := E.FOL_PEERLOST, ctxType := 1, ctx := o, stays := true, byGap := false, handles := true }
        if fresh then s.raise SEv.FOLIO_PEERLOST 0 else s
      else s

/-! ## Digests of configuration (R272, R276) -/

/-- The addresses of a family's registers. -/
def Fam.addrs (f : Fam) : List Nat := (List.range f.n).flatMap fun i => (List.range f.n2).map fun j => f.base + f.stride * i + f.stride2 * j

/-- The RW bits of a family. -/
def Fam.rwMask (f : Fam) : Nat := f.flds.foldl (fun v x => if x.acc = .rw then putBits v x.hi x.lo (2 ^ 32 - 1) else v) 0

/-- The registers of the configuration digest with the bits taken, in address order. -/
def digestRegs : List (Nat × Nat) :=
  let fam (f : Fam) : List (Nat × Nat) := if f.rwMask = 0 then [] else f.addrs.map fun a => (a, f.rwMask)
  let one (f : FR) : Nat × Nat := (f.addr, putBits 0 f.hi f.lo (2 ^ 32 - 1))
  let reg (a : Nat) : Nat × Nat := (a, match famOf a with | some f => f.rwMask | none => 0)
  let l := one F.GLB_CFG_MODE :: reg F.QRE_CFG_MAXBPN.addr :: reg F.QRE_SIGBASE_NUM.addr :: (List.range 4).map (fun k => reg (F.QRE_CTXEN_EN k).addr)
    ++ famsGTH.flatMap fam ++ famsFIR.flatMap fam ++ [reg F.POS_LRMAX_HZ.addr, reg F.POS_PITCH_COUNTS.addr, reg F.POS_SIGCFG_DLY.addr, reg F.POS_VCFG_VWIN.addr]
    ++ (List.range 32).map (fun m => reg (F.POS_PHASE_PHASE m).addr) ++ (List.range 32).map (fun m => one (F.THL_CFG_REFIRE m))
  l.foldr (insertBy fun x => x.1) []

/-- The words of a window. -/
def State.winBytes (s : State) (a n : Nat) : Bytes := (List.range n).flatMap fun i => leBytes 4 (s.winWord (a + 4 * i))

/-- The configuration digest, with or without the nozzle map (R272, R276). [DESIGN CHOICE, log 31] -/
def State.cfgDigest (s : State) (withMap : Bool) : Nat :=
  crc32c ((digestRegs.flatMap fun (a, mask) => leBytes 4 (Nat.land (s.reg a) mask)) ++ (if withMap then s.winBytes 0x400000 131072 else [])
    ++ s.winBytes 0x480000 65536 ++ s.winBytes 0x4C0000 65536 ++ s.winBytes 0x500000 768 ++ s.winBytes 0x502000 2048)

/-- The digest of module m's map entries (R276). [DESIGN CHOICE, log 31] -/
def State.mapDigest (s : State) (m : Nat) : Nat := crc32c (s.winBytes (nzAddr m 0) 4096)

/-- Two digests of one check and line: the self-check counts an agreement or fails (R277). [DESIGN CHOICE, log 38] -/
def State.digPair (s : State) (check a b : Nat) : State :=
  if check = 1 then s
  else
    match s.fol.chk with
    | none => s
    | some c => if a = b then (s.modFol fun x => { x with chk := some { c with agreed := c.agreed + 1 } }).selfPass else s.selfFail

/-- Send a digest and keep it; it meets the peer's where that has come. [DESIGN CHOICE, log 30, 38] -/
def State.digOut (s : State) (check k v : Nat) : State :=
  let bad := s.fol.injCfg && check != 1
  let s := if bad then (s.modFol fun x => { x with injCfg := false }).inc F.ERR_CNT_INJ_COUNT else s
  let s := if check = 3 then s else s.p F.FOL_CFGDIG_CRC v
  let s := (s.modFol fun x => { x with digs := (check, k, v) :: x.digs.take 63 }).folSend FT.FOL_DIGEST
    (leBytes 1 check ++ leBytes 3 0 ++ leBytes 4 k ++ leBytes 4 (if bad then Nat.xor v 1 else v))
  match s.fol.peerDigs.find? fun d => d.1 == check && d.2.1 == k with
  | some d => (s.modFol fun x => { x with peerDigs := x.peerDigs.erase d }).digPair check v d.2.2
  | none => s

/-- A FOL_DIGEST arrives. [DESIGN CHOICE, log 38] -/
def State.digIn (s : State) (check k v : Nat) : State :=
  let s := if check = 3 then s else s.p F.FOL_PEERDIG_CRC v
  match s.fol.digs.find? fun d => d.1 == check && d.2.1 == k with
  | some d => (s.modFol fun x => { x with digs := x.digs.erase d }).digPair check d.2.2 v
  | none => s.modFol fun x => { x with peerDigs := (check, k, v) :: x.peerDigs.take 63 }

/-- The digests due at the boundary before module-line k (R276). -/
def State.chkBoundary (s : State) (k : Nat) : State :=
  match s.fol.chk with
  | none => s
  | some c =>
    let s := if k = c.kc then s.digOut 2 k (s.cfgDigest false) else s
    if c.kc ≤ k ∧ k < c.kc + 32 then s.digOut 3 k (s.mapDigest (k - c.kc)) else s

/-! ## Ownership, promotion and isolation (R278 to R280) -/

/-- Whether this device is the home standby, which drives lane B. -/
def State.homeStandby (s : State) : Bool := s.gb F.FOL_STS_HOMEROLE

/-- Whether module m reports this device's lane as owner. -/
def State.owns (s : State) (m : Nat) : Bool := bitOf (s.g F.FOL_OWNA_MAP) m != s.homeStandby

/-- Whether the modules of the enabled contexts whose lane from this device is ACTIVE all report it as owner. -/
def State.ownsAll (s : State) : Bool := s.mods.all fun m => !s.laneUp m || s.owns m

/-- The acting standby promotes itself (R280). -/
def State.promote (s : State) : State :=
  let s := (s.p F.FOL_STS_ACTROLE 0).modFol fun x => { x with rejoin := false, joinSig := none }
  let s := { s with cal := { s.cal with since := [] } }
  let s := (List.range 32).foldl (fun s m => s.p (F.CAL_MODSTS_QUIET m) 0) s
  (((s.record { c := E.FOL_PROMOTE, ctxType := 1, handles := true }).latch Att.FOLFAIL).raise SEv.FOLIO_PROMOTE 0)

/-- The peer is silent, or has sent FAULT or RETIRED (R279), in STANDBY, RUN or HOLD: promotion, isolation, or the isolated primary's demotion. -/
def State.peerGone (s : State) : State :=
  let s := s.chkStop
  if !(s.running || s.dev == .standby) then s
  else if s.standby then (if s.ownsAll then (s.p F.FOL_STS_ISOLATED 0).promote else s.p F.FOL_STS_ISOLATED 1)
  else
    let s := s.p F.FOL_STS_ISOLATED 1
    if !s.mods.isEmpty && s.mods.all fun m => !s.owns m then s.p F.FOL_STS_ACTROLE 1 else s

/-- Whether the peer counts as gone: silent, or in FAULT or RETIRED. -/
def State.peerLost (s : State) : Bool := !s.gb F.FOL_STS_PEERUP || s.fol.peerDev == 8 || s.fol.peerDev == 10

/-- No folio frame for PTMO (R279). -/
def State.folTimeout (s : State) : State := if s.member then (s.p F.FOL_STS_PEERUP 0).peerGone else s

/-- A revert or swap has gone through when each module it moves reports its new owner (R284). -/
def State.revertDone (s : State) : State :=
  match s.fol.revert with
  | some (some _, ms, swap) =>
    let toA : Bool := if swap then s.homeStandby == s.primary else true
    if (List.range 32).all fun m => !bitOf ms m || bitOf (s.g F.FOL_OWNA_MAP) m == toA then
      let s := s.modFol fun x => { x with revert := none }
      let role := if swap then 1 - s.g F.FOL_STS_ACTROLE else b2n s.homeStandby
      ((s.p F.FOL_STS_ACTROLE role).inc F.FOL_CNT_REVERT_COUNT).record { c := E.FOL_REVERT, ctxType := 1, handles := true }
    else s
  | _ => s

/-- What a member takes from a good line status frame (R275, R278, R279). -/
def State.folStatus (s : State) (m : Nat) (f : SFrame) : State :=
  if !s.member then s
  else
    let s := s.p F.FOL_OWNA_MAP (putBit (s.g F.FOL_OWNA_MAP) m (!bitOf f.b8 0))
    let ctx := s.ctxFrame m f.lfn
    let s := if bitOf f.b8 3 && s.fol.revert.isNone then
        (s.inc F.FOL_CNT_FAILOVER_COUNT).record { c := E.FOL_OWNFAIL, ctxType := 1, ctx, stays := true, handles := true }
      else s
    let agree := s.fol.agreed.contains f.lfn
    let s := if f.mism != 0 && agree then
        ((s.inc F.FOL_CNT_MODMIS_COUNT).record { c := E.FOL_MODMIS, inst := m, ctxType := 1, ctx, key := [m], stays := true, byGap := false, handles := true }).latch Att.FOLDEGR
      else s
    let s := if f.mism == 0 then s.closeRunOf E.FOL_MODMIS [m] else s
    let s := s.revertDone
    if s.peerLost then s.peerGone else s

end Sys2Proof.Machine
end

