-- ==== Sys2Proof/Machine/CalOps.lean ====
section
/-!
DEFINITION. Operations of uniformity calibration (R248 to R265): quiet modules, publications, the streak test and flat fields.
-/

namespace Sys2Proof.Machine

/-- Change the calibration block. -/
def State.modCal (s : State) (f : CalSt → CalSt) : State := { s with cal := f s.cal }

/-! ## Quiet modules (R249) -/

/-- Module m is not quiet: its count of quiet lines starts again. -/
def State.unquiet (s : State) (m : Nat) : State := (s.modCal fun x => { x with since := spSet none x.since m none }).p (F.CAL_MODSTS_QUIET m) 0

/-- Whether every applied trim of module m equals its target. -/
def State.trimsDone (s : State) (m : Nat) : Bool := (List.range 4096).all fun q => s.trimOf m q == s.trimTarget m q

/-- Whether a calibration write of module m is staged and unapplied. -/
def State.calStaged (s : State) (m : Nat) : Bool := (s.stagedOf m ++ s.nzh.waiting).any fun w => w.src == 3 && w.m == m

/-- Module m at a line boundary before module-line k: the conditions of quiet hold on, or fail (R249). A changed flat-field bank fails them once. [DEDUCED, log 72] -/
def State.quietBoundary (s : State) (m k : Nat) : State :=
  let s := if bitOf s.cal.banked m then (s.modCal fun x => { x with banked := putBit x.banked m false }).unquiet m else s
  if s.dev != .run || s.calStaged m || s.cal.job.any (fun j => j.m == m) || !s.trimsDone m then
    (if (spGet none s.cal.since m).isSome || s.gb (F.CAL_MODSTS_QUIET m) then s.unquiet m else s)
  else if (spGet none s.cal.since m).isNone then s.modCal fun x => { x with since := spSet none x.since m (some k) }
  else s

/-- SETTLE in module-lines. -/
def State.settle (s : State) : Nat := 256 * (if s.g F.CAL_CFG_SETTLE = 0 then 16 else s.g F.CAL_CFG_SETTLE)

/-- Module m becomes quiet and its records are cleared (R249). -/
def State.quietOnset (s : State) (m : Nat) : State :=
  match spGet none s.cal.since m with
  | some k =>
    if s.dev == .run && !s.gb (F.CAL_MODSTS_QUIET m) && decide (k + s.settle ≤ s.gth.k) then
      { s.p (F.CAL_MODSTS_QUIET m) 1 with win := s.win.filter fun e => !(decide (statAddr (4096 * m) 0 ≤ e.1) && decide (e.1 < statAddr (4096 * (m + 1)) 0)) }.sramClear
        fun k => k.1 == 6 && k.2 / 12288 == m
    else s
  | none => s

/-! ## Records (R251, R255) -/

/-- A record scaled by its halvings. -/
def Stat.scaled (t : Stat) : Stat :=
  let k := 2 ^ t.halves
  ⟨t.n * k, t.see * k, t.sen * k, t.sep * k, t.srr * k, t.sr * k, t.defs * k, 0⟩

/-- Whether nozzle q of module m is eligible (R255). -/
def State.eligible (s : State) (m q : Nat) : Bool :=
  nzUsable (s.nz m q) && s.gb (F.CAL_MODSTS_QUIET m) && decide (2 ^ s.g F.CAL_CFG_NMINLG ≤ (statOf (s.stat (4096 * m + q))).scaled.n)

/-- The sum of the temperature codes in module m's last line status frames, and their number (R254). -/
def State.tempSum (s : State) (m : Nat) : Nat × Nat := let l := spGet [] s.cal.temps m; (sumL l, l.length)

/-- A good line status frame brings a temperature code (R254). -/
def State.calTemp (s : State) (m temp : Nat) : State := s.modCal fun x => { x with temps := spMod [] x.temps m fun l => temp :: l.take 255 }

/-- Whether the mean temperature asks for a publication (R254). -/
def State.tempMoved (s : State) (m : Nat) : Bool :=
  let t := s.g (F.CAL_TREF_TEMP m)
  let (sum, n) := s.tempSum m
  t == 0xFFF || (decide (0 < n) && decide (s.g F.CAL_PUBCFG_TTHR * n < ((sum : Int) - (t * n : Nat)).natAbs))

/-- Whether this device publishes (R258). -/
def State.publishes (s : State) : Bool := s.gb F.CAL_CTL_EN && !s.standby

/-- Whether some camera context is enabled: a folio member without one never publishes (R280). -/
def State.camOn (s : State) : Bool := (List.range 8).any fun n => s.gb (F.INS_CTX_CFG_EN n)

/-- Make a publication of module m pending (R254, R280). -/
def State.pend (s : State) (m : Nat) : State := if s.publishes && (!s.member || s.camOn) then s.p (F.CAL_MODSTS_PEND m) 1 else s

/-! ## Publication (R254 to R256, R260) -/

/-- The channels of a module's colour groups. -/
def State.chansOf (s : State) (m : Nat) : List Nat := ((List.range 4).filterMap (s.groupCh m)).eraseDups

/-- A chain: the columns across the bar whose colour groups map to a channel, in ascending bar coordinate (R248). -/
def State.chain (s : State) (c : Nat) : List Col :=
  (List.range 32).flatMap fun m => ((List.range 4).filter fun g => s.groupCh m g == some c).flatMap fun g => s.colsOf m g

/-- Step 1: the records of the eligible nozzles of the chains through m, and m's own cleared; then m is no longer quiet. [DEDUCED, log 72] -/
def State.pubStart (s : State) (m : Nat) : State :=
  let noz := (s.chansOf m).flatMap fun c => (s.chain c).flatMap s.colNozzles
  let el := noz.filter fun (a, q) => s.eligible a q
  let recs := el.map fun (a, q) =>
    let t := (statOf (s.stat (4096 * a + q))).scaled
    (4096 * a + q, [(t.n : Int), t.see, t.sen, t.sep, t.srr, t.sr])
  let (sum, n) := s.tempSum m
  let (mean, s) := if n = 0 then (let (v, s) := s.draw; (v % 4096, s)) else (sum / n, s)
  let s := (el.filter fun x => x.1 == m).foldl (fun s (a, q) => s.setStat (4096 * a + q) 0) s
  let s := (s.modCal fun x => { x with job := some ⟨m, mean, recs⟩ }).unquiet m
  ((s.p (F.CAL_MODSTS_PEND m) 0).p F.CAL_STS_BUSY 1).p F.CAL_STS_MOD m

/-- At a line boundary: pending publications, and the first that can run (R254). -/
def State.pubBoundary (s : State) : State :=
  if !s.publishes then s
  else
    let s := if s.gb F.CAL_CTL_AUTOPUB then (List.range 32).foldl (fun s m => if s.tempMoved m then s.pend m else s) s else s
    if s.cal.job.isSome then s
    else
      match s.mods.find? fun m => s.gb (F.CAL_MODSTS_PEND m) && s.gb (F.CAL_MODSTS_QUIET m) && (List.range 4096).any fun q => s.eligible m q with
      | some m => s.pubStart m
      | none => s

/-- The estimates δ in 2^-24, by nozzle index. -/
abbrev Deltas := Sparse Int

/-- A record field of a job. -/
def recOf (recs : List (Nat × List Int)) (i k : Nat) : Option Int := match recs.find? fun r => r.1 == i with | some r => some (r.2.getD k 0) | none => none

/-- δ of a neighbouring column: 0 where none is eligible; at an overlap the mean of its nozzles, weighted by N (R251). -/
def State.nbDelta (s : State) (recs : List (Nat × List Int)) (d : Deltas) (c : Option Col) : Int :=
  match c with
  | none => 0
  | some c =>
    let ns := (s.colNozzles c).filterMap fun (m, q) => (recOf recs (4096 * m + q) 0).map fun n => (n, spGet 0 d (4096 * m + q))
    let w := (ns.map (·.1)).foldl (· + ·) 0
    if w ≤ 0 then 0 else ((ns.map fun x => x.1 * x.2).foldl (· + ·) 0) / w

/-- SEN of a neighbouring column's record. -/
def State.nbSen (s : State) (recs : List (Nat × List Int)) (c : Option Col) : Int :=
  match c with
  | none => 0
  | some c => (s.colNozzles c).foldl (fun v (m, q) => v + (recOf recs (4096 * m + q) 2).getD 0) 0

/-- One Gauss-Seidel sweep over a chain (R251, R252). [DESIGN CHOICE, log 54] -/
def State.sweepChain (s : State) (dd kk : Int) (recs : List (Nat × List Int)) (ch : List Col) (d : Deltas) : Deltas :=
  ch.foldl (fun d c => (s.colNozzles c).foldl (fun d (m, q) =>
    let i := 4096 * m + q
    match recOf recs i 1, recOf recs i 2, recOf recs i 3 with
    | some see, some sen, some sep =>
      let num := sep * 65536 * 16777216 - kk * (s.nbSen recs (s.colLeft c) * s.nbDelta recs d (s.colLeft c) + sen * s.nbDelta recs d (s.colRight c))
      spSet 0 d i (if dd * see = 0 then Config.quotZero num else num / (dd * see))
    | _, _, _ => d) d) d

/-- δ' of a chain: ITER sweeps and the chain mean removed (R252). [DESIGN CHOICE, log 54] -/
def State.solveChain (s : State) (recs : List (Nat × List Int)) (c : Nat) : List (Nat × Int) :=
  let w1 : Int := (s.g F.INS_COLCFG_BLUR : Nat)
  let w0 : Int := 256 - 2 * w1
  let ch := s.chain c
  let d := iter (s.sweepChain (w0 * w0 + 2 * w1 * w1) (2 * w0 * w1) recs ch) (s.g F.CAL_CFG_ITER) []
  let el := (ch.flatMap s.colNozzles).filterMap fun (m, q) => (recOf recs (4096 * m + q) 0).map fun _ => (4096 * m + q, spGet 0 d (4096 * m + q))
  let n : Int := (el.length : Nat)
  let mu := if n = 0 then 0 else ((el.map (·.2)).foldl (· + ·) 0) / n
  el.map fun (i, v) => (i, v - mu)

/-- What step 3 decides for a nozzle: index over the module, new target, Δ, and whether it was an outlier, clamped, held at the range. -/
structure PubRes where
  q : Nat
  target : Int
  delta : Int
  outl : Bool
  clamp : Bool
  sat : Bool

/-- Step 3 for a nozzle (R255). -/
def State.pubNozzle (s : State) (m q : Nat) (d : Int) : PubRes :=
  let outl := decide (((s.g F.CAL_PUBCFG_OUTLIM * 16777216 : Nat) : Int) < 400 * (d.natAbs : Int))
  let raw := if outl then 0 else -rdivI (400 * (s.g F.CAL_CFG_GAIN : Int) * d) (16 * 16777216)
  let mx : Int := (s.g F.CAL_CFG_MAXSTEP : Nat)
  let dl := clampI (-mx) mx raw
  let t := s.trimTarget m q + dl
  ⟨q, clampI (-64) 63 t, dl, outl, dl != raw, clampI (-64) 63 t != t⟩

/-- σ̂² of a nozzle (R253). [DESIGN CHOICE, log 53] -/
def State.sigma2 (s : State) (r : List Int) : Rat :=
  let w1 : Int := (s.g F.INS_COLCFG_BLUR : Nat)
  let w0 : Int := 256 - 2 * w1
  let f (k : Nat) : Rat := ((r.getD k 0 : Int) : Rat)
  let dd : Rat := ((w0 * w0 + 2 * w1 * w1 : Int) : Rat)
  if dd * f 1 = 0 ∨ f 0 = 0 then ((Config.quotZero (r.getD 4 0) : Int) : Rat) else (f 4 / f 0 - f 5 / f 0 * (f 5 / f 0)) * 65536 / (dd * f 1)

/-- The floor of the square root of a rational number that is not negative. -/
def ratSqrt (v : Rat) : Nat := isqrt v.floor.toNat

/-- CONF for a scaled sample count (R199). -/
def confOf (n : Nat) : Nat := satN 15 (log2N n - 5)

/-- Whether rms Δ is within 2g times rms σ̂ plus 0.0025, in fractional units (R260): `a` and `b` are the mean squares. -/
def convTest (a b c : Rat) : Bool :=
  let d : Rat := 25 / 10000
  let l := a + d * d - c * c * b
  decide (a ≤ d * d) || decide (l ≤ 0) || decide (l * l ≤ 4 * d * d * a)

/-- The solve ends (R255 steps 2 to 5, R256, R260). -/
def State.pubDone (s : State) (m : Nat) : State :=
  match s.cal.job with
  | none => s
  | some j =>
    if j.m ≠ m ∨ s.standby then s
    else
      let s := (s.modCal fun x => { x with job := none }).p F.CAL_STS_BUSY 0
      let ds := (s.chansOf m).flatMap fun c => s.solveChain j.recs c
      let rs := (ds.filter fun d => decide (d.1 / 4096 = m)).map fun (i, d) => s.pubNozzle m (i % 4096) d
      let nOut := rs.countP fun r => r.outl
      let nClamp := rs.countP fun r => r.clamp
      let nSat := rs.countP fun r => r.sat
      let s := ((s.incBy F.CAL_CNT_OUTLIER_COUNT nOut).incBy F.CAL_CNT_CLAMP_COUNT nClamp).incBy F.CAL_CNT_TRIMSAT_COUNT nSat
      let e := (s.kNow + s.g F.NZH_MAPCFG_ADLY) % 65536
      let ups := rs.filter fun r => r.target != s.trimTarget m r.q
      let upd := ups.length
      let s := rs.foldl (fun s r =>
        let old := s.nz m r.q
        let new := putBits (putBits old 24 18 (toBits 7 r.target)) 3 0 (confOf ((recOf j.recs (4096 * m + r.q) 0).getD 0).toNat)
        if new = old then s else s.stage { m, q := r.q, e := none, src := 3, mask := 0x01FC000F, val := new, cond := 0, from' := 0 }) s
      let n : Rat := ((rs.length : Nat) : Rat)
      let d2 : Rat := if rs.isEmpty then (Config.quotZero 0 : Int) else ((rs.foldl (fun v r => v + r.delta * r.delta) (0 : Int) : Int) : Rat) / n
      let mean2 (l : List PubRes) : Rat :=
        (l.foldl (fun v r => v + s.sigma2 ((j.recs.find? fun x => x.1 == 4096 * m + r.q).map (·.2) |>.getD [])) (0 : Rat)) / ((l.length : Nat) : Rat)
      let s2 : Rat := if rs.isEmpty then (Config.quotZero 1 : Int) else mean2 rs
      let f2 : Rat := if ups.isEmpty then (Config.quotZero 1 : Int) else mean2 ups
      let floor := satN 65535 (ratSqrt (f2 * 10000000000))
      let g : Rat := ((s.g F.CAL_CFG_GAIN : Nat) : Rat) / 16
      let good := nClamp = 0 ∧ nSat = 0 ∧ convTest (d2 / 160000) s2 (2 * g) = true
      let cn := if good then spGet 0 s.cal.conv m + 1 else 0
      let need := if s.g F.CAL_CFG_CONVN = 0 then 16 else s.g F.CAL_CFG_CONVN
      let conv := decide (need ≤ cn)
      let s := s.modCal fun x => { x with conv := spSet 0 x.conv m cn, lastPub := spSet 0 x.lastPub m x.lines, seq := (x.seq + 1) % 65536 }
      let s := ((s.p (F.CAL_MODSTS_CONV m) (b2n conv)).p (F.CAL_MODSTS_FLOOR m) floor).p (F.CAL_MODSTS_PUBS m) (satN 255 (s.g (F.CAL_MODSTS_PUBS m) + 1))
      let s := ((s.p (F.CAL_TREF_TEMP m) j.mean).inc F.CAL_CNT_PUB_COUNT).incBy F.CAL_CNT_UPD_COUNT upd
      let seq := (s.cal.seq + 65535) % 65536
      let s := s.post (s.g F.CAL_CTL_RING) DT.CAL_PUBLISH 0
        (leBytes 1 m ++ leBytes 1 (b2n conv + 2 * b2n (0 < nOut) + 4 * b2n (0 < nClamp) + 8 * b2n (0 < nSat)) ++ leBytes 2 upd ++ leBytes 2 j.mean
          ++ leBytes 2 floor ++ leBytes 2 (satN 65535 (ratSqrt (d2 * 256))) ++ leBytes 2 e ++ leBytes 2 seq ++ leBytes 2 0)
      (if 0 < nOut + nClamp + nSat then s.record { c := E.CAL_PUBLIMIT, ctxType := 2, ctx := ctxLine m 0 0 s.kRec } else s).autoDump

/-- 2^INTLG module-lines have been gathered since the last publication (R254). -/
def State.pubInterval (s : State) (m : Nat) : State :=
  let k := s.g F.CAL_PUBCFG_INTLG
  if k ≠ 0 ∧ s.running ∧ spGet 0 s.cal.lastPub m + 2 ^ k ≤ s.cal.lines then s.pend m else s

/-- CAL_CMD.PUBLISH (R254, R265); ALL is every module with an enabled context. [DEDUCED, log 72] -/
def State.calPublish (s : State) (src : Src) (m : Nat) (all : Bool) : State :=
  if s.dev ≠ .run then s.recReg E.CAL_CMD F.CAL_CMD_PUBLISH.addr src
  else if all then s.mods.foldl State.pend s
  else s.pend m

/-! ## Flat fields (R262, R263) -/

/-- A context's flat field starts. [DEDUCED, log 72; DESIGN CHOICE, log 73] -/
def State.ffStart (s : State) (c : Nat) : State :=
  if s.standby || s.cal.ff.contains c then s else (s.modCal fun x => { x with ff := x.ff ++ [c] }).p F.CAL_STS_FFBUSY 1

/-- CAL_CMD.FF (R262, R265). [DEDUCED, log 72] -/
def State.calFf (s : State) (src : Src) (c : Nat) : State :=
  if s.dev ≠ .run then s.recReg E.CAL_CMD F.CAL_CMD_FF.addr src else s.ffStart c

/-- CAL_CMD: the commands of one write. -/
def State.calCmd (s : State) (src : Src) (w : Nat) : State :=
  let s := if bitOf w 0 then s.calPublish src (bitsOf w 6 2) (bitOf w 7) else s
  if bitOf w 1 then s.calFf src (bitsOf w 10 8) else s

/-- The modules that a context samples. -/
def State.sampledMods (s : State) (c : Nat) : List Nat :=
  let f : CamFrame := { ctx := c, num := 0, order := 0, anchor := none, params := s.camParams c }
  s.camMods.filter fun m => (List.range 4).any fun g => (s.groupCh m g).isSome && (s.colsOf m g).any fun x =>
    let v := s.sensorX f x
    decide (0 ≤ v) && decide (v / 256 + 1 < (f.width : Int))

/-- The active bank of a context changes (R263): the modules it samples are not quiet from the next line boundary on. -/
def State.bankChanged (s : State) (c : Nat) : State := s.modCal fun x => { x with banked := (s.sampledMods c).foldl (fun w m => putBit w m true) x.banked }

/-- Set a flat-field entry. -/
def State.setFfg (s : State) (n b x v : Nat) : State :=
  let o := 2 * (16384 * n + 8192 * b + x)
  let a := 0x580000 + o / 4 * 4
  s.setWin a (putBits (s.winWord a) (8 * (o % 4) + 15) (8 * (o % 4)) v)

/-- A flat-field publication completes (R262); a software write of FFBANK at the same time prevails, and a device that is now the standby does not publish (R258). [DESIGN CHOICE, log 73] -/
def State.ffDone (s : State) (c : Nat) : State :=
  if !s.cal.ff.contains c then s
  else
    let s := s.modCal fun x => { x with ff := x.ff.erase c }
    let s := s.p F.CAL_STS_FFBUSY (b2n !s.cal.ff.isEmpty)
    if s.standby || s.wroteNow (F.INS_CTX_CFG_FFBANK c).addr then s else
    let b := s.g (F.INS_CTX_CFG_FFBANK c)
    let min := 2 ^ s.g F.CAL_FFCFG_FFMINLG
    let q := (List.range 8192).filter fun x => decide (min ≤ (s.sub c x).2)
    let mean (x : Nat) : Rat := ((s.sub c x).1 : Rat) / ((s.sub c x).2 : Rat)
    let all : Rat := (q.map mean).foldl (· + ·) 0 / ((q.length : Nat) : Rat)
    let st : Int := (4 * s.g F.CAL_FFCFG_FFSTEP : Nat)
    let s := (List.range 8192).foldl (fun (s : State) (x : Nat) =>
      let old : Nat := s.ffg c b x
      if !q.contains x then s.setFfg c (1 - b) x old
      else
        let want : Int := if mean x = 0 then Config.quotZero (16384 * all).floor else (16384 * all / mean x + 1 / 2).floor
        let new := clampI 1 65535 (clampI ((old : Int) - st) ((old : Int) + st) want)
        (if new = want then s else s.inc F.CAL_CNT_FFCLAMP_COUNT).setFfg c (1 - b) x new.toNat) s
    let s := s.p (F.INS_CTX_CFG_FFBANK c) (1 - b)
    let s := { s with win := s.win.filter fun e => !(decide (0x600000 + 65536 * c ≤ e.1) && decide (e.1 < 0x600000 + 65536 * (c + 1))) }
    (s.inc F.CAL_CNT_FFPUB_COUNT).bankChanged c

/-! ## The streak test (R261) -/

/-- The test of a visit: deficits and solo estimate. -/
def State.streakDead (s : State) (t : Stat) : Bool :=
  let w1 : Int := (s.g F.INS_COLCFG_BLUR : Nat)
  let w0 : Int := 256 - 2 * w1
  decide (s.g F.CAL_STRKCFG_DEADF * t.n ≤ 256 * t.defs)
    && decide (65536 * 256 * t.sep < -(s.g F.CAL_STRKCFG_DEADG : Int) * (w0 * w0 + 2 * w1 * w1) * (t.see : Int))

/-- A visit to the record of nozzle i over the bar. -/
def State.streakVisit (s : State) (i : Nat) : State :=
  if !s.gb F.CAL_CTL_STRKEN || !s.publishes then s
  else
    let m := i / 4096
    let q := i % 4096
    let t := statOf (s.stat i)
    let inj := s.cal.inj && s.g F.CAL_INJ_MOD == m && s.g F.CAL_INJ_Q == q
    let s := if inj then (s.modCal fun x => { x with inj := false }).inc F.ERR_CNT_INJ_COUNT else s
    let qual := nzUsable (s.nz m q) && s.gb (F.CAL_MODSTS_QUIET m) && decide (2 ^ s.g F.CAL_STRKCFG_DEADNLG ≤ t.scaled.n)
    if inj || (qual && s.streakDead t) then
      ((s.stage { m, q, e := none, src := 3, mask := stateMask, val := 4 * 2 ^ 29, cond := 2, from' := 0, inj }).setStat i 0).inc F.CAL_CNT_DEAD_COUNT
    else s

/-- The device has become the acting standby: it keeps no pending publication and runs none (R258). -/
def State.calStandby (s : State) : State :=
  (((List.range 32).foldl (fun s m => s.p (F.CAL_MODSTS_PEND m) 0) (s.modCal fun x => { x with job := none, ff := [] })).p F.CAL_STS_BUSY 0).p F.CAL_STS_FFBUSY 0

/-- Entry to RUN: no module is quiet or converged, and the counts start again (R249, R260). -/
def State.calRun (s : State) : State :=
  (List.range 32).foldl (fun s m => ((s.p (F.CAL_MODSTS_QUIET m) 0).p (F.CAL_MODSTS_CONV m) 0).p (F.CAL_MODSTS_PUBS m) 0)
    (s.modCal fun x => { x with since := [], conv := [], banked := 0 })

end Sys2Proof.Machine
end

