-- ==== Sys2Proof/Machine/LineOps.lean ====
section
/-!
DEFINITION. The line engine: triggers, gather starts and line boundaries, the current signature, the proof tap, and what leaves the pipelines (R13 to R16, R75 to R88, R98, R99,
R106, R123, R124, R270, R271).
-/

namespace Sys2Proof.Machine

/-- A trigger (R133, R134): signature, line (negative: a pre-trigger), stamp t_e, excess e in 2^-16 counts, position, the count period in timebase units, reverse,
and whether it is a missed trigger issued late (R158). -/
structure Trig where
  sig : Nat
  line : Int
  te : Nat
  e16 : Nat
  pos : Int
  tcnt : Rat
  rev : Bool
  catchup : Bool := false

/-! ## Boundary fields (R13 to R16) -/

/-- The bits of a register whose fields name a boundary. -/
def clsMask (a : Nat) (c : Cls) : Nat :=
  match famOf a with
  | some f => f.flds.foldl (fun v x => if x.cls = c then putBits v x.hi x.lo (2 ^ 32 - 1) else v) 0
  | none => 0

/-- Copy the fields of a boundary from the shadow of one register to its active copy. -/
def State.copyAt (s : State) (c : Cls) (a : Nat) : State :=
  let mask := clsMask a c
  if mask = 0 then s else s.setAct a (maskIn (s.act a) mask (s.reg a))

/-- Copy every field of a boundary (R14). -/
def State.copyB (s : State) (c : Cls) : State :=
  (s.regs.map (·.1) ++ s.active.map (·.1)).foldl (fun s a => s.copyAt c a) s

/-- Whether the registers of R270 include this one. -/
def pairReg (a : Nat) : Bool := (decide (0x30000 ≤ a) && decide (a < 0x50000)) || (decide (0x50100 ≤ a) && decide (a < 0x50180))

/-- Whether a boundary copies the fields of a register now (R16, R270): in RUN; in a folio pair by the aligned hold state (R271), the fields of R270 in HOLD too. -/
def State.copies (s : State) (a : Nat) : Bool := if s.member then s.running && (pairReg a || !s.holdNow) else s.dev == .run

/-- A boundary passes: it copies its fields of every register that it copies now. -/
def State.copyNow (s : State) (c : Cls) : State :=
  ((s.regs.map (·.1) ++ s.active.map (·.1)).filter s.copies).foldl (fun s a => s.copyAt c a) s

/-- The fire offset of module m in a direction (R140), clamped to 0 to 255. -/
def State.phiOf (s : State) (m : Nat) (rev : Bool) : Nat :=
  (clampI 0 255 ((s.g (F.POS_PHASE_PHASE m) : Int) + sext 8 (if rev then s.g (F.POS_PHASE_ALIGNR m) else s.g (F.POS_PHASE_ALIGNF m)))).toNat

/-- The signature boundary, in scanning mode the swath boundary too; a module whose alignment changes stops being quiet (R249, R264). Both boundaries
pass at GST(0) of the next signature. [DEDUCED, log 135] -/
def State.copySig (s : State) : State :=
  let a (m : Nat) : Nat := (F.POS_PHASE_ALIGNF m).addr
  let old := (List.range 32).map fun m => s.act (a m)
  let s := s.copyNow .bSig
  let s := if s.scanning then s.copyNow .bSwath else s
  (List.range 32).foldl (fun s m => if s.act (a m) = old.getD m 0 then s else s.unquiet m) s

/-! ## Staged register writes, hold and join at a line boundary (R270, R271, R282) -/

/-- Change the current signature. -/
def State.modCur (s : State) (f : CurSig → CurSig) : State := { s with gth := { s.gth with cur := s.gth.cur.map f } }

/-- Apply one staged write: a cut asked for, or a register's or a table's bits. -/
def State.applyReg (s : State) (w : RegW) : State :=
  if w.addr = F.SMT_DEVREQ_CUT.addr then s.modCur fun c => { c with cut := !c.ended }
  else if 0x400000 ≤ w.addr then s.setWin w.addr (maskIn (s.winWord w.addr) w.mask w.val)
  else s.setReg w.addr (maskIn (s.reg w.addr) w.mask w.val)

/-- The writes staged for the boundary before module-line k, or for an earlier one. -/
def State.applyRegs (s : State) (k : Nat) : State :=
  let due := s.fol.regs.filter fun w => decide (0 ≤ sext 16 (k % 65536 + 65536 - w.e % 65536))
  if due.isEmpty then s
  else due.foldl State.applyReg (s.modFol fun x => { x with regs := x.regs.filter fun w => !due.contains w })

/-- The aligned hold changes at line K_h; the standby's device state follows (R271); a change to STANDBY falls due (R410). -/
def State.holdAlign (s : State) (k : Nat) : State :=
  match s.fol.kh with
  | some (kh, h) =>
    if 0 ≤ sext 32 (k + 2 ^ 32 - kh % 2 ^ 32) then
      let s := s.modFol fun x => { x with kh := none, hold := h, stopDue := x.khStop, khStop := false }
      if s.standby && s.running && (s.dev == .hold) != h then (if h then s.folDev .hold else s.calRun.lanesCmds.folDev .run) else s
    else s
  | none => s

/-- The acting primary copies one module's map to a joining member between boundaries (R282). -/
def State.joinCopy (s : State) (k : Nat) : State :=
  match s.fol.grant with
  | some (sj, kr, n) =>
    if n < 32 ∧ kr + n ≤ k ∧ s.primary then
      let ws := (List.range 4096).map fun q => fwdBytes (k % 65536) 1 1 (nzAddr n q) 0xFFFFFFFF (s.nz n q)
      (State.folFwd 256 ws s).modFol fun x => { x with grant := some (sj, kr, n + 1) }
    else s
  | none => s

/-- The trim ramp's step at a line boundary where K is a multiple of 64 (R98), once for that boundary. [DEDUCED, log 71] -/
def State.rampStep (s : State) : State :=
  if s.running ∧ s.gth.k % 64 = 0 ∧ s.gth.rampK ≠ some s.gth.k then { s.trimStep with gth := { s.trimStep.gth with rampK := some s.gth.k } } else s

/-- The line boundary before GST of module-line k, once the aligned hold and the [B] fields have taken their values (R78, R98, R203, R249, R254, R276). -/
def State.lineBoundary (s : State) (k : Nat) : State :=
  let s := (List.range 32).foldl State.mapBoundary s
  let s := (s.chkBoundary k).joinCopy k
  let s := s.rampStep
  (s.mods.foldl (fun s m => s.quietBoundary m k) s).pubBoundary

/-! ## Signatures (R87, R88) -/

/-- Close the open lateness records of contexts. [DEDUCED, log 118] -/
def State.closeLate (s : State) : State := s.closeRecs fun k => k.head? == some E.GTH_LATE.code && k.getD 2 0 == 1

/-- The current signature ends (R88); a cut names its first ungathered line. [DEDUCED, log 118] -/
def State.endSig (s : State) (cutLine : Option Nat) : State :=
  match s.gth.cur with
  | none => s
  | some c =>
    if c.ended then s
    else
      let s := s.modCur fun c => { c with ended := true, cut := false, len := s.lsig c.sig }
      let s := match s.lsig c.sig with
        | some n => { s with gth := { s.gth with lens := (c.sig, n) :: s.gth.lens.take 15 } }
        | none => s
      let s := match cutLine with
        | some l => s.record { c := E.GTH_SIGCUT, ctxType := 1, ctx := ctxLine 0 0 c.sig l, handles := true }
        | none => s
      let s := (s.closeLate.dropSig c.sig true).p F.GTH_STS_LENOPEN 0
      if s.pos.cur.any fun g => g.sig != c.sig then s else s.raise SEv.ENDPAPER (c.sig % 65536)

/-- A signature becomes current at its GST(0) (R87). -/
def State.beginSig (s : State) (sig : Nat) (rev : Bool) : State :=
  let s := s.closeLate.copySig
  let s := { s with gth := { s.gth with cur := some { sig, n := 0, rev, ended := false, cut := false } } }
  let s := s.raise SEv.SIG_START (sig % 65536)
  let starved := !s.qre.accepted.contains sig
  let s := s.p F.GTH_STS_STARVED (b2n starved)
  if starved then (s.latch Att.STARVED).raise SEv.STARVED (sig % 65536) else s

/-! ## A gathered line -/

/-- A context at GST (R64, R82 to R84, R430, R431): its raw line, or none where it is fired blank. -/
def State.gstCtx (s : State) (sig l : Nat) (scanOpen : Bool) (c : Nat) : State × Option (Nat × Bytes) :=
  let ctx := ctxLine (c / 4) (c % 4) sig l
  if s.injHit 0x05 c then (s.injUse.lateRec 1 c 4 4 ctx true true, none)
  else
    match (if scanOpen then some 1 else s.lateStage sig c l) with
    | none => (s.unlate 1 c none, if (s.covering sig c l).any fun q => s.lineBad q l then none else s.releasedLine sig c l)
    | some st =>
      let s := match s.covering sig c l with
        | some q => if q.st = QState.resend then s.rsExhaust sig c q.first l else s
        | none => s
      (if s.covered c sig l then s.unlate 1 c none else s.lateRec 1 c st st ctx false false, none)

/-- The contexts of a line: what is gathered of each, and the blank bits. Those of a module late in stage GATHER are judged too (R64, R82) and are blank (R83). -/
def State.gstCtxs (s : State) (sig l : Nat) (scanOpen : Bool) (lateM : Nat → Bool) : State × List (Nat × Nat × Bytes) × Nat :=
  s.ctxs.foldl (fun (s, raw, blank) c =>
    match s.gstCtx sig l scanOpen c with
    | (s, some (bpn, b)) => if lateM (c / 4) then (s, raw, putBit blank c true) else (s, raw ++ [(c, bpn, b)], blank)
    | (s, none) => (s, raw, putBit blank c true)) (s, [], 0)

/-- A module at GST in stage GATHER (R82, R84): its pipeline still works on an earlier line, or an injection says so. -/
def State.gstMod (s : State) (sig l m : Nat) : State × Bool :=
  let inj := s.injHit 0x06 m
  let s := if inj then s.injUse else s
  if inj || s.gth.lines.any fun x => !(x.ml m).words.isEmpty && !(x.ml m).done then
    (s.lateRec 2 m 5 0x15 (ctxLine m 0 sig l) inj false, true)
  else (s.unlate 2 m (some 5), false)

/-- The bands of a line (R108), and the modules that kept theirs for want of a report. -/
def State.gstBands (s : State) (k sig l : Nat) : State × Nat :=
  let (s, kept) := s.mods.foldl (fun (s, kept) m => let (s, b) := s.bandOf m k sig l; (s, putBit kept m b)) (s, 0)
  (s.firStatus, kept)

/-- A window slot of module m (R106, R113): levels and energy of the line, or 0. [DEDUCED, log 67] -/
def State.slot (s : State) (m : Nat) (lev : List Nat) (e : Nat) : State :=
  { s with gth := { s.gth with hist := spMod [] s.gth.hist m fun h => (lev :: h).take 4, win := spMod [] s.gth.win m fun w => (e :: w).take 255 } }.sramClear
    (fun k => k.1 == 2 && k.2 / 1024 == m) |>.sramFlip 2 (1024 * m)

/-- A slot that fires nothing, on every module. -/
def State.slotZero (s : State) : State := s.mods.foldl (fun s m => s.slot m [] 0) s

/-- Take the next proof-tap entry (R99); the blank groups of the line it overwrites leave their list (R239), and a line still in flight that had the entry has it no more. [DEDUCED, log 103] -/
def State.ptTake (s : State) : State × Option Nat :=
  let n := s.g F.GTH_PTLINES_LINES
  if n = 0 then (s, none)
  else
    let i := s.gth.ptNext % n
    let had := s.gth.lines.filter fun x => x.ptEntry == some i
    let s := if n ≤ s.gth.ptNext ∨ i < s.gth.ptOld then
        let (sig, l) := match had with
          | x :: _ => (x.sig, x.line)
          | [] => let b := (s.viewCw (s.ptIdx i / 64)).drop (s.ptIdx i % 64); (leAt b 8 4, leAt b 12 4)
        { s with ins := { s.ins with blanks := s.ins.blanks.filter fun x => !(x.2.1 == sig && x.2.2.1 == l) } }
      else s
    let s := had.foldl (fun s x => (s.modLine x.k fun y => { y with ptEntry := none }).lineLeave x.k) s
    ({ s with gth := { s.gth with ptNext := s.gth.ptNext + 1 } }, some i)

/-- The runs of consecutive lines with one line more (R239): a new run where it does not follow on. -/
def GthSt.noteLine (g : GthSt) (k sig l : Nat) : List (Nat × Nat × Nat) :=
  match g.recent with
  | (k0, sg, l0) :: r => if sg = sig ∧ l + k0 = l0 + k then g.recent else (k, sig, l) :: (k0, sg, l0) :: r.take 62
  | [] => [(k, sig, l)]

/-- GST of line l of the current signature (R13, R76, R81 to R83, R91, R106 to R108, R113, R123, R124, R271, R273). What is late, the bands and the gate are judged before the maps of the
boundary apply, so that their records stand in the order of their blocks (R420). [DESIGN CHOICE, log 109] -/
def State.gatherStart (s : State) (c : CurSig) (l : Nat) : State :=
  let k := s.gth.k
  let s := (s.holdAlign k).copyNow .bLine
  let ls := s.lsig c.sig
  let (s, lateM) := s.mods.foldl (fun (s, lm) m => let (s, b) := s.gstMod c.sig l m; (s, putBit lm m b)) (s, 0)
  let (s, raw, blank) := s.gstCtxs c.sig l (s.scanning && ls.isNone) (bitOf lateM)
  let s := s.incBy F.GTH_CNT_LATE_COUNT (popcount 128 blank)
  let (s, kept) := s.gstBands k c.sig l
  let s := s.gateClear k l
  let wh := s.hotFor k || s.holdNow
  let s := s.lineBoundary k
  let s := if s.scanning ∧ l = 0 then { s with gth := { s.gth with psub := s.psubFlags } } else s
  let u := if c.rev then ls.getD 0 - 1 - l else l
  let r := s.gatherLine c.sig l u raw fun m => s.g (F.FIR_TEMP_BAND m)
  let s := ((s.incBy F.GTH_CNT_TIPSAT_COUNT r.tipsat).incBy F.GTH_CNT_TAKEOVER_COUNT r.takeover).incBy F.GTH_CNT_PSUBMISS_COUNT r.psubMiss
  let s := r.mods.foldl (fun s (m, g) => if wh then s.slot m [] 0 else s.slot m (g.xs.map (·.lev)) g.energy) s
  let s := s.passLine c.sig l
  let (s, pt) := s.ptTake
  let blankM := sumL (s.mods.map fun m => if bitsOf blank (4 * m + 3) (4 * m) = 0 then 0 else 2 ^ m)
  let x : Line := { k, sig := c.sig, line := l, rev := c.rev, blank, wh, phi := (List.range 32).map fun m => s.phiOf m c.rev, ptEntry := pt,
                    cause := Nat.lor blankM (Nat.lor kept s.fol.lateMap), stale := kept != 0,
                    mods := r.mods.map fun (m, g) => (m, { words := g.xs.map fireWord, energy := g.energy, lowered := g.lowered, shaved := g.shaved }) }
  let s := { s with cal := { s.cal with lines := s.cal.lines + 1 }, gth := { s.gth with k := k + 1, lines := s.gth.lines ++ [x], recent := s.gth.noteLine k c.sig l } }
  let s := (s.modFol fun y => { y with lateMap := 0 }).modCur fun c => { c with n := l + 1 }
  let s := s.p F.GTH_LINECNT_COUNT ((s.g F.GTH_LINECNT_COUNT + 1) % 2 ^ 32)
  s.p F.GTH_STS_LENOPEN (b2n ls.isNone)

/-- GST(l) of a signature (R81, R87, R88, R406); the flag says that a line was gathered. `isNext` says the signature is the one whose start event came last. [DEDUCED, log 57] -/
def State.gst (s : State) (sig l : Nat) (rev isNext : Bool) : State × Bool :=
  let s := s.applyRegs s.gth.k
  let s := if l = 0 ∧ isNext ∧ s.gth.cur.all (fun c => c.sig ≠ sig) then s.beginSig sig rev else s
  match s.gth.cur with
  | none => (s, false)
  | some c =>
    let max := s.g F.GTH_SIGMAXL_LINES
    if c.sig ≠ sig ∨ c.ended then (s, false)
    else if c.cut then (s.endSig (some l), false)
    else if (s.lsig sig).any fun n => decide (n ≤ l) then (s.endSig none, false)
    else if (s.lsig sig).isNone ∧ max ≤ l then (s.endSig (some l), false)
    else
      let s := s.gatherStart c l
      match s.lsig sig with
      | some n => (if n ≤ l + 1 then s.endSig none else s, true)
      | none => (if max ≤ l + 1 then s.endSig (some (l + 1)) else s, true)

/-- Ingress has fixed L_sig of the current signature (R88, R100): LENOPEN clears, and the signature ends where line L_sig - 1 has been gathered. -/
def State.lenFixed (s : State) : State :=
  match s.gth.cur with
  | some c =>
    match s.lsig c.sig with
    | some n =>
      if c.ended then s
      else
        let s := s.p F.GTH_STS_LENOPEN 0
        if n ≤ c.n then s.endSig none else s
    | none => s
  | none => s

/-! ## A line's own trigger (R99, R141) -/

/-- The 64 bytes of a proof-tap index entry (R99). -/
def ptIndex (x : Line) (te : Nat) (pos : Int) (wh : Bool) : Bytes :=
  leBytes 8 te ++ leBytes 4 x.sig ++ leBytes 4 x.line ++ leBytes 8 (toBits 64 pos) ++ leBytes 8 (b2n x.rev + 2 * b2n wh) ++ leBytes 16 x.blank ++ leBytes 16 0

/-- Complete a line's proof-tap index; GTH_PTHEAD advances to its entry. -/
def State.ptComplete (s : State) (x : Line) (te : Nat) (pos : Int) (wh : Bool) : State :=
  match x.ptEntry with
  | some i => ((s.modLine x.k fun y => { y with idxWh := wh }).dramWrite (s.ptIdx i) (ptIndex x te pos wh) 2 0).2.p F.GTH_PTHEAD_INDEX i
  | none => s

/-- D of module m in timebase units, and whether it was raised to MINADV (R141). [DEDUCED, log 111] -/
def State.fireDelay (s : State) (phi : Nat) (t : Trig) : Nat × Bool :=
  let low := nsU (s.g F.POS_VCFG_MINADV)
  let d : Rat := (((phi * s.g F.POS_PITCH_COUNTS : Nat) : Int) - ((256 * t.e16 : Nat) : Int) : Int) * t.tcnt / 16777216
  if t.catchup then (low, false) else if d.floor < (low : Int) then (low, true) else (d.floor.toNat, false)

/-- The own trigger of a gathered line: fire times (R141), camera pulses (R223), and the proof-tap index (R99). [DEDUCED, log 111] -/
def State.fireLine (s : State) (t : Trig) : State :=
  match s.gth.lines.find? fun x => x.sig == t.sig && (x.line : Int) == t.line && x.trig.isNone && !x.dead with
  | none => s
  | some x =>
    let wh := x.wh || s.fir.gate || decide (x.k < s.fir.resumeK)
    let s := s.modLine x.k fun y => { y with trig := some t.te, pos := t.pos }
    let s := x.mods.foldl (fun s (m, _) =>
      let (d, clip) := s.fireDelay (x.phi.getD m 0) t
      let s := if clip then s.inc F.POS_CNT_PHCLIP_COUNT else s
      s.modML x.k m fun y => { y with tf := some (tAdd t.te d) }) s
    let s := if x.mods.isEmpty then { s with gth := { s.gth with lines := s.gth.lines.filter fun y => y.k != x.k } } else s
    (s.ptComplete x t.te t.pos wh).pulses x.line x.sig x.rev t.te t.pos t.tcnt x.phi

/-- A trigger or pre-trigger in RUN or HOLD (R81, R88, R106, R138): the line it fires, and the gather start it is. A slot that gathers nothing shifts 0. -/
def State.trigger (s : State) (t : Trig) (isNext : Bool) : State :=
  let s := if 0 ≤ t.line then s.fireLine t else s
  let (s, got) := s.gst t.sig (t.line + (s.g F.GTH_CFG_LEAD : Int)).toNat t.rev isNext
  if got then s else s.slotZero

/-- The gathered lines of a signature get no trigger any more (R132): their sent frames are skipped (R177). [DEDUCED, log 58] -/
def State.untriggered (s : State) (sig : Nat) : State :=
  (s.gth.lines.filter fun x => x.sig == sig && x.trig.isNone && !x.dead).foldl (fun s x =>
    x.mods.foldl (fun s (m, _) => match s.lineK x.k with
      | some y => if (y.ml m).done then s.skipLine y m else s
      | none => s) (s.modLine x.k fun y => { y with dead := true })) s

/-! ## Steps 7 and 8 end (R76, R99, R116, R174, R273) -/

/-- 1,024 levels in the 3-bit packing of R40. -/
def packLevels (l : List Nat) : Bytes := leBytes 384 (l.foldr (fun v a => v % 8 + 8 * a) 0)

/-- Write module m's fired levels to the proof tap; the lowest module with contexts also writes those of the modules without any. -/
def State.ptData (s : State) (x : Line) (m : Nat) : State :=
  match x.ptEntry with
  | none => s
  | some i =>
    let base := s.g F.GTH_PTBASE_HI_ADDR * 2 ^ 32 + s.g F.GTH_PTBASE_LO_ADDR * 4096 + 49152 * i
    let w := (x.ml m).words
    let s := (s.dramWrite (base + 1536 * m) ((List.range 4).flatMap fun r => packLevels (((w.drop (1024 * r)).take 1024).map fun v => v / 16)) 2 0).2
    if s.mods.head? = some m then
      ((List.range 32).filter fun j => !s.modOn j).foldl (fun s j => (s.dramWrite (base + 1536 * j) (List.replicate 1536 0) 2 0).2) s
    else s

/-- The governor's counts of module m's line (R116). [DESIGN CHOICE, log 28; DEDUCED, log 57] -/
def State.govCount (s : State) (x : Line) (m : Nat) : State :=
  let ml := x.ml m
  let s := if ml.lowered then s.inc F.FIR_CNT_IDXLOW_COUNT else s
  if ml.shaved = 0 then s.closeRunOf E.FIR_GOVSHAVE [m]
  else ((s.inc F.FIR_CNT_SHAVE_COUNT).incBy F.FIR_CNT_DRSHAVE_COUNT ml.shaved).recordRun
    { c := E.FIR_GOVSHAVE, inst := m, ctxType := 1, ctx := ctxLine m 0 x.sig x.line, key := [m] }

/-- Module m's pipeline finishes its oldest line: its frame goes out, and where its fire time has already passed an SK block too, as no FEN rises for it (R177). -/
def State.lineDone (s : State) (m : Nat) : State :=
  match s.gth.lines.find? fun x => !(x.ml m).words.isEmpty && !(x.ml m).done with
  | none => s
  | some x =>
    let s := (s.modML x.k m fun y => { y with done := true }).govCount x m
    let s := (s.ptData x m).sendFrame x m
    let s := match s.lineK x.k with
      | some y => if y.dead then s.skipLine y m else if (y.ml m).came then s.skipBlank x.k m else s
      | none => s
    let s := match s.lineK x.k with
    | some y =>
      if s.member && !y.folSent && y.mods.all fun z => z.2.done then
        (s.modLine x.k fun z => { z with folSent := true }).folLineOut y (b2n y.rev + 2 * b2n y.wh + 4 * b2n y.stale)
      else s
    | none => s
    let s := match s.lineK x.k with
      | some y => if y.folSent || !s.member then
          s.modLine x.k fun z => { z with mods := z.mods.map fun ((j : Nat), (w : ModLine)) => (j, if w.done && w.slot == 16 then { (w : ModLine) with words := [] } else w) } else s
      | none => s
    s.lineLeave x.k

/-! ## Entry to and leaving of RUN and HOLD -/

/-- The frames sent and triggered whose fire time has not come, by module, oldest first (R177, R412). -/
def State.unfired (s : State) : List (Nat × Nat) :=
  s.gth.lines.flatMap fun x => x.mods.filterMap fun y => if y.2.sent && y.2.tf.isSome && !y.2.came then some (y.1, x.k) else none

/-- Line work ends (R99, R412): levels and indexes not yet written are written, nothing is in flight but frames whose SK block is still to
come (R177), none in FAULT (R413). -/
def State.linesEnd (s : State) : State :=
  let s := s.gth.lines.foldl (fun s x =>
    let s := x.mods.foldl (fun s (m, y) => if y.done then s else s.ptData x m) s
    if x.trig.isSome then s else s.ptComplete x 0 0 true) s
  let s := s.closeLate
  let s := { s with gth := { s.gth with lines := [], cur := none, hist := [], win := [], psub := [], rampK := none, lates := [],
                                        skips := if s.dev == Dev.fault || s.dev == Dev.retired then [] else s.unfired } }
  let s := { s with pos := { s.pos with cur := none, old := none, seen := none } }
  ((((s.p F.GTH_STS_RUNNING 0).p F.GTH_STS_LENOPEN 0).p F.GTH_STS_STARVED 0).p F.POS_STS_INSIG 0).lanesQuiet

/-- The device leaves RUN and HOLD: line work ends, and staged map writes apply at once (R204, R412). [DEDUCED, log 127] -/
def State.linesStop (s : State) : State := s.linesEnd.mapFlush

/-- Entry to RUN from STANDBY at module-line k (R34, R98, R106, R136, R174, R249): 0, or K_j for a joining member. The proof tap begins at entry 0 again. [DEDUCED, log 127; DESIGN CHOICE, log 136] -/
def State.linesRun (s : State) (k : Nat) : State :=
  let s := { s with gth := { k, ptOld := Nat.max s.gth.ptOld (Nat.min (s.g F.GTH_PTLINES_LINES) s.gth.ptNext), lens := s.gth.lens } }
  let s := ((s.p F.GTH_LINECNT_COUNT k).p F.GTH_STS_RUNNING 1).modFir fun x => { x with reps := [], statK := [], resumeK := 0, heldLines := 0 }
  let s := { s with pos := { s.pos with nextSig := s.g F.QRE_SIGBASE_NUM, cur := none, old := none, repFrom := none, lastTrig := none,
                                        rev := s.scanning && s.pos.rev } }
  (s.modQre fun x => { x with started := false }).trimLoad.calRun

end Sys2Proof.Machine
end

