-- ==== Sys2Proof/Machine/PosOps.lean ====
section
/-!
DEFINITION. The position block (R126 to R141, R155 to R158): encoders, direction and extremes, grids, start events and triggers, with the folio frames that a start event brings
(R269, R282, R284), and the beacon follower.
-/

namespace Sys2Proof.Machine

/-- Change the position block. -/
def State.modPos (s : State) (f : PosSt → PosSt) : State := { s with pos := f s.pos }

/-- Encoder e. -/
def State.enc (s : State) (e : Nat) : Enc := spGet {} s.pos.enc e

/-- Change encoder e. -/
def State.modEnc (s : State) (e : Nat) (f : Enc → Enc) : State := s.modPos fun x => { x with enc := spMod {} x.enc e f }

/-- From TRAIN onwards (R138). -/
def State.fromTrain (s : State) : Bool := decide (4 ≤ devCode s.dev)

/-- Whether the print direction is reverse (R130): never in single-pass mode. -/
def State.isRev (s : State) : Bool := s.scanning && s.pos.rev

/-- The print direction dir as +1 or -1 (R130). -/
def State.dirI (s : State) : Int := if s.isRev then -1 else 1

/-- 2^VWIN counts of the average (R128). [DEDUCED, log 55] -/
def State.vwin (s : State) : Nat := 2 ^ Nat.min 8 (s.g F.POS_VCFG_VWIN)

/-- T_cnt at a time, in timebase units (R128, R156). -/
def State.tcntAt (s : State) (te : Nat) : Rat :=
  if s.g F.POS_CTL_SRC = 2 then (let v := s.pos.fol.v; if v = 0 then 0 else if v < 0 then -1 / v else 1 / v)
  else
    match s.pos.stamp with
    | none => 0
    | some st =>
      let n : Rat := ((s.vwin : Nat) : Rat)
      let kept := s.pos.gaps.take s.vwin
      let mean : Rat := if kept.isEmpty then 0 else ((sumL kept : Nat) : Rat) / ((kept.length : Nat) : Rat)
      let age : Rat := ((tdiff te st : Int) : Rat)
      if n * mean < age then age / n else mean

/-- A count in the print direction is stamped (R128). -/
def State.stampCount (s : State) (te : Nat) : State :=
  s.modPos fun x =>
    { x with stamp := some te, gaps := match x.stamp with | some p => ((tdiff te p).toNat :: x.gaps).take 256 | none => x.gaps }

/-- Context LINE of the position block's records: the current grid's next line. [DEDUCED, log 61] -/
def State.ctxGrid (s : State) : Nat :=
  match s.pos.cur with
  | some g => ctxLine 0 0 g.sig (toBits 32 g.next)
  | none => 0

/-- POS_STS.DIR and INSIG follow. -/
def State.posStatus (s : State) : State :=
  (s.p F.POS_STS_DIR (b2n s.isRev)).p F.POS_STS_INSIG (b2n (s.pos.cur.any fun g => !g.stopped))

/-! ## What a start event brings in a folio pair (R269, R282 to R284) -/

/-- Whether the modules a revert or swap moves go to lane A. -/
def State.moveToA (s : State) (swap : Bool) : Bool := if swap then s.homeStandby == s.primary else true

/-- Send TAKE or YIELD with the LFN of line frame k_r for the modules that move at it (R187, R192, R284). [DEDUCED, log 37] -/
def State.moveLanes (s : State) (kr ms : Nat) (swap : Bool) : State :=
  let code := if s.moveToA swap != s.homeStandby then 6 else 7
  (List.range 32).foldl (fun s m => if bitOf ms m && s.laneUp m then s.command m code (kr % 65536) else s)
    (s.modFol fun x => { x with revert := some (some kr, ms, swap) })

/-- The modules that a revert is due for (R284): owned by the home standby's lane, with the home primary fit to take them. [DEDUCED, log 37] -/
def State.revertMods (s : State) : Nat :=
  let fit : Bool := if s.homeStandby then s.fol.peerStandby && !s.gb F.FOL_STS_JOINING && !s.fol.peerSusp && s.gb F.FOL_STS_PEERUP else !s.gb F.FOL_STS_SUSPECT
  if s.gb F.FOL_CTL_NOREVERT || !fit then 0
  else sumL (s.mods.map fun m => if !bitOf (s.g F.FOL_OWNA_MAP) m && (if s.homeStandby then bitOf s.fol.peerLanes m else s.laneUp m) then 2 ^ m else 0)

/-- The acting primary's part at a start event: a join grant, and a revert or swap, which takes in the modules that an earlier one has left where they were
(R282, R284). -/
def State.startFolio (s : State) (sig : Nat) (ps : Int) (rev : Bool) : State :=
  let k := s.gth.k
  let s := s.folSend FT.FOL_START (leBytes 4 sig ++ leBytes 8 (toBits 64 ps) ++ leBytes 1 (b2n rev) ++ leBytes 4 k)
  let s := match s.fol.grant with
    | some (sj, kr, n) =>
      if sj ≠ sig then s
      else if n < 32 then s.modFol fun x => { x with grant := some ((sj + 1) % 2 ^ 32, kr, n) }
      else
        let bands := (List.range 32).map fun m => BitVec.ofNat 8 (s.g (F.FIR_TEMP_BAND m))
        let s := s.folSend FT.FOL_JOIN (leBytes 1 2 ++ leBytes 4 k ++ bands)
        ((s.modFol fun x => { x with grant := none, joinEnd := k + 4356 }).p F.FOL_STS_JOINING 1).taintAll (k + 4356)
    | none => s
  let (ms, swap) : Nat × Bool := match s.fol.revert with
    | some (none, ms, w) => (ms, w)
    | some (some _, ms, true) => (sumL ((List.range 32).map fun m => if bitOf ms m && bitOf (s.g F.FOL_OWNA_MAP) m != s.moveToA true then 2 ^ m else 0), true)
    | some (some _, _, false) | none => (s.revertMods, false)
  if ms = 0 then s
  else (s.folSend FT.FOL_JOIN (leBytes 1 3 ++ leBytes 4 k ++ leBytes 4 ms ++ leBytes 1 (b2n swap))).moveLanes k ms swap

/-! ## Start events (R135, R136) -/

/-- The grid of a signature begins (R136); the previous one keeps only its gathered lines. -/
def State.startGrid (s : State) (sig : Nat) (ps b0 : Int) (rev : Bool) : State :=
  let lead : Int := (s.g F.GTH_CFG_LEAD : Nat)
  let g : Grid := { sig, b0 := b0 * 65536, rev, pitch := s.g F.POS_PITCH_COUNTS, next := -lead }
  let replaces := s.pos.cur.any fun x => x.sig == sig
  let s := if replaces then s else (match s.pos.old with | some x => s.untriggered x.sig | none => s)
  let old : Option Grid := if replaces then s.pos.old else
    match s.pos.cur with
    | some x =>
      let lim : Int := (s.gathered x.sig : Int) - 1
      if x.stopped || decide (lim < x.next) then none else some { x with lim := some lim }
    | none => none
  let s := s.modPos fun x => { x with cur := some g, old, sigPos := ps, repFrom := some ps, nextSig := if replaces then x.nextSig else (sig + 1) % 2 ^ 32 }
  let s := ((s.p F.QRE_SIGCUR_NUM sig).modQre fun x => { x with started := true }).posStatus
  match s.gth.cur with
  | some c => if c.ended || c.sig == sig then s else s.endSig (some c.n)
  | none => s

/-- A start event formed here (R135, R136); one before the pending signature's first pre-trigger replaces it. [DEDUCED, log 58] -/
def State.startEvent (s : State) (ps b0 : Int) : State :=
  let lead : Int := (s.g F.GTH_CFG_LEAD : Nat)
  let pend := s.pos.cur.filter fun g => g.next == -lead
  let s := match pend with
    | some g => s.record { c := E.POS_STARTLOST, ctxType := 1, ctx := ctxLine 0 0 g.sig 0 }
    | none => s
  let sig := match pend with | some g => g.sig | none => s.pos.nextSig
  let s := s.startGrid sig ps b0 s.isRev
  if s.primary then s.startFolio sig ps s.isRev else s

/-- Whether this device forms start events itself (R269, R279). -/
def State.formsStarts (s : State) : Bool := s.running && (!s.standby || s.gb F.FOL_STS_ISOLATED)

/-- B0 of a single-pass start at P_s. -/
def State.startAt (s : State) (ps : Int) : State := s.startEvent ps (ps + (s.g F.POS_SIGCFG_DLY : Int))

/-- A FOL_START of the acting primary (R269): late when the position has passed the first pre-trigger boundary. -/
def State.folStart (s : State) (b : Bytes) : State :=
  let sig := leAt b 0 4
  let ps := sext 64 (leAt b 4 8)
  let rev := bitOf (byteAt b 12) 0
  let s := s.modFol fun x => { x with lastStart := some (sig, ps, rev) }
  if !s.standby || !s.running then s
  else
    let d : Int := if rev then -1 else 1
    let b0 := ps + d * (s.g F.POS_SIGCFG_DLY : Int)
    let first := b0 * 65536 - d * ((s.g F.GTH_CFG_LEAD * s.g F.POS_PITCH_COUNTS : Nat) : Int)
    let late := decide (0 ≤ d * (s.pos.x * 65536 - first))
    let s := s.startGrid sig ps b0 rev
    if late then
      (s.record { c := E.FOL_SEQ, ctxType := 1, ctx := ctxLine 0 0 sig 0, handles := true }).modFol fun x => { x with rejoin := true }
    else s

/-! ## Triggers (R133, R134, R138, R139) -/

/-- Issue the trigger of a grid's next boundary, reached at count q (R133); a line trigger too soon after the last one is counted (R139). [DEDUCED, log 61] -/
def State.issue (s : State) (g : Grid) (isCur : Bool) (q : Int) (te e16 : Nat) (catchup : Bool) : State :=
  let g' := { g with next := g.next + 1 }
  let s := s.modPos fun x => if isCur then { x with cur := some g' } else { x with old := if g.lim.any fun l => decide (l < g'.next) then none else some g' }
  let t : Trig := { sig := g.sig, line := g.next, te, e16, pos := q, tcnt := s.tcntAt te, rev := g.rev, catchup }
  let s : State :=
    if g.next < 0 then s
    else
      let inj := s.injAny 0x0D
      let s := if inj then s.injUse else s
      let fast := s.pos.lastTrig.any fun l => decide (tdiff te l < (nsU s.tcfg : Nat))
      let s := s.modPos fun x => { x with lastTrig := some te }
      if fast || inj then
        (s.inc F.POS_CNT_FAST_COUNT).record { c := E.POS_OVERSPEED, ctxType := 1, ctx := ctxLine 0 0 g.sig g.next.toNat, stays := true, inj }
      else s
  s.trigger t (s.pos.cur.any fun x => x.sig == g.sig)

/-- A grid at new ground q: at most one boundary is reached. -/
def State.gridAt (s : State) (g : Grid) (isCur : Bool) (q : Int) (te : Nat) : State :=
  if g.stopped || g.rev != s.isRev then s
  else
    let d := s.dirI
    let e := d * (q * 65536 - (g.b0 + d * g.next * (g.pitch : Int)))
    if e < 0 then s else s.issue g isCur q te e.toNat false

/-- A 48-bit position from its register halves. -/
def pos48 (lo hi : Nat) : Int := sext 48 (lo + 2 ^ 32 * (hi % 65536))

/-- The start event that ground from `old` to q brings (R135), with its B0 before DLY where that is given: a repeat, or the swath's origin less DLY. -/
def State.startDue (s : State) (old q : Int) : Option (Int × Int) :=
  let fwd := !s.isRev
  let crossed (t : Int) : Bool := if fwd then decide (old < t) && decide (t ≤ q) else decide (t < old) && decide (q ≤ t)
  let dly : Int := (s.g F.POS_SIGCFG_DLY : Nat)
  if !s.formsStarts then none
  else if s.scanning then
    let b0 := if fwd then pos48 (s.g F.POS_SWORGF_LO_VAL) (s.g F.POS_SWORGF_HI_VAL) else pos48 (s.g F.POS_SWORGR_LO_VAL) (s.g F.POS_SWORGR_HI_VAL)
    let t := if fwd then b0 - dly else b0 + dly
    if crossed t then some (t, b0) else none
  else if s.g F.POS_SIGCFG_SRC = 2 then
    (s.pos.repFrom.map fun r => r + (s.g F.POS_REPEAT_COUNTS : Int)).bind fun t => if crossed t then some (t, t + dly) else none
  else none

/-- The start event that new ground from `old` to q brings. -/
def State.startsAt (s : State) (old q : Int) : State :=
  match s.startDue old q with
  | some (t, b0) => s.startEvent t b0
  | none => s

/-- The count at which a boundary is reached: at or past it in the direction of print (R133). -/
def State.countAt (s : State) (b : Int) : Int := if 0 < s.dirI then -((-b) / 65536) else b / 65536

/-- The next boundary of a grid. -/
def State.nextB (s : State) (g : Grid) : Int := g.b0 + s.dirI * g.next * (g.pitch : Int)

/-- The grid with the first boundary that the position has passed without a trigger (R158), and whether it is the current one. -/
def State.missed (s : State) : Option (Grid × Bool) :=
  let late (g : Grid) : Bool := !g.stopped && g.rev == s.isRev && decide (0 ≤ s.dirI * (s.pos.x * 65536 - s.nextB g))
  match s.pos.old.filter late, s.pos.cur.filter late with
  | some g, some c => if s.dirI * (s.nextB c) < s.dirI * (s.nextB g) then some (c, true) else some (g, false)
  | some g, none => some (g, false)
  | none, c => c.map fun g => (g, true)

/-- Start events that a jump has passed are formed in the order of position with the missed triggers: those that no missed trigger precedes, up to `n` (R135, R158). -/
def State.startsN : Nat → State → State
  | 0, s => s
  | n + 1, s =>
    match s.pos.seen with
    | none => s
    | some old =>
      match s.startDue old s.pos.x with
      | none => s.modPos fun x => { x with seen := none }
      | some (t, b0) =>
        if s.missed.any fun m => decide (s.dirI * s.countAt (s.nextB m.1) < s.dirI * t) then s
        else State.startsN n ((s.modPos fun x => { x with seen := some t }).startEvent t b0)

/-- The same for all that the jump has passed. -/
def State.startsPassed (s : State) : State :=
  match s.pos.seen with
  | none => s
  | some old => State.startsN ((s.pos.x - old).natAbs + 1) s

/-- New ground from `old` to q (R130, R133 to R136). [DEDUCED, log 60] -/
def State.newGround (s : State) (old q : Int) (te : Nat) : State :=
  if !s.running then s
  else
    let s := s.startsAt old q
    let s := match s.pos.old with | some g => s.gridAt g false q te | none => s
    match s.pos.cur with | some g => s.gridAt g true q te | none => s

/-! ## Position changes (R130 to R132) -/

/-- A direction change in scanning mode (R132). The grid of a swath whose last line has been triggered stops as well. [DEDUCED, log 58; DESIGN CHOICE, log 150] -/
def State.turn (s : State) (q : Int) (inj : Bool) : State :=
  let cur := s.pos.cur
  let s := match cur with
    | some g =>
      if g.stopped then s
      else
        let s := s.modPos fun x => { x with cur := some { g with stopped := true } }
        let len := match s.gth.cur with | some c => if c.sig = g.sig ∧ c.ended then c.len else s.lsig g.sig | none => s.lsig g.sig
        let s := if len.all fun n => decide (g.next ≤ (n : Int) - 1) then
            s.record { c := E.POS_EARLYTURN, ctxType := 1, ctx := ctxLine 0 0 g.sig (toBits 32 g.next), inj, handles := true }
          else s
        s.untriggered g.sig
    | none => s
  let s := match s.pos.old with | some g => (s.untriggered g.sig).modPos fun x => { x with old := none } | none => s
  (s.modPos fun x => { x with rev := !x.rev, x := q, seen := none, stamp := none, gaps := [], exc := false }).posStatus

/-- The position changes to p by a count forward or back, stamped te (R130); an injection makes it look like a place behind X (R431). -/
def State.moveTo (s : State) (p : Int) (fwd : Bool) (te : Nat) : State :=
  let inj := s.injAny 0x0C
  let arg := s.injArg
  let s := if inj then s.injUse else s
  let s := s.modPos fun x => { x with p }
  let q := if inj then s.pos.x - s.dirI * (arg : Int) else p
  let s := if fwd != s.isRev then s.stampCount te else s
  let old := s.pos.x
  let ahead := s.dirI * (q - old)
  let h : Int := (s.g F.POS_VCFG_HYST : Nat)
  if 0 < ahead then ((s.modPos fun x => { x with x := q, exc := false }).p F.POS_STS_BACKERR 0).newGround old q te
  else if h < -ahead then
    if s.scanning then
      let s := s.turn q inj
      if fwd != s.isRev then s.stampCount te else s
    else
      let s := s.modPos fun x => { x with exc := false }
      if s.gb F.POS_STS_BACKERR then s
      else (((s.p F.POS_STS_BACKERR 1).record { c := E.POS_BACKWARD, ctxType := 1, ctx := s.ctxGrid, inj, handles := true }).raise SEv.POS_REVERSE 0).inc F.POS_CNT_BACKWARD_COUNT
  else if ahead < 0 && !s.pos.exc then (s.modPos fun x => { x with exc := true }).inc F.POS_CNT_JITTER_COUNT
  else s

/-! ## Encoder inputs (R126, R127) -/

/-- The level that an input is accepted at (R126): its own once it has been stable for FILT + 1 samples, else the level accepted before. [DEDUCED, log 60] -/
def encAccept (x : EncIn) (filt : Nat) (old : Bool) : Bool := if filt + 1 ≤ x.samples.toNat then x.high else old

/-- Encoder e's inputs as sampled, `frac` into the TBCLK cycle (R126): edges of A and B accepted, the ×4 decode, illegal transitions and the count. [DEDUCED, log 60, 61] -/
def State.encEdge (s : State) (e : Nat) (a b : EncIn) (frac : Nat) : State :=
  let old := s.enc e
  let filt := s.g (F.POS_ENCCFG_FILT e)
  let la := encAccept a filt old.a
  let lb := encAccept b filt old.b
  let ea := la != old.a
  let eb := lb != old.b
  if !s.fromTrain || !(ea || eb) then s
  else
    let s := s.modEnc e fun x => { x with a := la, b := lb }
    let te := tAdd s.now (frac : Nat)
    let inj := s.injHit 0x0B e
    let s := if inj then s.injUse else s
    let s := s.modEnc e fun x => { x with edgeAt := some te }
    if inj || (ea && eb) || old.edgeAt.any fun l => decide (tdiff te l < (nsU 16 : Nat)) then
      (s.inc F.POS_CNT_ENCERR_COUNT).record { c := E.POS_ENCERR, inst := e, ctxType := 1, ctx := s.ctxGrid, stays := true, byGap := false, inj }
    else
      let s := s.closeRecs fun k => k.take 2 == [E.POS_ENCERR.code, e]
      let up := if ea then la != lb else la == lb
      let fwd := up != s.gb (F.POS_ENCCFG_INV e)
      let n := sext 48 (toBits 48 ((old.load.getD old.count) + (if fwd then 1 else -1)))
      let s := s.modEnc e fun x => { x with count := n, prev := x.count, load := none, lastEdge := some te }
      if s.g F.POS_CTL_SRC = e then s.moveTo n fwd te else s

/-- A rising edge of Z on encoder e (R127). -/
def State.encZ (s : State) (e : Nat) : State :=
  if !s.fromTrain then s
  else
    let mode := s.g (F.POS_ENCCFG_ZMODE e)
    let s := if s.g F.POS_CTL_SRC = e then s.modPos fun x => { x with zSeen := true } else s
    if mode = 0 ∨ mode = 3 then s
    else
      let zval := pos48 (s.g F.POS_ZVAL_LO_VAL) (s.g F.POS_ZVAL_HI_VAL)
      s.modEnc e fun x => { x with zlat := x.count, zarm := x.zarm && mode != 2, load := if mode = 2 && x.zarm then some zval else x.load }

/-- POS_CMD.ZARM (R127). [DEDUCED, log 60] -/
def State.zarmCmd (s : State) (src : Src) : State :=
  if s.dev ≠ .standby then s.recReg E.POS_CMD F.POS_CMD_ZARM.addr src
  else (List.range 2).foldl (fun s e => s.modEnc e fun x => { x with zarm := true }) s

/-! ## Beacons (R155 to R158) -/

/-- A beacon owner sends its beacons (R155). It is stopped while no count in its direction has been stamped, or T_cnt exceeds its field. [DESIGN CHOICE, log 149] -/
def State.beaconOut (s : State) : State :=
  let e := s.g F.POS_CTL_SRC
  if !s.fromTrain || !s.gb F.POS_CTL_BCNTX || decide (2 ≤ e) then s
  else
    let x := s.enc e
    let t := s.tcntAt s.now
    let stopped := s.pos.stamp.isNone || decide (4294967295 ≤ t.floor)
    let b := leBytes 8 (x.lastEdge.getD 0) ++ leBytes 6 (toBits 48 x.count) ++ leBytes 2 0 ++ leBytes 4 (if stopped then 0xFFFFFFFF else t.floor.toNat)
      ++ leBytes 2 s.epoch ++ leBytes 1 (b2n s.isRev + 2 * b2n stopped + 4 * b2n s.pos.zSeen) ++ leBytes 1 s.pos.bcnSeq ++ leBytes 8 0
    let s := s.modPos fun y => { y with bcnSeq := (y.bcnSeq + 1) % 256, zSeen := false }
    (List.range 8).foldl (fun s k => if s.gb (F.POS_BCNDST_EN k) then s.send (s.mkFrame (s.g (F.POS_BCNDST_NODE k)) 0 FT.HB_BEACON b) else s) s

/-- Change the follower. -/
def State.modFlw (s : State) (f : Follower → Follower) : State := s.modPos fun x => { x with fol := f x.fol }

/-- The follower's state (R157): a follower that has left TRAIN starts in ACQ. -/
def State.folSt (s : State) : Fol :=
  if s.g F.POS_CTL_SRC ≠ 2 || decide (devCode s.dev < 5) then .notFollower else if s.pos.fol.st = .notFollower then .acq else s.pos.fol.st

/-- The estimate at a time. -/
def State.estAt (s : State) (t : Nat) : Rat := s.pos.fol.p + s.pos.fol.v * ((tdiff t s.pos.fol.tref : Int) : Rat)

/-- The follower starts acquiring anew. [DEDUCED, log 62] -/
def State.toAcq (s : State) : State := s.modFlw fun x => { x with st := .acq, good := 0, loaded := false }

/-- Whether the estimate drives triggers now (R157). -/
def State.estDrives (s : State) : Bool :=
  let st := s.folSt
  s.pos.fol.valid && (st == .locked || st == .extrap || (st == .acq && (s.pos.fol.loaded || decide (tdiff s.now s.pos.fol.tref ≤ (nsU 100000 : Nat)))))

/-- The last count that the estimate has reached: the count followed so far changes once the estimate reaches another (R156). [DEDUCED, log 62] -/
def State.estCount (s : State) : Int :=
  let e := s.estAt s.now
  if (s.pos.p : Rat) + 1 ≤ e then e.floor else if e ≤ (s.pos.p : Rat) - 1 then -((-e).floor) else s.pos.p

/-- The position now (POS_POS, P_s): the selected encoder's count, or the estimate's; frozen in HOLD (R135, R156, R157). -/
def State.posNow (s : State) : Int :=
  if s.g F.POS_CTL_SRC < 2 then (s.enc (s.g F.POS_CTL_SRC)).count else if s.estDrives then s.estCount else s.pos.p

/-- The position takes a value at once: boundaries it passes are missed triggers (R158), and start positions it passes form their start events in their order with those (R135). -/
def State.jumpTo (s : State) (p : Int) : State :=
  if 0 < s.dirI * (p - s.pos.x) then
    let s' := (s.modPos fun x => { x with p, x := p, exc := false, seen := if s.running then some (x.seen.getD x.x) else none }).p F.POS_STS_BACKERR 0
    s'.startsPassed
  else s.moveTo p (decide (s.pos.p < p)) s.now

/-- The follower has a new estimate at once: its place now is the position (R156); the first one is no motion. [DEDUCED, log 62] -/
def State.estJump (s : State) (first : Bool) : State :=
  if first then
    let e := s.estAt s.now
    let c := if s.pos.fol.v < 0 then -((-e).floor) else e.floor
    s.modPos fun x => { x with p := c, x := c, seen := none }
  else s.jumpTo s.estCount

/-- A beacon arrives from the followed node (R156, R157). [DEDUCED, log 62] -/
def State.beaconIn (s : State) (f : Frame) : State :=
  let st := s.folSt
  if st = .notFollower ∨ f.src ≠ s.g F.POS_BCNCFG_SRCNODE then s
  else if s.injAny 0x0F then (s.modFlw fun y => { y with injd := true }).injStep
  else
    let b := f.payload
    let tk := leAt b 0 8
    let pk : Int := sext 48 (leAt b 8 6)
    let tc := leAt b 16 4
    let seq := byteAt b 23
    let x := s.pos.fol
    let unused (s : State) : State := if st = .acq then s.modFlw fun y => { y with good := 0 } else s
    if leAt b 20 2 ≠ s.epoch then unused (s.inc F.POS_CNT_BCNEPOCH_COUNT)
    else if x.lastSeq.any fun l => decide ((seq + 256 - l) % 256 = 0) || decide (128 ≤ (seq + 256 - l) % 256) then unused s
    else if st = .acq ∧ !x.loaded ∧ !s.injAny 0x0E then
      let rev := bitOf (byteAt b 22) 0
      let stopped := bitOf (byteAt b 22) 1 || tc == 0xFFFFFFFF || tc == 0
      let v : Rat := if stopped then 0 else (if rev then -1 else 1) / ((tc : Nat) : Rat)
      (s.modFlw fun y => { y with st := .acq, p := (pk : Rat), v, tref := tk, good := 1, loaded := true, lastSeq := some seq, valid := true }).estJump (!x.valid)
    else
      let pred := s.estAt tk
      let r : Rat := (pk : Rat) - pred
      let inj := s.injAny 0x0E
      let s := if inj then s.injUse else s
      let mx : Rat := ((s.g F.POS_BCNCFG_MAXRES : Nat) : Rat)
      if inj || decide (mx < r) || decide (r < -mx) then
        let s := if st = .locked ∨ st = .extrap then s.record { c := E.POS_BCNJUMP, ctxType := 1, ctx := s.ctxGrid, inj, handles := true } else s
        s.toAcq
      else
        let a : Rat := 1 / ((2 ^ s.g F.POS_BCNCFG_ASH : Nat) : Rat)
        let be : Rat := 1 / ((2 ^ s.g F.POS_BCNCFG_BSH : Nat) : Rat)
        let s := s.modFlw fun y =>
          { y with p := pred + a * r, v := y.v + be * r / ((nsU 10000 : Nat) : Rat), tref := tk, good := y.good + 1, lastSeq := some seq,
                   injd := y.injd && (st != .locked || s.missed.isSome), st := if st = .acq ∧ y.good + 1 < 3 then .acq else .locked }
        if st = .hold then s.estJump false else s

/-- No usable beacon for 15 us (R157). -/
def State.toExtrap (s : State) : State := if s.folSt = .locked then s.modFlw fun x => { x with st := .extrap } else s

/-- No usable beacon for 100 us (R157). [DEDUCED, log 62] -/
def State.toHold (s : State) : State :=
  let st := s.folSt
  if st = .notFollower ∨ st = .hold then s
  else ((s.modPos fun x => { x with p := s.posNow }).modFlw fun x => { x with st := .hold }).record { c := E.POS_BCNLOST, ctxType := 1, ctx := s.ctxGrid, inj := s.pos.fol.injd, handles := true }

/-- The estimate moves count by count, `n` counts up or down (R156): each at its predicted time, or now where the estimate has been corrected against its motion. [DEDUCED, log 62] -/
def State.followN : Nat → Bool → State → State
  | 0, _, s => s
  | n + 1, up, s =>
    let x := s.pos.fol
    let c : Int := if up then s.pos.p + 1 else s.pos.p - 1
    let te := if (if up then 0 < x.v else x.v < 0) then tAdd x.tref (((c : Rat) - x.p) / x.v).floor else s.now
    State.followN n up (s.moveTo c up te)

/-- The estimate has moved on: counts it has reached are taken, and a boundary among them triggers (R156). While missed triggers are still to be issued, those of the boundaries that it
passes join them (R158). -/
def State.follow (s : State) : State :=
  if !s.estDrives then s
  else
    let c := s.estCount
    if s.missed.isSome then (if c = s.pos.p then s else s.jumpTo c) else s.followN (c - s.pos.p).natAbs (decide (s.pos.p < c))

/-- The next missed trigger is issued T_cfg after the previous one with D = MINADV (R158). [DESIGN CHOICE, log 28] -/
def State.catchUp (s : State) : State :=
  if !s.running || s.g F.POS_CTL_SRC != 2 || s.folSt == .hold then s
  else
    match s.missed with
    | none => s.modFlw fun x => { x with cu := false }
    | some (g, isCur) =>
      let d := s.dirI
      let far := match s.pos.cur with | some c => if !c.stopped && c.rev == s.isRev && decide (0 ≤ d * (s.pos.x * 65536 - s.nextB c)) then c else g | none => g
      let last : Int := if far.pitch = 0 then far.next else d * (s.pos.x * 65536 - far.b0) / (far.pitch : Int)
      let s := if s.pos.fol.cu then s
        else s.record { c := E.POS_CATCHUP, inst := toBits 16 last, ctxType := 1, ctx := ctxLine 0 0 g.sig (toBits 32 g.next), inj := s.pos.fol.injd, handles := true }
      let s := (s.modFlw fun x => { x with cu := true }).inc F.POS_CNT_CATCHUP_COUNT
      let b := s.nextB g
      let q := s.countAt b
      let te := tMax s.now (s.pos.lastTrig.map fun l => tAdd l (nsU s.tcfg : Nat))
      let s := (s.issue g isCur q te (d * (q * 65536 - b)).toNat true).startsPassed
      if s.missed.isNone then s.modFlw fun x => { x with cu := false } else s

/-! ## Start events by input and command (R135) -/

/-- The last count stamped at or before a time of the present cycle (R135). -/
def State.posAt (s : State) (te : Nat) : Int :=
  if s.g F.POS_CTL_SRC < 2 && (s.enc (s.g F.POS_CTL_SRC)).lastEdge.any fun l => decide (0 < tdiff l te) then (s.enc (s.g F.POS_CTL_SRC)).prev else s.posNow

/-- TOFn as sampled, `frac` into the TBCLK cycle (R135): an edge is accepted once the level has been stable for 64 ns, 16 ECLK samples. [DEDUCED, log 60] -/
def State.tofIn (s : State) (n : Nat) (x : EncIn) (frac : Nat) : State :=
  let old := spGet false s.pos.tof n
  let high := encAccept x 15 old
  if high = old then s
  else
    let s := s.modPos fun y => { y with tof := spSet false y.tof n high }
    if s.formsStarts && !s.scanning && s.g F.POS_SIGCFG_SRC == n && high != s.gb F.POS_SIGCFG_TOFPOL then
      (let s := s.follow; s.startAt (s.posAt (tAdd s.now (frac : Nat))))
    else s

/-- POS_CMD.START (R135). -/
def State.startCmd (s : State) (src : Src) : State :=
  if s.scanning || decide (s.g F.POS_SIGCFG_SRC < 2) || s.standby then s.recReg E.POS_CMD F.POS_CMD_START.addr src
  else if s.running then (let s := s.follow; s.startAt s.posNow)
  else s

/-- POS_CMD: the commands of one write, in bit order. -/
def State.posCmd (s : State) (src : Src) (w : Nat) : State :=
  let s := if bitOf w 0 then s.startCmd src else s
  if bitOf w 1 then s.zarmCmd src else s

end Sys2Proof.Machine
end

