-- ==== Sys2Proof/Machine/TmbOps.lean ====
section
/-!
DEFINITION. The timebase and Headband time synchronisation (R142 to R153).
-/

namespace Sys2Proof.Machine

/-- Change the synchronisation block. -/
def State.modTmb (s : State) (f : TmbSt → TmbSt) : State := { s with tmb := f s.tmb }

/-- Follower role; the reserved code follows too. -/
def State.follower (s : State) : Bool := s.g F.TMB_CTL_ROLE == 0 || s.g F.TMB_CTL_ROLE == 3

/-- TMB_STS.LOCK as it reads: 1 in master role. -/
def State.locked (s : State) : Bool := !s.follower || s.gb F.TMB_STS_LOCK

/-- One TBCLK cycle of the timebase (R142), and the block boundaries of the Thread lanes in it. [DESIGN CHOICE, log 2] -/
def State.tbTick (s : State) : State :=
  let acc : Int := (s.tbFrac : Int) + 65536 * 16777216 + sext 32 (s.g F.TMB_FADJ_ADJ)
  { s with tb := BitVec.ofNat 64 (tAdd s.now (acc / 16777216)), tbFrac := (acc % 16777216).toNat, ns := s.ns + 1 }.lanesTick

/-! ## Events (R144) -/

/-- Armed event n fires once its time is reached. [DEDUCED, log 111] -/
def State.tbEvent (s : State) (n : Nat) : State :=
  let t := s.g (F.TMB_EVT_LO_VAL n) + 2 ^ 32 * s.g (F.TMB_EVT_HI_VAL n)
  if !s.gb (F.TMB_EVTCTL_ARMED n) || decide (tdiff s.now t < 0) then s
  else
    let s := (s.p (F.TMB_EVTCTL_ARMED n) 0).raise (SEv.TB_EVT + n) n
    if s.gb (F.TMB_EVTCTL_RINGEN n) then s.post (s.g (F.TMB_EVTCTL_RING n)) DT.TB_EVENT 0 (leBytes 8 n ++ leBytes 8 t) else s

/-! ## Steps (R145) -/

/-- Change every listed entry of a table. -/
def spMap {α : Type} (f : α → α) (m : Sparse α) : Sparse α := m.map fun y => (y.1, f y.2)

/-- Pulses moved by a distance. -/
def TrigOut.shift (d : Int) (o : TrigOut) : TrigOut := { o with waiting := o.waiting.map fun p => { p with t := tAdd p.t d } }

/-- A line's fire times moved by a distance. -/
def Line.shift (d : Int) (x : Line) : Line := { x with mods := spMap (fun (y : ModLine) => { y with tf := y.tf.map fun t => tAdd t d }) x.mods }

/-- A FEN output's times moved by a distance. -/
def Fen.shift (d : Int) (x : Fen) : Fen := { x with rise := tAdd x.rise d, fell := x.fell.map fun t => tAdd t d, skUntil := x.skUntil.map fun t => tAdd t d }

/-- An encoder's stamp moved by a distance. -/
def Enc.shift (d : Int) (x : Enc) : Enc := { x with lastEdge := x.lastEdge.map fun t => tAdd t d, edgeAt := x.edgeAt.map fun t => tAdd t d }

/-- Move what is scheduled from local edges by a distance. -/
def State.rebase (s : State) (d : Int) : State :=
  let s := { s with gth := { s.gth with lines := s.gth.lines.map (Line.shift d) } }
  let s := s.modFir fun x => { x with fen := spMap (Fen.shift d) x.fen }
  let s := s.modIns fun x => { x with ctrig := spMap (TrigOut.shift d) x.ctrig, lstb := spMap (TrigOut.shift d) x.lstb }
  s.modPos fun x => { x with stamp := x.stamp.map fun t => tAdd t d, lastTrig := x.lastTrig.map fun t => tAdd t d, enc := spMap (Enc.shift d) x.enc,
                             fol := { x.fol with tref := tAdd x.fol.tref d } }

/-- A step of the timebase by -θ: epoch, schedules, count and record; a beacon follower acquires anew (R157). [DEDUCED, log 63] -/
def State.tbStep (s : State) (theta : Int) (inj : Bool) : State :=
  let s := { s with tb := BitVec.ofNat 64 (tAdd s.now (-theta)) }
  let s := ((s.rebase (-theta)).p F.TMB_EPOCH_EPOCH ((s.epoch + 1) % 65536)).inc F.TMB_CNT_STEP_COUNT
  let s := (s.modTmb fun x => { x with sinceEpoch := 0, lockRun := 0 }).p F.TMB_STS_LOCK 0
  let s := if s.folSt == Fol.notFollower then s else s.toAcq
  s.record { c := E.TMB_STEP, ctxType := 10, ctx := toBits 64 theta, inj, handles := true }

/-- TMB_CMD.SET (R145, R160). -/
def State.tbSet (s : State) (src : Src) : State :=
  if s.follower then s.recReg E.POS_CMD F.TMB_CMD_SET.addr src
  else s.tbStep (tdiff s.now (s.g F.TMB_SET_LO_VAL + 2 ^ 32 * s.g F.TMB_SET_HI_VAL)) false

/-! ## The servo (R151) -/

/-- Picoseconds of a time difference, as a saturated 32-bit signed number. -/
def psOf (u : Int) : Nat := toBits 32 (clampI (-2147483648) 2147483647 (u * 1000 / 65536))

/-- Steer or step by an offset. [DESIGN CHOICE, log 53] -/
def State.servo (s : State) (theta : Int) (epochOk inj : Bool) : State :=
  if !epochOk || decide ((nsU (s.g F.TMB_STEPTHR_NS) : Nat) < theta.natAbs) then s.tbStep theta inj
  else
    let th : Rat := (theta : Rat)
    let i := s.tmb.integ + th / ((2 ^ s.g F.TMB_SERVO_KISH : Nat) : Rat)
    let u := th / ((2 ^ s.g F.TMB_SERVO_KPSH : Nat) : Rat) + i
    let int := s.g F.TMB_SYNCCFG_INT
    let lim : Int := 219902325
    let adj : Int := if int = 0 then Config.quotZero u.floor else (-u * 16777216 / ((int * 1000 : Nat) : Rat)).floor
    let s := s.p F.TMB_FADJ_ADJ (toBits 32 (clampI (-lim) lim adj))
    let within := decide (theta.natAbs * 1000 ≤ 4 * s.g F.TMB_SERVO_LOCKTHR * 65536)
    let run := if within then s.tmb.lockRun + 1 else 0
    let s := s.modTmb fun x => { x with integ := i, lockRun := Nat.min run 16 }
    if 16 ≤ run then s.p F.TMB_STS_LOCK 1 else s

/-! ## HB_SYNC (R150 to R152) -/

/-- Send a Headband frame on a port. -/
def State.hbSend (s : State) (p ty : Nat) (b : Bytes) : State := s.sendLL p ty 0 (slice b 0 32)

/-- The payload of HB_SYNC (R147). -/
def syncBytes (origin : Nat) (corr : Int) (epoch node hop flags seq : Nat) : Bytes :=
  leBytes 8 origin ++ leBytes 8 (toBits 64 corr) ++ leBytes 2 epoch ++ leBytes 2 node ++ leBytes 1 hop ++ leBytes 1 flags ++ leBytes 2 seq

/-- The master sends HB_SYNC out of every port with a link up (R150). -/
def State.syncOut (s : State) : State :=
  if s.follower then s
  else
    let flags := b2n (s.g F.TMB_CTL_ROLE == 2 && s.tmb.pps) + 2 * b2n (decide (s.tmb.sinceEpoch < 16))
    let b := syncBytes s.now 0 s.epoch s.ownNode 0 flags s.tmb.syncSeq
    let s := s.upPorts.foldl (fun s p => s.hbSend p FT.HB_SYNC b) s
    s.modTmb fun x => { x with syncSeq := (x.syncSeq + 1) % 65536, sinceEpoch := Nat.min 16 (x.sinceEpoch + 1) }

/-- The upstream port (R150): fixed, or in automatic mode the port with a link up and the lowest received hop count. [DEDUCED, log 63] -/
def State.upstream (s : State) : Option Nat :=
  let u := s.g F.TMB_CTL_UPPORT
  if u < 4 then some u
  else if u = 4 then
    let c := s.upPorts.filterMap fun p => (spGet none s.tmb.hops p).map fun h => (h, p)
    let low := minD 256 (c.map (·.1))
    (c.find? fun x => x.1 == low).map (·.2)
  else none

/-- The mean of a port's last delays in 2^-16 ns (R149). [DEDUCED, log 63] -/
def State.delayOf (s : State) (p : Nat) : Int :=
  let l := spGet [] s.tmb.delays p
  if l.isEmpty then 0 else (l.foldl (· + ·) 0) / ((l.length : Nat) : Int)

/-- An HB_SYNC arrives on port p, `frac` into the TBCLK cycle; `res` gives, by port, the residence time until its copy leaves there (R150, R151). -/
def State.syncIn (s : State) (p : Nat) (f : Frame) (frac : Nat) (res : List Nat) : State :=
  let b := f.payload
  let node := leAt b 18 2
  let hop := byteAt b 20
  let cut : Bool := match s.err.inj with | some j => j.id == 0x10 && decide (s.us < j.left + j.arg * s.g F.TMB_SYNCCFG_INT) | none => false
  if cut then s.inc F.ERR_CNT_INJ_COUNT
  else
    let s := if s.injAny 0x10 then { s with err := { s.err with inj := none } } else s
    let named := node == s.g F.TMB_MASTER_NODE && decide (hop < 32)
    let s := if named then s.modTmb fun x => { x with hops := spSet none x.hops p (some hop) } else s
    if !s.follower || !named || s.upstream != some p then s.inc F.TMB_CNT_SYNCREJ_COUNT
    else
      let trx := tAdd s.now (frac : Nat)
      let origin := leAt b 0 8
      let corr := sext 64 (leAt b 8 8)
      let dup := s.delayOf p
      let inj := s.injAny 0x11
      let extra : Int := if inj then (s.injArg * 1000 * 65536 : Nat) else 0
      let s := if inj then s.injUse else s
      let theta := tdiff trx (tAdd origin (corr + dup)) + extra
      let s := (((s.p F.TMB_OFFSET_PS (psOf theta)).p F.TMB_STS_SYNCSEEN 1).p F.TMB_STS_HOLDOVER 0).p F.TMB_STS_UPSEL p
      let fwd (q : Nat) : Bytes := syncBytes origin (corr + (res.getD q 0 : Nat) + dup) (leAt b 16 2) node (hop + 1) (byteAt b 21) (leAt b 22 2)
      let s := (s.upPorts.filter fun q => q != p).foldl (fun s q => s.hbSend q FT.HB_SYNC (fwd q)) s
      s.servo theta (leAt b 16 2 == s.epoch) inj

/-- No HB_SYNC for 8 INT: holdover (R152). -/
def State.syncLost (s : State) : State :=
  if !s.follower || s.gb F.TMB_STS_HOLDOVER then s
  else
    let s := ((s.p F.TMB_STS_HOLDOVER 1).p F.TMB_STS_LOCK 0).modTmb fun x => { x with lockRun := 0 }
    (s.inc F.TMB_CNT_SYNCLOST_COUNT).record
      { c := E.TMB_SYNCLOST, ctxType := 5, ctx := ctxNode (s.g F.TMB_MASTER_NODE) (s.g F.TMB_STS_UPSEL) 0xFF 0, inj := s.injAny 0x10, handles := true }

/-- An edge of PPS_IN (R153): the disciplined master steers or steps to the nearest whole second. -/
def State.ppsIn (s : State) (rising : Bool) (frac : Nat) : State :=
  if s.g F.TMB_CTL_ROLE ≠ 2 ∨ rising = s.gb F.TMB_CTL_PPSPOL then s
  else
    let sec : Int := (nsU 1000000000 : Nat)
    let r : Int := ((tAdd s.now (frac : Nat) : Nat) : Int) % sec
    let theta := if 2 * r ≤ sec then r else r - sec
    let s := (s.modTmb fun x => { x with pps := true }).p F.TMB_OFFSET_PS (psOf theta)
    let stepped := decide ((nsU (s.g F.TMB_STEPTHR_NS) : Nat) < theta.natAbs)
    let s := s.servo theta true false
    if stepped then s.syncOut else s

/-! ## Peer delay (R149) -/

/-- A follower asks on every port with a link up. -/
def State.pdOut (s : State) : State :=
  if !s.follower then s
  else
    let q := s.tmb.pdSeq
    let s := s.modTmb fun x => { x with pdSeq := (q + 1) % 65536 }
    s.upPorts.foldl (fun s p =>
      (s.hbSend p FT.HB_PDREQ (leBytes 8 s.now ++ leBytes 8 0 ++ leBytes 6 0 ++ leBytes 2 q)).modTmb fun x => { x with pd := spSet none x.pd p (some ⟨q, s.now⟩) }) s

/-- The device answers a request that arrived `frac` into the cycle, `turn` later. -/
def State.pdReq (s : State) (p : Nat) (f : Frame) (frac turn : Nat) : State :=
  let t2 := tAdd s.now (frac : Nat)
  s.hbSend p FT.HB_PDRESP (leBytes 8 t2 ++ leBytes 8 (tAdd t2 (turn : Nat)) ++ leBytes 6 0 ++ leBytes 2 (leAt f.payload 22 2))

/-- A response gives a new delay of port p. -/
def State.pdResp (s : State) (p : Nat) (f : Frame) (frac : Nat) : State :=
  match spGet none s.tmb.pd p with
  | some r =>
    if r.seq ≠ leAt f.payload 22 2 then s
    else
      let t4 := tAdd s.now (frac : Nat)
      let d := (tdiff t4 r.t1 - tdiff (leAt f.payload 8 8) (leAt f.payload 0 8)) / 2 + sext 16 (s.g (F.TMB_ASYM_PS p)) * 65536 / 1000
      let s := s.modTmb fun x => { x with pd := spSet none x.pd p none, delays := spMod [] x.delays p fun l => (d :: l).take 16 }
      s.p (F.TMB_PDELAY_PS p) (psOf (s.delayOf p))
  | none => s

/-- A response has not come within 1 ms. -/
def State.pdLost (s : State) (p : Nat) : State := s.modTmb fun x => { x with pd := spSet none x.pd p none }

end Sys2Proof.Machine
end

