-- ==== Sys2Proof/Machine/DevOps.lean ====
section
/-!
DEFINITION. Changes among STANDBY, RUN and HOLD (R18, R410 to R412, R440): the quantities an attempt computes, every chapter's refusal, and what entering and leaving do.
-/

namespace Sys2Proof.Machine

/-! ## The quantities of an attempt (R23, R66, R85, R112, R180) -/

/-- A derived quantity as its 32-bit register reports it. [DEDUCED, log 15] -/
def sat32 (v : Int) : Nat := (clampI 0 0xFFFFFFFF v).toNat

/-- The time of a payload bit of a lane in femtoseconds (R161); a reserved rate has none. -/
def fsBit (rate : Nat) : Nat := if rate = 0 then 200000 else if rate = 1 then 100000 else if rate = 2 then 80000 else 0

/-- B_bundle of module m's lane in femtoseconds (R180). -/
def State.bBundle (s : State) (m : Nat) : Nat :=
  let bit := fsBit (s.g (F.THL_CFG_RATE m))
  if bit = 0 then 0 else s.g (F.THL_RTCFG_NRS m) * (s.g (F.THL_RTCFG_TACK m) * 1000000 + 1920 * bit)

/-- T_G in ns (R85, R23). -/
def State.tG (s : State) : Nat := 4096 / (if s.g F.QRE_CFG_MAXBPN = 1 then 2 else 1) + 200

/-- M_b of module m's lane in femtoseconds (R85, R171). -/
def State.mBundle (s : State) (m : Nat) : Int :=
  (s.g F.GTH_CFG_LEAD * s.tcfg * 1000000 : Nat) - ((s.tG * 1000000 + 29248 * fsBit (s.g (F.THL_CFG_RATE m)) : Nat) : Int)

/-- The modules with an enabled context whose lane has a rate. [DESIGN CHOICE, log 148] -/
def State.ratedMods (s : State) : List Nat := s.mods.filter fun m => decide (s.g (F.THL_CFG_RATE m) < 3)

/-- The least of a list of integers, 0 when it is empty. -/
def leastI : List Int → Int
  | [] => 0
  | x :: xs => xs.foldl (fun a b => if b < a then b else a) x

/-- Write the registers of the derived quantities (R440); GTH_MBUNDLE takes the least M_b over the modules with an enabled context, 0 where there is none (R85). [DEDUCED, log 15; DESIGN CHOICE, log 148] -/
def State.derive (s : State) : State :=
  let lmin := sat32 s.lMin
  let mb := sat32 (leastI (s.ratedMods.map s.mBundle) / 1000000)
  let bb := (List.range 32).map fun m => sat32 ((s.bBundle m / 1000000 : Nat) : Int)
  let gw := sat32 ((s.g F.FIR_GOVPWR_MW * 256 * s.tcfg / 1000000 : Nat) : Int)
  let s := ((s.p F.QRE_LMIN_NS lmin).p F.GTH_MBUNDLE_NS mb).p F.FIR_GOVWIN_UJ gw
  (List.range 32).foldl (fun s m => s.p (F.THL_BBUNDLE_NS m) (bb.getD m 0)) s

/-! ## The checks (R440): each answers the address it names, or none -/

/-- A check on one register. -/
def chk (bad : Bool) (f : FR) : Option Nat := if bad then some f.addr else none

/-- A check over several registers names the first that fails. [DEDUCED, log 16] -/
def chkFirst (is : List Nat) (bad : Nat → Bool) (f : Nat → FR) : Option Nat := (is.find? bad).map fun i => (f i).addr

/-- Whether ring n is not enabled. -/
def State.ringOff (s : State) (n : Nat) : Bool := !s.gb (F.MBX_RG_CFG_EN n)

/-- The rank types that enabled contexts use. -/
def State.typesUsed (s : State) : List Nat := (List.range 4).filter fun t => s.ctxs.any fun c => s.rtype (c / 4) (c % 4) == t

/-- The checks of quires, gathering and the lanes' rates (R24, R56, R66, R85, R100). -/
def State.checksGather (s : State) : List (Option Nat) :=
  let dmax := s.g F.QRE_CFG_QMAXKIB * 1024
  let brs : Int := ((s.g F.QRE_RSCFG_TMO * s.g F.QRE_RSCFG_MAX * 1000 : Nat) : Int)
  let il := s.g F.GTH_SCANCFG_ILACE
  let scan := s.scanning
  let lay := s.layout (s.mods.headD 0)
  [ chkFirst s.ratedMods (fun m => decide (3000000000000000 < s.g F.POS_LRMAX_HZ * 29248 * fsBit (s.g (F.THL_CFG_RATE m)) * 4)) F.THL_CFG_RATE,
    chk (decide (s.sRing < 2 * dmax)) F.QRE_CFG_QMAXKIB,
    chk (s.g F.QRE_RSCFG_MAX != 0 && decide (s.lMin < 2 * brs)) F.QRE_LMIN_NS,
    chk (decide (s.tcfg < s.tG)) F.GTH_MBUNDLE_NS,
    chk (s.ratedMods.any fun m => decide (s.mBundle m < ((2 * s.bBundle m : Nat) : Int))) F.GTH_MBUNDLE_NS,
    chk (s.g F.GTH_CFG_LEAD == 0 || s.g F.GTH_CFG_LEAD == 3) F.GTH_CFG_LEAD,
    chkFirst (List.range 31) (fun m => decide (48 < s.g (F.GTH_SEAM_OVL m))) F.GTH_SEAM_OVL,
    chkFirst s.mods (fun m => s.layout m == 3) F.GTH_MODCFG_LAYOUT,
    chk (scan && il == 3) F.GTH_SCANCFG_ILACE,
    chk (scan && il != 3 && s.passes % s.ilace != 0) F.GTH_SCANCFG_ILACE,
    chk (scan && s.g F.GTH_SCANCFG_BANDW == 0) F.GTH_SCANCFG_ILACE,
    if scan then chkFirst s.mods (fun m => s.layout m != lay) F.GTH_MODCFG_LAYOUT else none ]

/-- The checks of firing (R125). -/
def State.checksFire (s : State) : List (Option Nat) :=
  let sl := s.g F.FIR_FGCFG_SLOT
  let lim := if s.g F.FIR_WDCFG_LIMIT = 0 then 64 else s.g F.FIR_WDCFG_LIMIT
  let e (i : Nat) : Nat := s.g (F.FIR_EPD_E (i / 16) (i % 16))
  [ chk (decide (s.tcfg < 16 * sl + s.g F.FIR_FGCFG_MINLOW)) F.FIR_FGCFG_SLOT,
    chk (decide (lim * 1000 < 16 * sl + 1000)) F.FIR_WDCFG_LIMIT,
    chk (decide (s.g F.FIR_TCFG_TDLY < s.g F.GTH_CFG_LEAD + 2)) F.FIR_TCFG_TDLY,
    chk (s.g F.FIR_TLIM_HARD != 0 && decide (s.g F.FIR_TLIM_HARD ≤ s.g F.FIR_TLIM_RESUME)) F.FIR_TLIM_HARD,
    chkFirst ((List.range 15).drop 1) (fun i => decide (s.g (F.FIR_TBTHR_TEMP i) < s.g (F.FIR_TBTHR_TEMP (i - 1)))) F.FIR_TBTHR_TEMP,
    chk (decide (s.g F.FIR_HCFG_Q2B < s.g F.FIR_HCFG_Q2A)) F.FIR_HCFG_Q2A,
    chk (s.g F.FIR_GOVSLOT_NJ == 0) F.FIR_GOVSLOT_NJ,
    chk (s.g F.FIR_GOVLINE_NJ == 0) F.FIR_GOVLINE_NJ,
    chk (s.g F.FIR_GOVPWR_MW == 0) F.FIR_GOVPWR_MW,
    chkFirst (s.typesUsed.flatMap fun t => (List.range 16).map fun x => 16 * t + x)
      (fun i => e i == 0 || (i % 16 != 0 && decide (e i < e (i - 1)))) fun i => F.FIR_EPD_E (i / 16) (i % 16) ]

/-- The checks of position and timebase (R135, R140, R160). A time master with no link up is taken for its only node. [DEDUCED, log 17] -/
def State.checksPos (s : State) : List (Option Nat) :=
  let hz := s.g F.POS_LRMAX_HZ
  let lead := s.g F.GTH_CFG_LEAD
  let role := s.g F.TMB_CTL_ROLE
  let bcn := s.g F.POS_CTL_SRC == 2
  let bad (m : Nat) : Bool :=
    [sext 8 (s.g (F.POS_PHASE_ALIGNF m)), sext 8 (s.g (F.POS_PHASE_ALIGNR m))].any fun a =>
      let v := (s.g (F.POS_PHASE_PHASE m) : Int) + a
      decide (v < 0) || decide (255 < v)
  [ chk (decide (s.g F.POS_SIGCFG_DLY * 65536 < (lead + 1) * s.g F.POS_PITCH_COUNTS)) F.POS_SIGCFG_DLY,
    chkFirst s.mods bad F.POS_PHASE_PHASE,
    chk (hz == 0 || decide (300000 < hz)) F.POS_LRMAX_HZ,
    chk (decide (200000 < hz) && decide (1 < s.g F.QRE_CFG_MAXBPN)) F.POS_LRMAX_HZ,
    chk (decide (s.g F.POS_PITCH_COUNTS < 65536)) F.POS_PITCH_COUNTS,
    chk (bcn && (!s.locked || ((role == 1 || role == 2) && s.upPorts.isEmpty))) F.POS_CTL_SRC,
    chk (role == 0 && !s.locked && bcn) F.TMB_STS_LOCK ]

/-- The checks of lanes and the nozzle map (R170, R198, R205, R210, R215). In a folio pair R272 takes the place of R170. [DEDUCED, log 17] -/
def State.checksLane (s : State) : List (Option Nat) :=
  let cls (t : Nat) : Bool :=
    !(decide (s.g (F.NZH_CLSA_SHORTMAX t) < s.g (F.NZH_CLSB_WEAKLO t)) && decide (s.g (F.NZH_CLSB_WEAKLO t) ≤ s.g (F.NZH_CLSB_WEAKHI t))
      && decide (s.g (F.NZH_CLSB_WEAKHI t) < s.g (F.NZH_CLSA_OPENMIN t)))
  [ if s.member then none else chkFirst s.mods (fun m => !s.laneUp m) F.THL_LANESTS_STAGE,
    chkFirst (List.range 32) (fun m => s.gb (F.THL_CTL_EN m) && s.g (F.THL_CFG_RATE m) == 3) F.THL_CFG_RATE,
    chkFirst (List.range 32) (fun m => decide (s.g (F.THL_RTCFG_TACK m) < 210)) F.THL_RTCFG_TACK,
    chk (decide (s.g F.NZH_MAPCFG_ADLY < s.g F.GTH_CFG_LEAD + 4)) F.NZH_MAPCFG_ADLY,
    chkFirst s.typesUsed cls F.NZH_CLSA_SHORTMAX,
    chkFirst (List.range 16) (fun x => decide (16 < s.g (F.GTH_SUBWT_WM2 x) + s.g (F.GTH_SUBWT_WM1 x) + s.g (F.GTH_SUBWT_WP1 x) + s.g (F.GTH_SUBWT_WP2 x)))
      F.GTH_SUBWT_WM2 ]

/-- The checks of inspection, calibration and the folio block (R222, R233, R247, R265, R287). -/
def State.checksImage (s : State) : List (Option Nat) :=
  let on := (List.range 8).filter fun n => s.gb (F.INS_CTX_CFG_EN n)
  let same (n : Nat) : Bool := on.any fun o => o != n && s.g (F.INS_CTX_CFG_PORT o) == s.g (F.INS_CTX_CFG_PORT n) && s.g (F.INS_CTX_CFG_VC o) == s.g (F.INS_CTX_CFG_VC n)
  let w (n : Nat) : Nat := s.g (F.INS_CTX_SIZE_WIDTH n)
  let h (n : Nat) : Nat := s.g (F.INS_CTX_SIZE_HEIGHT n)
  let cal := s.gb F.CAL_CTL_EN
  let intlg := s.g F.CAL_PUBCFG_INTLG
  [ chkFirst on same F.INS_CTX_CFG_EN,
    chkFirst on (fun n => !s.gb (F.INS_PORTCFG_EN (s.g (F.INS_CTX_CFG_PORT n)))) F.INS_CTX_CFG_EN,
    chkFirst on (fun n => w n % 4 != 0 || decide (w n < 64) || decide (7168 < w n)) F.INS_CTX_SIZE_WIDTH,
    chkFirst on (fun n => h n == 0) F.INS_CTX_SIZE_WIDTH,
    chkFirst on (fun n => decide (2 * s.g F.POS_PITCH_COUNTS < s.g (F.INS_CTX_RPITCH_VAL n))) F.INS_CTX_RPITCH_VAL,
    chk (decide (s.g F.INS_COLCFG_NHALF < 8) || decide (15 < s.g F.INS_COLCFG_NHALF)) F.INS_COLCFG_NHALF,
    chkFirst (List.range 4) (fun k => s.g (F.INS_TRIG_CFG_EVERY k) == 0 && on.any fun n => s.g (F.INS_CTX_CFG_TSEL n) == k) F.INS_TRIG_CFG_EVERY,
    chk (cal && (s.g F.CAL_CFG_GAIN == 0 || s.g F.CAL_CFG_ITER == 0 || s.g F.CAL_CFG_MAXSTEP == 0 || decide (64 < s.g F.CAL_CFG_MAXSTEP))) F.CAL_CFG_GAIN,
    chk (cal && decide (s.g F.CAL_CFG_NMINLG < 6)) F.CAL_CFG_NMINLG,
    chk (cal && decide (s.g F.CAL_STRKCFG_DEADNLG < 6)) F.CAL_STRKCFG_DEADNLG,
    chk (cal && decide (30 < s.g F.INS_COLCFG_BLUR)) F.INS_COLCFG_BLUR,
    chk (cal && decide (1 ≤ intlg) && decide (intlg ≤ 15)) F.CAL_PUBCFG_INTLG,
    chk (s.member && decide (s.g F.FOL_CFG_HDLY < s.g F.GTH_CFG_LEAD + 2)) F.FOL_CFG_HDLY,
    chk (s.member && s.g F.FOL_CFG_PTMO == 0) F.FOL_CFG_PTMO ]

/-- The checks of DRAM, messaging, Spine and errors (R321, R323, R380, R428, R433). -/
def State.checksSystem (s : State) : List (Option Nat) :=
  let size (n : Nat) : Nat := s.g (F.MBX_RG_CFG_SIZELG n)
  [ chk (!s.gb F.MEM_STS_FILLED) F.MEM_STS_FILLED,
    chk (s.gb F.MEM_TEST_BYPASS) F.MEM_TEST_BYPASS,
    chk (decide (s.g F.MEM_ARB_WHI ≤ s.g F.MEM_ARB_WLO)) F.MEM_ARB_WHI,
    chk (s.g F.MEM_RFCFG_POLL == 0) F.MEM_RFCFG_POLL,
    chkFirst (List.range 128) (fun n => !s.ringOff n && (decide (size n < 4) || decide (16 < size n))) F.MBX_RG_CFG_EN,
    chk (s.g F.QRE_RSCFG_MAX != 0 && s.ringOff (s.g F.QRE_RSCFG_RING)) F.QRE_RSCFG_RING,
    chk (s.ringOff (s.g F.NZH_RPTCFG_RING)) F.NZH_RPTCFG_RING,
    chk (s.gb F.CAL_CTL_EN && s.ringOff (s.g F.CAL_CTL_RING)) F.CAL_CTL_RING,
    chk (s.gb F.MBX_ATTNCFG_RINGEN && s.ringOff (s.g F.MBX_ATTNCFG_RING)) F.MBX_ATTNCFG_RING,
    chk ((List.range 4).any fun p => s.gb (F.SPN_PCTL_EN p) && decide (s.g F.SPN_CFG_CTO * 1000 < 10 * s.g (F.SPN_LINKCFG_RTMO p))) F.SPN_CFG_CTO,
    chk (s.gb F.ERR_CFG_RINGEN && s.ringOff (s.g F.ERR_CFG_RING)) F.ERR_CFG_RING ]

/-- The addresses that the failing checks name. [DEDUCED, log 16] -/
def State.runFails (s : State) : List Nat :=
  (s.checksGather ++ s.checksFire ++ s.checksPos ++ s.checksLane ++ s.checksImage ++ s.checksSystem).filterMap id

/-- The registers report the checks that an attempt failed (R440). -/
def State.refReport (s : State) (fails : List Nat) : State :=
  ((s.p F.GLB_REFUSE_VALID 1).p F.GLB_REFUSE_FAILS (satN 65535 fails.length)).p F.GLB_REFADDR_ADDR (minD 0 fails)

/-- A refused attempt (R440): the registers, the attention reason, the supervisor event. [DEDUCED, log 16] -/
def State.refuse (s : State) (fails : List Nat) : State :=
  (((s.refReport fails).waitsEnd .run false).latch Att.RUNREF).raise SEv.RUN_REFUSED 0

/-- An attempt's checks (R440): whether all passed. [DEDUCED, log 15] -/
def State.attempt (s : State) : Bool × State :=
  let s := s.derive
  let fails := s.runFails
  let s := (s.setReg F.GLB_REFUSE_VALID.addr 0).setReg F.GLB_REFADDR_ADDR.addr 0
  if fails.isEmpty then (true, s) else (false, s.refuse fails)

/-! ## Entry to RUN and to STANDBY -/

/-- Set the device state; a folio member tells its peer. -/
def State.devTo (s : State) (d : Dev) : State := if s.member then s.folDev d else s.setDev d

/-- The line engine and the folio block start at module-line k (R34, R106, R174, R277); a standby that is still suspect wants its self-check anew. [DEDUCED, log 35] -/
def State.runInit (s : State) (k : Nat) : State :=
  ((s.chkStop.linesRun k).p F.FOL_STS_SUSPCNT 0).modFol fun x =>
    { x with askChk := s.standby && s.gb F.FOL_STS_SUSPECT, kh := none, khStop := false, stopDue := false, runReq := false, missNs := none, own := [], peer := [], taint := [], agreed := [], lateMap := 0 }

/-- Entry to RUN from STANDBY at module-line k (R303: the ordering mode is read). -/
def State.enterRun (s : State) (k : Nat) : State :=
  let s := (s.runInit k).modFol fun x => { x with hold := false }
  let s := { s with mem := { s.mem with ordMode := s.g F.MEM_ORD_MODE_MODE } }
  s.lanesRun.devTo .run

/-- Every boundary class copies its pending shadows (R16). -/
def State.copyAll (s : State) : State := [Cls.bLine, Cls.bQuire, Cls.bSig, Cls.bSwath].foldl State.copyB s

/-- Entry to STANDBY from RUN, HOLD or FAULT (R16, R412). -/
def State.enterStandby (s : State) : State :=
  let s := s.linesStop.chkStop
  let s := s.fol.regs.foldl State.applyReg (s.modFol fun x => { x with regs := [], kh := none, khStop := false, stopDue := false, hold := false, revert := none, grant := none })
  (s.emptyQuires.copyAll).devTo .standby

/-- Entry to RETIRED (R285, R410). -/
def State.enterRetired (s : State) : State := if s.member then s.folRetire else (s.setDev .retired).fenAllLow

/-! ## Holds (R271, R410) -/

/-- K_h for a change that the acting primary makes now. -/
def State.khNow (s : State) : Nat := (s.gth.k + s.g F.FOL_CFG_HDLY + 2 ^ 32 - 1) % 2 ^ 32

/-- RUN to HOLD or back: the acting primary names K_h; a device alone changes at once. -/
def State.holdTo (s : State) (h : Bool) : State :=
  let s := if s.member then s.modFol fun x => { x with kh := some (s.khNow, h), khStop := false } else s
  if h then s.devTo .hold else s.calRun.lanesCmds.devTo .run

/-- RUN, HOLD or FAULT to STANDBY: in a pair with a signature in progress at K_h, else at once (R410). [DEDUCED, log 32] -/
def State.standbyTo (s : State) : State :=
  if s.member && s.running && !s.endpaper then (s.modFol fun x => { x with kh := some (s.khNow, true), khStop := true }).folState 0
  else s.enterStandby

/-- A change to STANDBY that has come due (R410). [DEDUCED, log 32] -/
def State.stopNow (s : State) : State := if s.fol.stopDue && s.running then s.enterStandby else s

end Sys2Proof.Machine
end

