-- ==== Sys2Proof/Machine/FolioRun.lean ====
section
/-!
DEFINITION. The folio pair, second part: forwarded writes, the RUN handshake, FOL_STATE, joins, reverts and swaps (R205, R267 to R272, R281 to R284, R287).
-/

namespace Sys2Proof.Machine

/-! ## Forwarded and staged writes (R205, R270) -/

/-- A register or table write staged for the boundary before module-line `e`; outside RUN and HOLD it takes effect at once. -/
def State.regStage (s : State) (w : RegW) : State :=
  if s.running then s.modFol fun x => { x with regs := x.regs ++ [w] }
  else
    let s := s.applyReg w
    if w.addr < 0x400000 then [Cls.bLine, Cls.bQuire, Cls.bSig, Cls.bSwath].foldl (fun s c => s.copyAt c w.addr) s else s

/-- The acting primary stages a write of a register of R270 and forwards it. -/
def State.regForward (s : State) (a mask v : Nat) : State :=
  let e := (s.kNow + s.g F.NZH_MAPCFG_ADLY) % 65536
  State.folFwd 1 [fwdBytes e 2 1 a mask v] (s.regStage { e, addr := a, mask, val := v })

/-- Whether this member waits in STANDBY for a join to be granted (R282). -/
def State.joining (s : State) : Bool := s.standby && s.fol.joinSig.isSome && s.dev == .standby

/-- A joining member enters RUN at K_j (R282): what it was forwarded takes effect in the order of its E, as far as that has come, and the rest is staged. -/
def State.joinApply (s : State) (kj : Nat) : State :=
  let at' (w : MapW) : Int := sext 16 ((w.e.getD 0 + 65536 - kj % 65536) % 65536)
  (s.fol.joinW.foldl (fun ws w => insertBy (fun x => (at' x + 32768).toNat) w ws) []).foldl
    (fun s w => if at' w ≤ 0 then s.applyMap w else s.stageFit w) (s.modFol fun x => { x with joinW := [] })

/-- No join is to come any more: what was forwarded for it takes effect at once (R204). -/
def State.joinFlush (s : State) : State :=
  if s.running || s.joining || (s.fol.joinW.isEmpty && s.fol.regs.isEmpty) then s
  else
    let s := s.fol.joinW.foldl (fun s w => s.applyMap { w with e := none }) (s.modFol fun x => { x with joinW := [] })
    s.fol.regs.foldl State.regStage (s.modFol fun x => { x with regs := [] })

/-- One forwarded write at the acting standby. A write past its boundary is recorded, and the modules it concerns have a cause (R205, R273);
one that it holds staged already, from before a rejoin, is the same write. [DEDUCED, log 33] -/
def State.fwdIn (s : State) (b : Bytes) : State :=
  let e := leAt b 0 2
  let kind := byteAt b 2
  let src := byteAt b 3
  let addr := leAt b 4 4
  let mask := leAt b 8 4
  let val := leAt b 12 4
  if kind = 1 then
    let i := (addr - 0x400000) / 4 % 131072
    let m := i / 4096
    let q := i % 4096
    let own := s.nzh.own.find? fun o => o.m == m && o.q == q && nzState o.val == nzState val
    let cond := if mask ≠ stateMask ∨ src = 1 then 0 else if src = 2 then (if own.isSome then 1 else 3) else 2
    let w : MapW := { m, q, e := some e, src, mask, val, cond, from' := (own.map (·.from')).getD 0 }
    if s.joining then s.modFol fun x => { x with joinW := x.joinW ++ [w] }
    else if !s.running then s.applyMap { w with e := none }
    else if (s.stagedOf m).contains w then s
    else
      let late := s.passed e
      let s := s.stageFit w
      if late then s.record { c := E.NZH_MAPLATE, inst := m, ctxType := 2, ctx := ctxLine m (q / 1024) (q % 1024) e } else s
  else
    let late := s.running && s.passed e
    let s := if late then s.modFol fun x => { x with lateMap := 0xFFFFFFFF } else s
    let w : RegW := { e, addr, mask, val }
    if s.joining then s.modFol fun x => { x with regs := x.regs ++ [w] }
    else if s.running && s.fol.regs.contains w then s
    else s.regStage w

/-- The forwarded writes of a frame. -/
def State.fwdAll : Nat → Bytes → State → State
  | 0, _, s => s
  | n + 1, b, s => if b.length < 16 then s else State.fwdAll n (b.drop 16) (s.fwdIn (b.take 16))

/-- A FOL_FWD arrives: only the acting standby takes it. [DESIGN CHOICE, log 30; DEDUCED, log 33, 36] -/
def State.folFwdIn (s : State) (b : Bytes) : State :=
  if s.standby then State.fwdAll 16 b s else s

/-! ## The handshake (R272) -/

/-- Exchange the configuration digest with the peer. [DESIGN CHOICE, log 38] -/
def State.shake (s : State) : State := s.digOut 1 0 (s.cfgDigest true)

/-- The RUN request of the home primary: every check, then the digests. An attempt that fails local checks is refused at once, and the digests and lanes, once exchanged, complete its
report (R440). -/
def State.runAsk (s : State) : Bool × State :=
  let (ok, s) := s.attempt
  let fails := if ok then [] else s.runFails
  (ok, (s.modFol fun x => { x with runReq := true, runFails := fails, digs := x.digs.filter (·.1 != 1), peerDigs := x.peerDigs.filter (·.1 != 1) }).shake)

/-- Modules with an enabled context and just one of the pair's two lanes ACTIVE (R272). -/
def State.oneLane (s : State) : List Nat := s.mods.filter fun m => s.laneUp m != bitOf s.fol.peerLanes m

/-- Modules with an enabled context and neither lane ACTIVE (R272). -/
def State.noLane (s : State) : List Nat := s.mods.filter fun m => !s.laneUp m && !bitOf s.fol.peerLanes m

/-- The check that stops an attempt on a module with no lane ACTIVE, or with REQBOTH on one with a single lane (R272): the first one's register. [DEDUCED, log 16] -/
def State.laneStops (s : State) : List Nat :=
  let ms := if s.gb F.FOL_CFG_REQBOTH then s.mods.filter fun m => !(s.laneUp m && bitOf s.fol.peerLanes m) else s.noLane
  (ms.head?.map fun m => (F.THL_LANESTS_STAGE m).addr).toList

/-- The digests of a handshake have met (R272): the checks on them and on the lanes end the attempt. At the primary they join those that it failed at first; a refusal of the standby
names its own too (R440). [DEDUCED, log 16, 17] -/
def State.shakeDone (s : State) (a b : Nat) : State :=
  let s := if s.oneLane.isEmpty then s else s.latch Att.FOLDEGR
  let more := (if a = b then [] else [F.FOL_CFGDIG_CRC.addr]) ++ s.laneStops
  let s := if a = b then s else (s.record { c := E.FOL_CFG, ctxType := 1, handles := true }).latch Att.FOLCFG
  let close (s : State) : State := s.modFol fun x => { x with runReq := false, runFails := [] }
  if !more.isEmpty then
    let s := if s.primary then s else s.derive
    let first := if s.primary then s.fol.runFails else s.runFails
    if s.primary && !first.isEmpty then close (s.refReport (first ++ more)) else close (s.refuse (first ++ more))
  else if s.primary then (if s.fol.runFails.isEmpty then s.enterRun 0 else close s)
  else s.modFol fun x => { x with runReq := true }

/-- A FOL_DIGEST arrives (R272, R276). In STANDBY, the acting standby answers the configuration digest. [DESIGN CHOICE, log 30] -/
def State.folDigestIn (s : State) (b : Bytes) : State :=
  let check := byteAt b 0
  let k := leAt b 4 4
  let v := leAt b 8 4
  if check = 1 then
    if s.dev ≠ .standby then s
    else if s.standby then
      let s := (s.p F.FOL_PEERDIG_CRC v).shake
      (s.modFol fun x => { x with digs := x.digs.filter (·.1 != 1) }).shakeDone (s.cfgDigest true) v
    else if s.fol.runReq then
      match s.fol.digs.find? fun d => d.1 == 1 with
      | some d => ((s.p F.FOL_PEERDIG_CRC v).modFol fun x => { x with digs := x.digs.filter (·.1 != 1) }).shakeDone d.2.2 v
      | none => s
    else s
  else s.digIn check k v

/-! ## FOL_STATE (R267, R271, R276, R279) -/

/-- The standby follows what the acting primary's FOL_STATE says: K_h, STANDBY, and RUN after a handshake. [DEDUCED, log 32] -/
def State.followState (s : State) (dev flags kh : Nat) : State :=
  if bitOf flags 0 && s.running then
    s.modFol fun x => { x with kh := some (kh, bitOf flags 1), khStop := bitOf flags 4 }
  else if dev = 5 ∧ s.running ∧ s.fol.kh.isNone then s.enterStandby
  else if dev = 6 ∧ s.dev = .standby ∧ s.fol.runReq then
    let (ok, s) := s.attempt
    if ok then s.enterRun 0 else s.modFol fun x => { x with runReq := false }
  else s

/-- A FOL_STATE arrives. [DESIGN CHOICE, log 30; DEDUCED, log 36] -/
def State.folStateIn (s : State) (b : Bytes) : State :=
  let dev := byteAt b 0
  let flags := byteAt b 3
  let req := byteAt b 4
  let s := s.modFol fun x => { x with peerDev := dev, peerStandby := bitOf (byteAt b 1) 0, peerSusp := bitOf (byteAt b 2) 0, peerLanes := leAt b 16 4 }
  let s := if s.standby then s.followState dev flags (leAt b 8 4) else s
  let s := if bitOf flags 2 && s.standby then s.takeKc (leAt b 12 4) else s
  let s := if bitOf flags 3 && s.primary && s.running then s.nameKc else s
  let s := if req ≠ 0 ∧ s.primary then s.raise SEv.FOLIO_HOLDREQ req else s
  if dev = 8 ∨ dev = 10 then s.peerGone else s

/-! ## Joins, reverts and swaps (R281 to R284) -/

/-- A joining member has its timebase LOCK set and its lanes ACTIVE (R281). -/
def State.mayJoin (s : State) : Bool := s.locked && s.mods.all s.laneUp

/-- This member asks to join at signature sj, in the acting standby role. [DESIGN CHOICE, log 30; DEDUCED, log 34] -/
def State.joinAsk (s : State) (sj : Nat) : State :=
  ((s.p F.FOL_STS_ACTROLE 1).modFol fun x => { x with joinSig := some sj }).folSend FT.FOL_JOIN (leBytes 1 1 ++ leBytes 4 sj)

/-- A join request at the acting primary (R282): the copy begins at its next line, and every write that is staged is forwarded. A self-check cut short is given up. -/
def State.joinAsked (s : State) (sj : Nat) : State :=
  if !s.primary || !s.running then s
  else
    let sj := if sigDiff sj s.pos.nextSig < 0 then s.pos.nextSig else sj
    let maps := (List.range 32).flatMap fun m => (s.stagedOf m).map fun w => fwdBytes (w.e.getD 0) 1 w.src (nzAddr w.m w.q) w.mask w.val
    let regs := s.fol.regs.map fun w => fwdBytes w.e (if w.addr < 0x400000 then 2 else 3) 1 w.addr w.mask w.val
    (State.folFwd 4096 (maps ++ regs) s.chkStop).modFol fun x => { x with grant := some (sj, s.gth.k, 0) }

/-- A join is granted at K_j (R282, R283). [DEDUCED, log 34] -/
def State.joined (s : State) (kj : Nat) (bands : Bytes) : State :=
  if s.fol.joinSig.isNone || !s.standby then s
  else
    let start : State → State := fun s =>
      let s := s.modFol fun x => { x with joinSig := none, joinEnd := kj + 4356 }
      let s := (List.range 32).foldl (fun s m => s.p (F.FIR_TEMP_BAND m) (byteAt bands m % 16)) s
      let s := (s.p F.FOL_STS_JOINING 1).taintAll (kj + 4356)
      match s.fol.lastStart with
      | some (sig, ps, rev) => s.startGrid sig ps (ps + (if rev then -1 else 1) * (s.g F.POS_SIGCFG_DLY : Int)) rev
      | none => s
    if s.running then start ((s.linesEnd.runInit kj).lanesRun)
    else if s.dev = .standby then
      let (ok, s) := s.attempt
      if !ok || !s.mayJoin then s.modFol fun x => { x with joinSig := none }
      else
        let s := (s.enterRun kj).joinApply kj
        start (if s.fol.peerDev = 7 then (s.modFol fun x => { x with hold := true }).devTo .hold else s)
    else s

/-- A FOL_JOIN arrives: a request, a grant or a revert. [DESIGN CHOICE, log 30; DEDUCED, log 34] -/
def State.folJoinIn (s : State) (b : Bytes) : State :=
  let kind := byteAt b 0
  if kind = 1 then s.joinAsked (leAt b 1 4)
  else if kind = 2 then s.joined (leAt b 1 4) (b.drop 5)
  else if kind = 3 ∧ s.running then s.moveLanes (leAt b 1 4) (leAt b 5 4) (bitOf (byteAt b 9) 0)
  else s

/-- The join span ends (R283). [DEDUCED, log 34] -/
def State.joinSpanEnd (s : State) : State :=
  if s.gb F.FOL_STS_JOINING && decide (s.fol.joinEnd ≤ s.gth.k) then (s.p F.FOL_STS_JOINING 0).inc F.FOL_CNT_JOIN_COUNT else s

/-! ## Commands and injections (R276, R281, R284, R287) -/

/-- FOL_CMD.SELFCHK: in RUN only. -/
def State.selfchkCmd (s : State) (src : Src) : State :=
  if s.member && s.dev == .run then s.startChk else s.recReg E.FOL_CMD F.FOL_CMD_SELFCHK.addr src

/-- FOL_CMD.JOIN: in STANDBY only, by a member that may join. [DEDUCED, log 34] -/
def State.joinCmd (s : State) (src : Src) : State :=
  if s.member && s.dev == .standby && s.mayJoin then s.joinAsk (s.g F.FOL_JOINSIG_NUM) else s.recReg E.FOL_CMD F.FOL_CMD_JOIN.addr src

/-- FOL_CMD.SWAP: the acting primary in RUN only; every module moves at the next signature. -/
def State.swapCmd (s : State) (src : Src) : State :=
  if s.primary && s.dev == .run then s.modFol fun x => { x with revert := some (none, sumL (s.mods.map fun m => 2 ^ m), true) }
  else s.recReg E.FOL_CMD F.FOL_CMD_SWAP.addr src

/-- A write of FOL_CMD, its commands in bit order. -/
def State.folCmd (s : State) (src : Src) (w : Nat) : State :=
  let s := if bitOf w 0 then s.swapCmd src else s
  let s := if bitOf w 1 then s.joinCmd src else s
  if bitOf w 2 then s.selfchkCmd src else s

/-- A write of FOL_INJ arms its injections. -/
def State.folInj (s : State) (w : Nat) : State :=
  s.modFol fun x => { x with injDig := x.injDig || bitOf w 0, injDrop := x.injDrop || bitOf w 1, injCfg := x.injCfg || bitOf w 2 }

end Sys2Proof.Machine
end

