-- ==== Sys2Proof/Machine/DramOps.lean ====
section
/-!
DEFINITION. What happens to the DRAM controller (R299 to R322): requests entering and leaving the queues, refresh, retraining, the patrol, the MEM commands and
injections; and what the SRAM scrubber finds (R25, R430).
-/

namespace Sys2Proof.Machine

/-- A master's request for part of one codeword enters its queue, or is held while the queue is full (R29, R30). -/
def State.askPiece (s : State) (i : Nat) (r : MReq) : State :=
  if r.wr then s.takeWrite i r else if s.hasRoom i r && !s.queued i r then s.takeRead i r else s.holdReq r

/-- A master's request, codeword by codeword; what finds its queue full is held by the master (R29, R30). [DEDUCED, log 39; DESIGN CHOICE, log 115] -/
def State.dramAsk (s : State) (master a : Nat) (wr : Bool) (b : Bytes) (len node : Nat) : State :=
  let n := if wr then b.length else len
  (cwPieces a n).foldl (fun s (x, o, l) =>
    let i := cfgScOf s.mem.cfg x
    if !s.memOk x then (if s.memRetired x then s.inc F.MEM_CNT_RETRD_COUNT else s).emit (.dram master x none)
    else
      let (img, mask) := imageOf (x % 64) (slice b o l)
      let r : MReq := { master, a := x, wr, data := if wr then img else [], mask := if wr then mask else [], len := l, cls := s.clsOf master x wr, node,
                        seq := s.mem.seq, ns := s.ns, rmw := false, poison := false, wb := false }
      if wr && s.gb F.MEM_TEST_BYPASS && !mask.all id then s.emit (.dram master x none) else s.askPiece i r) s

/-- A queued write issues (R306). -/
def State.writeIssue (s : State) (i : Nat) : State :=
  let s := s.drainUpdate i
  match s.nextWrite i with
  | some r => (s.serveWrite i r).drainUpdate i
  | none => s

/-- Read data returns (R295, R312 to R314): to its master, or into the queued write whose merge it serves. -/
def State.readDone (s : State) (i : Nat) (errs errs2 : List (Nat × Nat)) : State :=
  let s := s.drainUpdate i
  match s.nextRead i with
  | some r => (s.serveRead i r errs errs2).2
  | none => s

/-- ALERT_n (R318): the writes of the window are re-issued as they were; the alert counts as a retry. -/
def State.wcrcAlert (s : State) (i : Nat) : State := (s.inc F.MEM_CNT_WCRC_COUNT).scRetry i

/-! ## Refresh (R300 to R302) -/

/-- The postponable refreshes (R323): 0 means 1, and values above 4 act as 4. -/
def State.postMax (s : State) : Nat := Nat.min 4 (Nat.max 1 (s.g F.MEM_RFCFG_POSTMAX))

/-- Set a rank's owed refreshes; at POSTMAX a forced drain precharges the rank and issues them all (R301). -/
def State.setOwed (s : State) (i k n : Nat) : State :=
  if s.postMax ≤ n then
    (s.modSc i fun q => { q.precharge k with owed := q.owed.set k 0 }).inc F.MEM_CNT_REFFORCE_COUNT
  else s.modSc i fun q => { q with owed := q.owed.set k n }

/-- A rank that the population has. -/
def State.hasRank (s : State) (k : Nat) : Bool := decide (k ≤ bitsOf s.mem.cfg 8 8)

/-- A refresh tick (R300). -/
def State.refTick (s : State) (i k : Nat) : State := if s.scLive i && s.hasRank k then s.setOwed i k (s.owed i k + 1) else s

/-- An MR4 poll (R302): rate 0 is 1x, 1 is 2x, 2 above it. [DEDUCED, log 43; DESIGN CHOICE, log 47] -/
def State.mr4 (s : State) (i k rate : Nat) : State :=
  if !(s.scLive i && s.hasRank k) then s
  else
    let inj := s.injHit 0x15 i
    let s := if inj then s.injUse else s
    let f := if rate = 2 ∨ inj then 4 else if rate = 1 ∨ s.gb F.MEM_RFCFG_FORCE2X then 2 else 1
    let old := (s.sc i).rate.getD k 1
    let q := s.sc i
    if old < f then
      let s := (s.modSc i fun q => { q with rate := q.rate.set k f, lower := q.lower.set k false }).setOwed i k (s.owed i k * (f / old))
      if f = 4 then
        (s.record { c := E.MEM_DRAMHOT, inst := i, ctxType := 4, ctx := ctxDram 0 0 i 0xFF, stays := true, inj, handles := true }).raise SEv.MEM_HOT i
      else s
    else if f < old then
      if q.lower.getD k false then
        s.modSc i fun q => { q with rate := q.rate.set k f, lower := q.lower.set k false, owed := q.owed.set k (cdiv (q.owed.getD k 0) (old / f)) }
      else s.modSc i fun q => { q with lower := q.lower.set k true }
    else s.modSc i fun q => { q with lower := q.lower.set k false }

/-- Whether a retraining step that is due now waits (R299): an URGENT request is queued or a rank owes 2 refreshes, and it has not been deferred by INT / 2 yet. -/
def State.retrainWaits (s : State) (i : Nat) : Bool :=
  (s.urgent i none || decide (2 ≤ s.owed i 0) || decide (2 ≤ s.owed i 1))
    && (match (s.sc i).ptDue with | some t => decide (s.ns < t + 500000 * of16 (s.g F.MEM_PTCFG_INT)) | none => true)

/-- A periodic retraining step, or its deferral (R299). A forced drain is over within its own command, so none holds a step back. -/
def State.retrainStep (s : State) (i moved : Nat) (readErr : Bool) : State :=
  if !s.gb F.MEM_CTL_PTEN || (s.sc i).st != .active then s
  else if s.retrainWaits i then s.modSc i fun q => { q with ptDue := some (q.ptDue.getD s.ns) }
  else
    let wr := (s.sc i).ptWrite
    let s := (s.modSc i fun q => { q with ptWrite := !q.ptWrite, ptDue := none }).inc F.MEM_CNT_PAUSE_COUNT
    let inj := s.injHit 0x16 i
    let s := if inj then s.injUse else s
    if inj || (if wr then decide (s.g F.MEM_PTCFG_DRIFT < moved) else readErr) then
      (s.record { c := E.MEM_DRIFT, inst := i, ctxType := 4, ctx := ctxDram 0 0 i 0xFF, inj, handles := true }).scRetry i
    else s

/-! ## The patrol (R317) -/

/-- Whether a subchannel's patrol is at work (R317, R321). -/
def State.patrolOn (s : State) (i : Nat) : Bool :=
  (s.sc i).st == .active && (s.gb F.MEM_CTL_PATROL || (s.sc i).passing) && !s.gb F.MEM_TEST_BYPASS && s.scCws != 0

/-- The patrol's next read enters the read queue, unless one of its reads waits there (R304, R317); one that matches a queued write is answered from the queue (R309). [DEDUCED, log 44] -/
def State.patrolAsk (s : State) (i : Nat) : State :=
  let q := s.sc i
  let a := s.scAddr i q.patrol
  let r := s.ownReq 7 0 a 64 false [] []
  if !s.patrolOn i || (q.rq.any fun x => x.master == 7 && !x.rmw) || !s.hasRoom i r || s.queued i r then s
  else
    let n := (q.patrol + 1) % s.scCws
    (s.modSc i fun q => { q with patrol := n, passing := q.passing && n != 0, patrolAt := if n = 0 then s.ns else q.patrolAt }).takeRead i r

/-- A patrol read: it waits in the queue while other requests are served first, and is served where it is the next (R305, R308). [DEDUCED, log 44] -/
def State.patrolRd (s : State) (i : Nat) (errs errs2 : List (Nat × Nat)) : State :=
  let s := (s.patrolAsk i).drainUpdate i
  match (s.nextRead i).filter fun r => r.master == 7 && !r.rmw with
  | some r => (s.serveRead i r errs errs2).2
  | none => s

/-! ## Commands, bypass and injections (R317, R320 to R322) -/

/-- MEM_TRAINFAIL for a reserved code in MEM_CFG (R289); the spec gives it no subchannel, and the model names subchannel 0 (DESIGN CHOICE, log 41). [DESIGN CHOICE, log 41] -/
def State.recReserved (s : State) : State := s.record { c := E.MEM_TRAINFAIL, inst := 0, ctxType := 4, ctx := ctxDram 0 8 0 0xFF, handles := true }

/-- MEM_CMD.RESTORE in STANDBY (R320): the named subchannels start FILL and TRAIN anew; with a reserved code in MEM_CFG they are left retired (R289). [DESIGN CHOICE, log 41; DEDUCED, log 45] -/
def State.restoreCmd (s : State) (src : Src) (scs : Nat) : State :=
  if s.dev ≠ .standby then s.recReg E.MEM_CMD F.MEM_CMD_RESTORE.addr src
  else if !cfgLegal (s.reg F.MEM_CFG_SCN.addr) then
    let s := ((List.range (cfgSubs s.mem.cfg)).foldl (fun s i =>
      if bitOf scs i && (s.sc i).st != .retired then ((s.modSc i fun q => { q with st := .retired }).failQueues i).raise SEv.MEM_RETIRED i else s) s).recReserved
    (if s.someSc then s else s.goFault).memStatus
  else
    ((List.range (cfgSubs s.mem.cfg)).foldl (fun s i =>
      if bitOf scs i then (s.failQueues i).modSc i fun q => { st := .init, injArm := q.injArm, injCrc := q.injCrc } else s) s).memStatus

/-- MEM_CMD.PASS: one pass over every active subchannel (R317). [DEDUCED, log 44] -/
def State.passCmd (s : State) : State :=
  (List.range 4).foldl (fun s i => if (s.sc i).st == .active then s.modSc i fun q => { q with passing := true, patrol := 0, patrolAt := s.ns } else s) s

/-- A write of MEM_CMD. -/
def State.memCmd (s : State) (src : Src) (w : Nat) : State :=
  let s := if bitsOf w F.MEM_CMD_RESTORE.hi F.MEM_CMD_RESTORE.lo ≠ 0 then s.restoreCmd src (bitsOf w F.MEM_CMD_RESTORE.hi F.MEM_CMD_RESTORE.lo) else s
  if bitsOf w F.MEM_CMD_PASS.hi F.MEM_CMD_PASS.lo ≠ 0 then s.passCmd else s

/-- A write of MEM_INJ arms what it names (R322). [DESIGN CHOICE, log 47] -/
def State.memInj (s : State) (w : Nat) : State :=
  let i := bitsOf w 28 27
  let s := if bitOf w 31 then s.modSc i fun q => { q with injArm := some w } else s
  if bitOf w 30 then s.modSc i fun q => { q with injCrc := true } else s

/-! ## On-chip SRAM (R25, R430) -/

/-- A poisoned word of the pipeline's line buffers, which stand behind the four FIFOs: the row that the pipeline works on, the latest of its frame, fails its payload CRC. [DESIGN CHOICE, log 22] -/
def State.pipePoison (s : State) : State :=
  match s.ins.proc with
  | none => s
  | some f =>
    if f.rows.isEmpty then s
    else (s.modIns fun x => { x with proc := some { f with crc := true, rows := f.rows.dropLast ++ [{ px := [], failed := true }] } }).inc F.INS_CNT_PCRC_COUNT

/-- A poisoned word of the camera line memory: the row fails its payload CRC (R226). Each port's FIFO holds 64 rows of 7,168 12-bit pixels. [DESIGN CHOICE, log 22] -/
def State.rowPoison (s : State) (w : Nat) : State :=
  if 4 * 86016 ≤ w then s.pipePoison else
  let p := w / 86016
  let n := w % 86016 / 1344
  let fs := s.ins.frames.filter fun f => s.g (F.INS_CTX_CFG_PORT f.ctx) == p
  let starts := fs.foldl (fun (acc : Nat × List (Nat × Nat)) f => (acc.1 + f.rows.length, acc.2 ++ [(f.order, acc.1)])) (0, [])
  match starts.2.find? fun x => decide (x.2 ≤ n) && decide (n < x.2 + ((fs.find? fun f => f.order == x.1).map fun f => f.rows.length).getD 0) with
  | none => s
  | some (o, b) =>
    (s.modIns fun x => { x with frames := x.frames.map fun f =>
      if f.order = o then { f with crc := true, rows := f.rows.set (n - b) { px := [], failed := true } } else f }).inc F.INS_CNT_PCRC_COUNT

/-- A poisoned word of a Spine replay buffer (16 KiB a port): the port enters DETECT, and its unacknowledged frames are frames with no route. [DESIGN CHOICE, log 22] -/
def State.replayPoison (s : State) (p : Nat) : State :=
  if (s.port p).stage = .disabled ∨ (s.port p).stage = .retired then s
  else ((s.port p).replay.foldl (fun s k => s.noRoute k.w false) s).toDetect p

/-- The SRAM scrubber reads a word (R25): a single-bit error is corrected and written back, an uncorrectable word is marked poisoned, with the array's consequence (R430).
Where an injection flipped the word, the flip says which of the two it is, and the record carries INJ. [DESIGN CHOICE, log 22] -/
def State.sramWord (s : State) (a w : Nat) (ue : Bool) : State :=
  let fl := s.sram.flips.find? fun k => k.1 == a && k.2.1 == w
  let inj := fl.isSome
  let ue := match fl with | some k => k.2.2 | none => ue
  let s := if inj then { s with sram := { s.sram with flips := s.sram.flips.filter fun k => !(k.1 == a && k.2.1 == w) } } else s
  if !ue then s.record { c := E.SRAM_CE, inst := a, ctxType := 9, ctx := w % 2 ^ 32, key := [w], stays := true, inj }
  else
    let s := s.record { c := if a = 10 then { E.SRAM_UE with sev := 3 } else E.SRAM_UE, inst := a, ctxType := 9, ctx := w % 2 ^ 32, key := [w], stays := true, inj, handles := true }
    let s := if s.sramBad a w then s else { s with sram := { s.sram with poisoned := s.sram.poisoned ++ [(a, w)] } }
    let fix (s : State) : State := s.sramClear fun k => k == (a, w)
    if a = 3 then s.p (F.NZH_MODSTS_DEAD (w / 2048)) (s.deadCount (w / 2048))
    else if a = 5 then fix (s.rowPoison w)
    else if a = 6 then fix (s.setStat (w / 3) 0)
    else if a = 9 then fix (s.replayPoison (w / 2048))
    else s

/-- The standby's scrub pass over every array ends (R276, R277): it has visited every word, and fails where one is poisoned. -/
def State.scrubDone (s : State) : State :=
  match s.fol.chk with
  | none => s
  | some _ =>
    if !s.standby then s
    else
      let bad := !s.sram.poisoned.isEmpty || s.sram.flips.any fun k => k.2.2
      let s := s.sram.flips.foldl (fun s k => s.sramWord k.1 k.2.1 k.2.2) s
      if bad then s.selfFail else (s.modFol fun x => { x with chk := x.chk.map fun c => { c with scrubbed := true } }).selfPass

end Sys2Proof.Machine
end

