-- ==== Sys2Proof/Machine/StartupOps.lean ====
section
/-!
DEFINITION. Reset and start-up (R382 to R394, R407 to R410, R414, R449, R459): RESET, flash discovery, the attempts, FILL, TRAIN, and direct flash access.
-/

namespace Sys2Proof.Machine

/-- Change the loader. -/
def State.modClo (s : State) (f : CloSt → CloSt) : State := { s with clo := f s.clo }

/-! ## RESET and OFF (R408, R410, R432, R449) -/

/-- Every block at its reset value. What is kept: the waiting commands, the output of this command, the free values drawn, the clock, the JTAG port, and a pending
injection 0x1B (R432), and a loss of REFCLK0 (R28). -/
def State.blank (s : State) : State :=
  { State.reset with
    pending := s.pending, out := s.out, free := s.free, ns := s.ns, jtag := s.jtag, hrbFell := s.hrbFell, fir := { clkLost := s.fir.clkLost },
    err := { inj := s.err.inj.filter fun j => j.id == 0x1B } }

/-- Entry to RESET (R410): every FEN output is released; a JTAG access in progress ends and DONE reads 0 (R441). -/
def State.enterReset (s : State) : State :=
  { s.blank with dev := .reset, prev := s.dev, clo := { step := .resetHeld }, jtag := { s.jtag with busy := none, done := false, missed := false } }

/-- PWRGOOD rises: OFF to RESET; a boundary-scan instruction that is current drives the outputs (R459). -/
def State.powerUp (s : State) : State := if s.dev = .off then s.enterReset.scanOut else s

/-- PWRGOOD falls: OFF, and every pending injection is cleared. -/
def State.powerDown (s : State) : State := { s.blank with dev := .off, prev := s.dev, clo := { step := .off }, err := {}, jtag := {} }

/-- RESET_N goes low, in every state but OFF; a boundary-scan instruction goes on driving the outputs (R459). [DEDUCED, log 81] -/
def State.resetLow (s : State) : State := if s.dev = .off then s else s.enterReset.scanOut

/-- RESET_N rises: FOLIO_ROLE is sampled and the PLLs begin to lock (R266, R408). A boundary-scan hold ends with the pulse (R459). [DEDUCED, log 81] -/
def State.resetHigh (s : State) (role : Bool) : State :=
  if s.dev = .reset ∧ s.clo.step = .resetHeld then
    ({ s with role, jtag := { s.jtag with hold := s.jtag.hold && (s.jtag.instr == 0 || s.jtag.instr == 4 || s.jtag.instr == 5) } }).modClo fun x => { x with step := .pll }
  else s

/-- Whether the boundary scan holds the logic in RESET (R459). -/
def State.scanHeld (s : State) : Bool := s.jtag.hold

/-- The PLLs lock. -/
def State.pllsLock (s : State) : State :=
  if s.dev = .reset ∧ s.clo.step = .pll ∧ !s.scanHeld then s.modClo fun x => { x with step := .fuse } else s

/-- The fuses have been read. -/
def State.fusesRead (s : State) (f : Fuses) : State :=
  if s.dev = .reset ∧ s.clo.step = .fuse ∧ !s.scanHeld then { s with fuses := f }.modClo fun x => { x with step := .sram } else s

/-- The home role stands in FOL_STS, and the acting role starts equal to it (R266). -/
def State.roles (s : State) : State := (s.p F.FOL_STS_HOMEROLE (b2n s.role)).p F.FOL_STS_ACTROLE (b2n s.role)

/-- Every SRAM array holds valid check bits: LOAD and flash discovery begin (R382, R408), every field at its reset value, whatever JTAG has written since the PLLs locked (R11). [DEDUCED, log 81] -/
def State.sramReady (s : State) : State :=
  if s.dev = .reset ∧ s.clo.step = .sram ∧ !s.scanHeld then
    let s := { s.blank with dev := s.dev, prev := s.prev, role := s.role, fuses := s.fuses, clo := s.clo }
    let s := ((s.modClo fun x => { x with step := .discovery, injBad := false }).setDev .load).roles
    (((s.emit (.flash { op := 0xAB })).emit (.flash { op := 0x66 })).emit (.flash { op := 0x99 })).emit (.flash { op := 0x5A, addr := some 0, addrBytes := 3, dummy := 8, len := none })
  else s

/-! ## LOAD (R390 to R393) -/

/-- The context of a CLO record: flash byte offset, source the loader (R418). -/
def ctxClo (off : Nat) : Nat := ctxReg off .loader

/-- The flash address of a copy (R381). -/
def copyBase (backup : Bool) : Nat := if backup then 0x01000000 else 0

/-- A copy fails (R391): code and offset of its first failure, and the record. [DESIGN CHOICE, log 28; DEDUCED, log 80] -/
def State.copyBad (s : State) (backup : Bool) (e : CopyErr) (off : Nat) (inj : Bool) : State :=
  let s := ((s.p (F.CLO_ERR_CODE (b2n backup)) (copyCode e)).p (F.CLO_ERR_OFFSET (b2n backup)) off).modClo fun x => { x with injBad := x.injBad || inj }
  s.record { c := E.CLO_COPYBAD, inst := b2n backup, ctxType := 6, ctx := ctxClo (copyBase backup + off), key := [b2n backup], inj, handles := true }

/-- Each attempt begins with every block at its reset value, apart from the fuses, the FOLIO_ROLE sample, the CLO status registers and the error log (R390). [DEDUCED, log 80] -/
def State.attemptReset (s : State) : State :=
  let keep (a : Nat) : Bool := (decide (0x10000 ≤ a) && decide (a < 0x10040) && a != 0x10008) || (decide (0x1D0000 < a) && decide (a < 0x1E0000))
  { State.reset with
    pending := s.pending, out := s.out, free := s.free, ns := s.ns, jtag := s.jtag, hrbFell := s.hrbFell, fir := { clkLost := s.fir.clkLost },
    dev := s.dev, prev := s.prev, fuses := s.fuses, role := s.role, clo := s.clo, err := s.err, regs := s.regs.filter fun x => keep x.1 }.roles

/-- No attempt has succeeded (R393): the Spine ports alone come up, in TRAIN. [DEDUCED, log 81] -/
def State.noImage (s : State) : State :=
  let s := (s.attemptReset.modClo fun x => { x with step := .done, todo := [], topo := none, sck := 0 })
  let s := { s with err := { s.err with inj := s.err.inj.filter fun j => j.id != 0x1B } }
  let s := s.record { c := E.CLO_NOIMAGE, ctxType := 6, ctx := ctxClo 0, inj := s.clo.injBad, handles := true }
  let s := (List.range 4).foldl (fun s p => s.p (F.SPN_PCTL_EN p) 1) s
  let s := (s.p F.CLO_STS_RECOVERY 1).setDev .train
  (List.range 4).foldl State.toDetect s

/-- The header of a copy. -/
def State.hdr (s : State) (backup : Bool) : Option ImgHdr := if backup then s.clo.hdr1 else s.clo.hdr0

/-- The read command of an attempt (R382). -/
def State.readOp (s : State) (h : ImgHdr) : Nat := if h.quad then s.clo.quadOp.getD s.clo.rdOp else s.clo.rdOp

/-- The flash is ready for quad reads (R382): 4-byte mode where the quad command needs it, and quad enable, set before the first of them. -/
def State.quadReady (s : State) : State :=
  let s := if s.clo.quadOp == some 0x6B && !s.clo.mode4 then (s.modClo fun x => { x with mode4 := true }).emit (.flash { op := 0xB7 }) else s
  if s.clo.quadOn then s else (s.modClo fun x => { x with quadOn := true }).emit (.quadEnable s.clo.quadReq)

/-- A pass over a copy reads it whole, with the command, the lanes and the SCK of its header (R382, R390). -/
def State.readCopy (s : State) (c : Bool) (h : ImgHdr) : State :=
  let s := if h.quad && s.clo.quadOp.isSome then s.quadReady else s
  s.emit (.flash { op := s.readOp h, addr := some (copyBase c), dummy := 8, quad := h.quad && s.clo.quadOp.isSome, sck := h.sck, len := some h.len })

/-- The next attempt starts, or none is left (R390). -/
def State.nextAttempt (s : State) : State :=
  match s.clo.todo with
  | [] => s.noImage
  | c :: _ =>
    match s.hdr c with
    | none => s.noImage
    | some h =>
      let s := s.attemptReset.modClo fun x => { x with step := .verify, sck := h.sck }
      let s := s.p F.CLO_STS_ATTEMPTS (satN 2 (s.g F.CLO_STS_ATTEMPTS + 1))
      let s := s.p F.CLO_STS_QUAD (b2n (h.quad && s.clo.quadOp.isSome))
      s.readCopy c h

/-- Discovery ends (R382): whether the 4-byte table lists 0x0C and 0x6C, and the quad-enable requirement where the BFPT reports 1-1-4 fast read. [DEDUCED, log 80] -/
def State.discovered (s : State) (sfdpOk bfptOk addr4 read4 quad4 : Bool) (quad : Option Nat) : State :=
  if s.dev ≠ .load ∨ s.clo.step ≠ .discovery then s
  else if !(sfdpOk && bfptOk && addr4) then (((s.copyBad false .flash 0 false).copyBad true .flash 0 false).modClo fun x => { x with todo := [] }).noImage
  else
    let s := s.modClo fun x => { x with step := .headers, rdOp := if read4 then 0x0C else 0x0B, quadOp := quad.map fun _ => if quad4 then 0x6C else 0x6B,
                                        quadReq := quad.getD 0, quadOn := false, mode4 := !read4 }
    let s := if read4 then s else s.emit (.flash { op := 0xB7 })
    [false, true].foldl (fun s c => s.emit (.flash { op := s.clo.rdOp, addr := some (copyBase c), dummy := 8, len := some 64 })) s

/-- A header as read: usable, or the copy is invalid. -/
def State.takeHeader (s : State) (backup : Bool) (h : Bytes) : State :=
  match parseHeader h with
  | .inl off => s.copyBad backup .header off false
  | .inr x => s.modClo fun y => if backup then { y with hdr1 := some x } else { y with hdr0 := some x }

/-- Both headers have been read (R390): the later sequence number first, the primary when they are equal. [DEDUCED, log 80] -/
def State.headersRead (s : State) (h0 h1 : Bytes) : State :=
  if s.dev ≠ .load ∨ s.clo.step ≠ .headers then s
  else
    let s := (s.takeHeader false h0).takeHeader true h1
    let todo : List Bool := match s.clo.hdr0, s.clo.hdr1 with
      | some a, some b => if 0 < sext 32 (b.seq + 2 ^ 32 - a.seq) then [true, false] else [false, true]
      | some _, none => [false]
      | none, some _ => [true]
      | none, none => []
    (s.modClo fun x => { x with todo }).nextAttempt

/-- The attempt fails: the other copy is attempted where one is left. -/
def State.attemptFails (s : State) (c : Bool) (e : CopyErr) (off : Nat) (inj : Bool) : State :=
  ((s.copyBad c e off inj).modClo fun x => { x with todo := x.todo.drop 1 }).nextAttempt

/-- The verify pass of the copy attempted ends (R391). -/
def State.verified (s : State) (img : Bytes) : State :=
  match s.clo.todo with
  | [] => s
  | c :: _ =>
    if s.dev ≠ .load ∨ s.clo.step ≠ .verify then s
    else
      match s.hdr c with
      | none => s
      | some h =>
        let inj := s.injAny 0x1B && (s.injArg % 2 == 1) == c
        let s := if inj then s.injUse else s
        match verifyCopy h s.fuses.keyHash inj img with
        | .inl (e, off) => s.attemptFails c e off inj
        | .inr (_, auth) =>
          let d := sha256 (img.take h.len)
          let s := (List.range 8).foldl (fun s i => s.p (F.CLO_DIGEST_D i) (ofBe (slice d (4 * i) 4))) s
          ((s.p F.CLO_STS_AUTH (b2n auth)).modClo fun x => { x with step := .apply }).readCopy c h

/-- A weight word of GTH_SUBWT breaks the bound of R215. -/
def weightBad (w : Nat) : Bool := decide (16 < bitsOf w 15 12 + bitsOf w 11 8 + bitsOf w 7 4 + bitsOf w 3 0)

/-- A POS_PHASE word puts φ outside 0 to 255 in some direction (R140). -/
def phaseBad (w : Nat) : Bool :=
  [bitsOf w 31 24, bitsOf w 23 16].any fun x =>
    let v := (bitsOf w 7 0 : Int) + sext 8 x
    decide (v < 0) || decide (255 < v)

/-- The records that a write of GTH_SUBWT or POS_PHASE makes by its value (R140, R215). [DEDUCED, log 106] -/
def State.valueRecs (s : State) (src : Src) (a v : Nat) : State :=
  if 0x30080 ≤ a ∧ a < 0x300C0 ∧ s.dev ≠ .standby ∧ weightBad v then
    s.record { c := E.NZH_WEIGHT, ctxType := 2, ctx := ctxLine 0 0 0 s.kRec }
  else if 0x50100 ≤ a ∧ a < 0x50180 ∧ s.dev = .run ∧ phaseBad v then s.recReg E.POS_PHCLAMP a src
  else s

/-- A REGS pair (R392): only RW bits take the value; a boundary field's active copy takes it at once. [DEDUCED, log 18] -/
def State.loadReg (s : State) (a v : Nat) : State :=
  if a = 0x140028 then s.recReg E.MEM_CMD a .loader
  else match famOf a with
  | none => s
  | some f =>
    let s := s.setReg a (maskIn (s.reg a) f.rwMask v)
    (([Cls.bLine, Cls.bQuire, Cls.bSig, Cls.bSwath].foldl (fun s c => s.copyAt c a) s).addrWrote a).valueRecs .loader a (s.reg a)

/-- Words of a body into consecutive words of a window. -/
def State.loadWords (s : State) (a : Nat) (b : Bytes) : State := (List.range (b.length / 4)).foldl (fun s i => s.setWin (a + 4 * i) (leAt b (4 * i) 4)) s

/-- Apply a section. -/
def State.applySection (s : State) (x : Section) (img : Bytes) : State :=
  let b := x.body img
  if x.ty = 1 then (List.range (b.length / 8)).foldl (fun s i => s.loadReg (leAt b (8 * i) 4) (leAt b (8 * i + 4) 4)) s
  else if x.ty = 2 then s.loadWords (leAt b 0 4) (b.drop 4)
  else if x.ty = 3 then
    ((nmapBlocks b (b.length / 8 + 1) 0).getD []).foldl (fun s (m, ranks, tref, o) =>
      let s := s.p (F.CAL_TREF_TEMP m) tref
      ((List.range 4).foldl (fun (acc : State × Nat) r =>
        if bitOf ranks r then (acc.1.loadWords (nzAddr m (1024 * r)) (slice b acc.2 4096), acc.2 + 4096) else acc) (s, o)).1) s
  else if x.ty = 4 then (s.modClo fun y => { y with topo := some b }).p F.CLO_STS_TOPO 1
  else if x.ty = 5 then
    (List.range (b.length / 4)).foldl (fun s i => (s.p (F.MEM_QLIST_VALID i) 1).p (F.MEM_QLIST_PAGE i) (leAt b (4 * i) 4 % 2 ^ 24)) s
  else s

/-- The modules whose map an image loads. -/
def mapMods (secs : List Section) (img : Bytes) : List Nat :=
  (secs.flatMap fun x =>
    let b := x.body img
    if x.ty = 3 then ((nmapBlocks b (b.length / 8 + 1) 0).getD []).map (·.1)
    else if x.ty = 2 then (List.range 32).filter fun m => decide (leAt b 0 4 < nzAddr (m + 1) 0) && decide (nzAddr m 0 < leAt b 0 4 + (b.length - 4))
    else []).eraseDups

/-- FILL begins (R297): the population of MEM_CFG, every subchannel to initialise, with the injections armed since (R322); a reserved code populates none, which makes MEM_TRAINFAIL, raises MEMTRAIN
and faults the device (R289, R298). [DESIGN CHOICE, log 41] -/
def State.startFill (s : State) : State :=
  let s := { s with mem := { cfg := s.reg F.MEM_CFG_SCN.addr, sc := s.mem.sc }, dram := [] }
  let s := ((List.range 4).foldl (fun s i => s.modSc i fun q =>
    { st := if i < cfgSubs s.mem.cfg then .init else .absent, injArm := q.injArm, injCrc := q.injCrc }) s).setDev .fill
  if cfgSubs s.mem.cfg = 0 then (s.recReserved.latch Att.MEMTRAIN).goFault.memStatus else s.memStatus

/-- The apply pass ends (R392). -/
def State.applied (s : State) (img : Bytes) : State :=
  match s.clo.todo with
  | [] => s
  | c :: _ =>
    if s.dev ≠ .load ∨ s.clo.step ≠ .apply then s
    else
      match s.hdr c with
      | none => s
      | some h =>
        match sectionsFrom img h.len (h.len / 8 + 1) 64 with
        | .inl off => s.attemptFails c .apply off false
        | .inr secs =>
          match secs.find? fun x => !x.crcOk img with
          | some x => s.attemptFails c .apply x.off false
          | none =>
            let s := secs.foldl (fun s x => s.applySection x img) s
            let s := (mapMods secs img).foldl (fun s m => s.p (F.NZH_MODSTS_DEAD m) (s.deadCount m)) s
            let s := ((s.p F.CLO_STS_LOADED 1).p F.CLO_STS_COPY (b2n c)).p F.CLO_SEQ_SEQ h.seq |>.p F.CLO_LEN_BYTES h.len
            let s := { s with err := { s.err with inj := s.err.inj.filter fun j => j.id != 0x1B } }
            let s := s.record { c := E.CLO_LOAD, inst := b2n c, ctxType := 6, ctx := ctxClo h.seq }
            (s.modClo fun x => { x with step := .done, todo := [] }).startFill

/-! ## FILL and TRAIN (R297, R298, R350, R393, R409) -/

/-- TRAIN begins: lanes and ports start (R168, R332). -/
def State.enterTrain (s : State) : State :=
  let s := (s.setDev .train).lanesStart
  (List.range 4).foldl (fun s p => if s.gb (F.SPN_PCTL_EN p) then s.toDetect p else s) s

/-- The subchannels still in service. -/
def State.scsLeft (s : State) : List Nat := (List.range (cfgSubs s.mem.cfg)).filter fun i => (s.sc i).st != .retired

/-- Entry to STANDBY from TRAIN or QUARANTINE (R209, R409). -/
def State.firstStandby (s : State) : State :=
  let boot := s.dev == .train && s.gb F.NZH_CTL_BOOTSWEEP
  let s := s.devTo .standby
  if boot then s.sweepStart else s

/-- Leave TRAIN where R409 or R393 allows: to STANDBY, to QUARANTINE on a foreign identity (R350), or to FAULT with no image. -/
def State.leaveTrain (s : State) : State :=
  let portsUp := (List.range 4).all fun p => !s.gb (F.SPN_PCTL_EN p) || (s.port p).stage == .active
  if s.dev ≠ .train then s
  else if s.gb F.CLO_STS_RECOVERY then (if portsUp || s.clo.timeUp then s.goFault else s)
  else
    let lanesUp := (List.range 32).all fun m => !s.gb (F.THL_CTL_EN m) || s.laneUp m
    let ready := !s.scsLeft.isEmpty && s.scsLeft.all fun i => (s.sc i).st == .active
    if ready && ((lanesUp && portsUp) || s.clo.timeUp) then
      match s.clo.topo with
      | some t =>
        if slice t 0 16 = slice s.fuses.uid 0 16 then s.firstStandby
        else ({ s with spn := { s.spn with quarOwn := true } }.p F.SPN_STS_QUAROWN 1).setDev .quarantine
      | none => s.firstStandby
    else s

/-- TRAINTMO has passed since TRAIN began. -/
def State.trainTimeUp (s : State) : State := if s.dev = .train then (s.modClo fun x => { x with timeUp := true }).leaveTrain else s

/-- After a step of FILL or of a restoration: FILL ends when every subchannel left is filled. -/
def State.fillCheck (s : State) : State :=
  let s := s.memStatus
  if s.dev = .fill ∧ !s.scsLeft.isEmpty ∧ s.scsLeft.all (fun i => (s.sc i).st == .training) then s.enterTrain else s.leaveTrain

/-- A step of FILL or TRAIN of subchannel i fails: it is repeated up to 3 times; then MEM_TRAINFAIL and, with RETEN, retirement (R298, R319). Without RETEN the step may
be tried again. [DEDUCED, log 45] -/
def State.stepFails (s : State) (i : Nat) : State :=
  let s := s.modSc i fun q => { q with fails := q.fails + 1 }
  if (s.sc i).fails ≤ 3 then s
  else
    let s := (s.record { c := E.MEM_TRAINFAIL, inst := i, ctxType := 4, ctx := ctxDram 0 8 i 0xFF, handles := true }).latch Att.MEMTRAIN
    (if s.gb F.MEM_CTL_RETEN then s.retireSc i else s.modSc i fun q => { q with fails := 0 }).fillCheck

/-- Step 1 of FILL, and its restoration, ends (R297, R320). -/
def State.dramInit (s : State) (i : Nat) (ok : Bool) : State :=
  if (s.sc i).st ≠ .init ∨ (s.sc i).done ≠ 0 then s
  else if !ok then s.stepFails i
  else s.modSc i fun q => { q with done := 1, fails := 0 }

/-- Step 2 ends. -/
def State.dramTrain1 (s : State) (i : Nat) (ok : Bool) : State :=
  if (s.sc i).st ≠ .init ∨ (s.sc i).done ≠ 1 then s
  else if !ok then s.stepFails i
  else (s.modSc i fun q => { q with done := 2, fails := 0, st := .filling }).memStatus

/-- FILL's first codeword write of a subchannel meets what MEM_INJ has armed (R322). In bypass mode FILL writes as ever (R294, R297), an ARM waits, and a WCRC takes its write burst. [DESIGN CHOICE, log 47] -/
def State.fillInj (s : State) (i : Nat) : State :=
  if s.gb F.MEM_TEST_BYPASS then s.wcrcInj i else if (s.sc i).injArm.isNone && !(s.sc i).injCrc then s else s.issueCw (s.scAddr i 0 / 64) (List.replicate 64 0) (List.replicate 16 0)

/-- Step 3 ends: every codeword of the subchannel holds FILL's data, unless an armed WCRC has just retired it (R319). -/
def State.dramFilled (s : State) (i : Nat) (ok : Bool) : State :=
  if (s.sc i).st ≠ .filling then s
  else if !ok then s.stepFails i
  else
    let s := (s.refillSc i).fillInj i
    (if (s.sc i).st = .filling then s.modSc i fun q => { q with done := 3, fails := 0, st := .training } else s).fillCheck

/-- 2-D training of TRAIN ends. -/
def State.dramTrain2 (s : State) (i : Nat) (ok : Bool) : State :=
  if (s.sc i).st ≠ .training ∨ s.dev = .fill then s
  else if !ok then s.stepFails i
  else (s.modSc i fun q => { q with done := 4, fails := 0, st := .active, patrolAt := s.ns }).fillCheck

/-! ## Reboot and direct flash access (R394, R414) -/

/-- CLO_CMD (R414): REBOOT with the key acts as a pulse of RESET_N: RESET begins, and the command RESET_N_RELEASE is the pulse's end, which samples FOLIO_ROLE anew. [DEDUCED, log 81] -/
def State.cloCmd (s : State) (src : Src) (w : Nat) : State :=
  if bitOf w 0 ∧ w / 65536 % 65536 = 0x4B44 then s.resetLow else s.recReg E.CLO_CMD F.CLO_CMD_KEY.addr src

/-- The bytes of CLO_FBUF. -/
def State.fbuf (s : State) (n : Nat) : Bytes := ((List.range 64).flatMap fun i => leBytes 4 (s.g (F.CLO_FBUF_DATA i))).take n

/-- CLO_FCTL.GO (R394): a transfer starts unless one runs, or in RESET or LOAD. The register's RW fields have been written. [DEDUCED, log 82] -/
def State.flashGo (s : State) : State :=
  if s.gb F.CLO_FCTL_BUSY ∨ s.dev = .reset ∨ s.dev = .load ∨ s.dev = .off then s
  else
    let n := Nat.min 256 (s.g F.CLO_FCTL_LEN)
    let ab := s.g F.CLO_FCTL_ADDRB
    let a := if ab = 0 then none else some (if ab = 1 then s.g F.CLO_FADDR_ADDR % 2 ^ 24 else s.g F.CLO_FADDR_ADDR)
    let x : FlashOp :=
      { op := s.g F.CLO_FCTL_OPCODE, addr := a, addrBytes := if ab = 1 then 3 else 4, dummy := s.g F.CLO_FCTL_DUMMY, quad := s.gb F.CLO_FCTL_QUAD, sck := s.clo.sck, len := some n
        data := if s.gb F.CLO_FCTL_DIR then s.fbuf n else [] }
    ((s.p F.CLO_FCTL_BUSY 1).modClo fun y => { y with xfer := some (s.gb F.CLO_FCTL_DIR, n) }).emit (.flash x)

/-- A transfer ends: bytes read stand in CLO_FBUF, by the direction and length that GO took. [DEDUCED, log 82] -/
def State.flashDone (s : State) (data : Bytes) : State :=
  match s.clo.xfer with
  | none => s
  | some (wr, n) =>
    let s := (s.p F.CLO_FCTL_BUSY 0).modClo fun x => { x with xfer := none }
    if wr then s
    else
      let b := slice data 0 n ++ (s.fbuf 256).drop n
      (List.range 64).foldl (fun s i => s.p (F.CLO_FBUF_DATA i) (leAt b (4 * i) 4)) s

end Sys2Proof.Machine
end

