-- ==== Sys2Proof/Machine/PortOps.lean ====
section
/-!
DEFINITION. What happens on the Spine ports: bring-up (R330, R332), link replay (R333 to R335), credits (R336), the lane test (R353), recovery and
retirement (R354, R355), injections (R356), admission (R352) and discovery (R342, R343).
-/

namespace Sys2Proof.Machine

/-! ## Bring-up (R330, R332) -/

/-- Termination found on the lanes of a bit mask: the port goes to TRAIN on a lane set that they allow. [DEDUCED, log 83] -/
def State.spnProbe (s : State) (p lanes : Nat) : State :=
  let q := s.port p
  if q.stage = .detect ∧ !q.waitRetry then
    match chooseWidth (lanesFree q lanes) (s.g (F.SPN_PCTL_WMAX p)) 7 with
    | some (_, l) => s.modPort p fun q => { q with stage := .train, lanesAct := l, found := lanes }
    | none => s
  else s

/-- The CFG message that the port sends (R330). [DEDUCED, log 83; DESIGN CHOICE, log 86] -/
def State.ownCfg (s : State) (p : Nat) (complete : Bool) : Cfg :=
  let q := s.port p
  { stage := stageCode q.stage, widths := 2 ^ (s.g (F.SPN_PCTL_WMAX p) + 1) - 1, lanes := sumL ((lanesUp q).map (2 ^ ·)), port := p, node := s.ownNode,
    valid := s.nodeValid, uid := slice s.fuses.uid 0 16, credits := q.offer, complete, loop := q.stage == .test && s.g (F.SPN_PRBS_LOOP p) == 2 }

/-- Send it. The bits of a CFG block are not given, so the parity up to the next AM is open. -/
def State.sendCfg (s : State) (p : Nat) (complete : Bool) : State := (s.modPort p fun q => { q with bipOpen := true }).emit (.spineCfg p (s.ownCfg p complete))

/-- Injected invalid sync headers leave on a port that sends blocks (R356). [DEDUCED, log 90] -/
def State.laneErrOut (s : State) (p : Nat) : State :=
  let m := (s.port p).inj.laneErr
  ((List.range 4).filter (bitOf m)).foldl (fun s l => (s.inc F.ERR_CNT_INJ_COUNT).emit (.spineBadHeader p l)) (s.modPort p fun q => { q with inj := { q.inj with laneErr := 0 } })

/-- Every lane that will be used has bit lock: ALIGN follows, reported in a CFG block. In RECOVER the stage stays and only its phase moves. [DEDUCED, log 83] -/
def State.spnLocked (s : State) (p lanes : Nat) : State :=
  let q := s.port p
  if (List.range 4).all fun l => !bitOf q.lanesAct l || bitOf q.laneRet l || bitOf lanes l then
    if q.stage = .train ∧ !q.waitRetry then ((s.modPort p fun q => { q with stage := .align, locked := lanes }).sendCfg p false).laneErrOut p
    else if q.stage = .recover ∧ q.phase = .train then ((s.modPort p fun q => { q with phase := .align, locked := lanes }).sendCfg p false).laneErrOut p
    else s
  else s

/-- A lane's AM (R326, R327). One whose CRC-8 fails is discarded and counted. A BIP-8 that differs from the lane's own is a lane block error; once the lanes are deskewed and the far
end is in ALIGN or later, CONFIG follows. -/
def State.spnAm (s : State) (p l : Nat) (rx : AmRx) (deskewed : Bool) (far : Nat) : State :=
  let st := (s.port p).stage
  let am := leBytes 8 rx.am.toNat
  if !(st == .align || st == .config || st == .active || st == .recover) then s
  else if crc8 (am.take 7) ≠ byteAt am 7 ∨ byteAt am 0 ≠ 0x99 then s.inc (F.SPN_CNT_HCRC_COUNT p)
  else
    let own := rx.blocks.foldl (fun v x => Nat.xor v (bip8 (leBytes 8 x.toNat))) 0
    let s := if byteAt am 2 = own then s else s.laneBlockError p l
    let q := s.port p
    if deskewed && decide (3 ≤ far) && decide (far ≤ 6) then
      if q.stage = .align ∧ !q.waitRetry then let s := s.modPort p fun q => { q with stage := .config }; s.sendCfg p false
      else if q.stage = .recover ∧ q.phase = .align then let s := s.modPort p fun q => { q with phase := .config }; s.sendCfg p false
      else s
    else s

/-- The topology lock's entry for port p accepts a neighbour ID (R350, R388). [DEDUCED, log 85] -/
def State.nbrFits (s : State) (p : Nat) (uid : Bytes) : Bool :=
  match s.clo.topo with
  | some t => byteAt t (16 + 20 * p) != 1 || slice t (20 + 20 * p) 16 == uid
  | none => true

/-- The neighbour's identity is compared at CONFIG (R350). [DEDUCED, log 85] -/
def State.nbrCheck (s : State) (p : Nat) (m : Cfg) : State :=
  let uid := slice m.uid 0 16
  let s := (List.range 4).foldl (fun s i => s.p (F.SPN_NBRID_ID p i) (leAt uid (4 * i) 4)) s
  let s := s.p (F.SPN_NBRNODE_VAL p) (m.node % 65536 + b2n m.valid * 65536 + m.port % 8 * 2 ^ 17)
  let bad := !s.nbrFits p uid && (s.port p).admitted != some uid
  let new := bad && !(s.port p).mgmtOnly
  let s := s.modPort p fun q => { q with mgmtOnly := bad }
  if new then s.record { c := E.SPN_NBRID, inst := p, ctxType := 5, ctx := ctxNode m.node p 0xFF (crc32c uid % 65536), handles := true } else s

/-- An injected loss of block lock acts on an ACTIVE port (R354, R356). [DEDUCED, log 90] -/
def State.blkLossNow (s : State) (p : Nat) : State :=
  if (s.port p).inj.blkLoss && (s.port p).stage == .active then
    ((s.modPort p fun q => { q with inj := { q.inj with blkLoss := false } }).inc F.ERR_CNT_INJ_COUNT).enterRecover p true
  else s

/-- CONFIG completes at both ends: the port is ACTIVE; after RECOVER it replays what is not acknowledged, and the fifth replay of one sequence sends it to RECOVER again (R332, R334). [DEDUCED, log 84] -/
def State.spnActive (s : State) (p : Nat) : State :=
  let q := s.port p
  let again := q.stage == .recover
  let s := s.modPort p fun q => { q with stage := .active, fails := 0, waitRetry := false }
  let s := match again, q.replay with
    | true, k :: _ =>
      let (s, five) := s.replayFrom p k.seq
      if five then s.enterRecover p (s.port p).injd else s.pump p
    | _, _ => s.pump p
  s.blkLossNow p

/-- Whether the port sends and takes blocks. -/
def aligned (q : Port) : Bool :=
  q.stage == .align || q.stage == .config || q.stage == .active || (q.stage == .recover && q.phase != .train)

/-- A CFG message at CONFIG (R330): width and lanes, the neighbour, the credit limits; when the far end is complete too the port is ACTIVE.
A width that differs from the one the port last ran at makes SPN_WIDTH (R355). [DEDUCED, log 84] -/
def State.spnCfgOk (s : State) (p : Nat) (m : Cfg) : State :=
  let s := if aligned (s.port p) then s.modPort p fun q => { q with loop := m.loop } else s
  let q := s.port p
  if (q.stage = .config ∧ !q.waitRetry) ∨ (q.stage = .recover ∧ q.phase = .config) then
    match chooseWidth ((lanesUp q).filter (bitOf m.lanes)) (s.g (F.SPN_PCTL_WMAX p)) m.widths with
    | none => s
    | some (w, l) =>
      let s := s.nbrCheck p m
      let moved := q.lastW.isSome && q.lastW != some w
      let lim := (List.range 4).map fun v => m.credits.getD v 0 % 2 ^ 16
      let s := s.modPort p fun q =>
        let q := { q with width := w, lanesAct := l, lastW := some w }
        if q.stage = .config then { q with limits := lim, granted := lim } else q
      let s := if moved then s.record { c := E.SPN_WIDTH, inst := p, ctxType := 5, ctx := s.ctxNbr p 0xFF } else s
      let s := s.sendCfg p true
      if m.complete then s.spnActive p else s
  else s

/-- A CFG block arrives; one whose CRC-8 fails (none) is discarded and counted (R326). -/
def State.spnCfg (s : State) (p : Nat) (m : Option Cfg) : State :=
  match m with
  | some m => s.spnCfgOk p m
  | none => if aligned (s.port p) then s.inc (F.SPN_CNT_HCRC_COUNT p) else s

/-- A stage has passed its limit: TRAIN, ALIGN and CONFIG fail; RECOVER goes back to DETECT. -/
def State.spnTimeout (s : State) (p : Nat) : State :=
  let q := s.port p
  if (q.stage = .train ∨ q.stage = .align ∨ q.stage = .config) ∧ !q.waitRetry then s.portFail p
  else if q.stage = .recover then s.toDetect p
  else s

/-- 1 ms after a failure. -/
def State.spnRetry (s : State) (p : Nat) : State := if (s.port p).waitRetry then s.toDetect p else s

/-- The BIP-8 that lane l's AM carries: over the blocks sent and the IDLE blocks that filled the 16,384 block times since the previous AM. -/
def bipOf (q : Port) (l : Nat) : Nat := Nat.xor (spGet 0 q.bip l) (if (16383 + spGet 0 q.sent l) % 2 = 1 then bip8 (spnBlock 0x1E []) else 0)

/-- AM blocks go out on every lane in use in one block time (R327). A BIP-8 over a CFG block is a free value. [DESIGN CHOICE, log 87] -/
def State.spnAmOut (s : State) (p : Nat) : State :=
  let q := s.port p
  if aligned q then
    let (v, s) := s.draw
    let s := (logicalLanes q).foldl (fun s l => s.emit (.spineCtl p l 0x99 (spnBlock 0x99 (leBytes 1 l ++ leBytes 1 (if q.bipOpen then v else bipOf q l))))) s
    s.modPort p fun q => { q with bip := [], sent := [], bipOpen := false, txLane := 0 }
  else s

/-- A lane of an ACTIVE port loses block lock, or counts 16 invalid sync headers within 2^14 blocks (R354). [DEDUCED, log 88] -/
def State.spnLaneLost (s : State) (p l : Nat) : State :=
  if (s.port p).stage = .active ∧ bitOf (s.port p).lanesAct l then s.enterRecover p false else s

/-- A block with an invalid sync header (R327). -/
def State.spnBadHeader (s : State) (p l : Nat) : State :=
  if aligned (s.port p) ∧ bitOf (s.port p).lanesAct l then s.laneBlockError p l else s

/-! ## Frames on a link (R333 to R336) -/

/-- Send ACK with the last accepted sequence. -/
def State.spnAck (s : State) (p : Nat) : State :=
  let q := s.port p
  if q.stage = .active then
    (s.modPort p fun q => { q with sinceAck := 0 }).sendCtl p 0x4B (leBytes 2 ((q.rxSeq + 4095) % 4096))
  else s

/-- Send NAK(S), once until a frame with sequence S is accepted. -/
def State.spnNak (s : State) (p : Nat) : State :=
  let q := s.port p
  if q.nakSent then s
  else
    ((s.modPort p fun q => { q with nakSent := true }).inc (F.SPN_CNT_NAKTX_COUNT p)).sendCtl p 0x55 (leBytes 2 q.rxSeq)

/-- The egress of a frame that is forwarded from port p, and the frame as it leaves; none where it is not forwarded. -/
def State.egressOf (s : State) (p : Nat) (f : Frame) : Option (Nat × Frame) :=
  let go (q : Nat) (f : Frame) : Option (Nat × Frame) :=
    if q < 4 ∧ !s.portFilters p f ∧ !s.portFilters q f ∧ f.hop ≠ 0 ∧ s.live q f then some (q, { f with hop := f.hop - 1 }) else none
  if f.ll then none
  else if f.dr then
    let i := byteAt f.payload 0
    let c := byteAt f.payload 1
    let es := routeEntries f.payload
    if c ≤ i then none else go (es.getD i 0) { f with payload := mkRoute (i + 1) c (es.set i p) ++ f.payload.drop 8 }
  else (s.routeTo f).bind fun q => go q f

/-- A frame whose CRC fails was forwarded in cut-through while it arrived where its egress could take it at once: it leaves stomped (R335). [DEDUCED, log 89] -/
def State.cutThrough (s : State) (p : Nat) (f : Frame) : State :=
  if !vlFits f then s
  else
    match s.egressOf p f with
    | some (q, f') => if (s.port q).txq.isEmpty && canSend (s.port q) f' then s.txFrame q ⟨f', f, p, s.now⟩ true else s
    | none => s

/-- The correction field of a forwarded HB_SYNC takes its residence time (R150, R335). -/
def addResidence (f : Frame) (res : Nat) : Frame :=
  if f.ty = FT.HB_SYNC ∧ !f.ll then
    let o := if f.dr then 16 else 8
    { f with payload := f.payload.take o ++ leBytes 8 ((leAt f.payload o 8 + res) % 2 ^ 64) ++ f.payload.drop (o + 8) }
  else f

/-- A frame arrives on port p (R333, R335). [DEDUCED, log 89] -/
def State.spnFrame (s : State) (p : Nat) (b : Bytes) (res : Nat) : State :=
  let q := s.port p
  if q.stage ≠ .active then s
  else
    let r := parseFrame b
    let stomped := r.hdrOk && !r.crcOk && r.crcXor == 0xFFFFFFFF && decide (b.length = 20 + r.frame.payload.length)
    if !r.hdrOk then (s.inc (F.SPN_CNT_HCRC_COUNT p)).spnNak p
    else if !r.crcOk ∧ !stomped then
      let s := s.inc (F.SPN_CNT_FCRC_COUNT p)
      let s := if r.seq = q.rxSeq then s.cutThrough p r.frame else s
      s.spnNak p
    else if r.seq ≠ q.rxSeq then
      if 2048 ≤ (r.seq + 4096 - q.rxSeq) % 4096 then s.spnAck p else s.spnNak p
    else
      let s := s.modPort p fun q => { q with rxSeq := (q.rxSeq + 1) % 4096, nakSent := false, sinceAck := q.sinceAck + 1 }
      let s := if 8 ≤ (s.port p).sinceAck then s.spnAck p else s
      if stomped then ((s.inc F.SPN_CNT_STOMP_COUNT).cutThrough p r.frame).freeCredit p r.frame
      else if !vlFits r.frame then (s.inc F.SPN_CNT_FILTER_COUNT).freeCredit p r.frame
      else s.switch p (if (s.egressOf p r.frame).isSome then addResidence r.frame res else r.frame)

/-- A link-control block's bytes; none where its CRC-8 fails. -/
def readBlock (blk : Nat) : Option Bytes :=
  let b := leBytes 8 blk
  if crc8 (b.take 7) = byteAt b 7 then some b else none

/-- Take a link-control block: a failing CRC-8 counts in SPN_CNT_HCRC (R326); one that passes acts on an ACTIVE port. -/
def State.onBlock (s : State) (p blk ty : Nat) (f : Bytes → State → State) : State :=
  if !aligned (s.port p) then s
  else
    match readBlock blk with
    | none => s.inc (F.SPN_CNT_HCRC_COUNT p)
    | some b => if byteAt b 0 = ty ∧ (s.port p).stage = .active then f b s else s

/-- An ACK frees the frames it covers (R334). -/
def State.spnAckIn (s : State) (p blk : Nat) : State :=
  s.onBlock p blk 0x4B fun b s =>
    if (s.port p).inj.ackDrop then (s.modPort p fun q => { q with inj := { q.inj with ackDrop := false }, injd := true }).inc F.ERR_CNT_INJ_COUNT
    else
      let n := leAt b 1 2 % 4096
      (s.modPort p fun q => { q with replay := q.replay.filter fun k => !decide ((n + 4096 - k.seq) % 4096 < 2048), injd := false }).pump p

/-- Replay from a sequence on; a fifth replay of one sequence sends the port to RECOVER (R334). -/
def State.spnReplay (s : State) (p sq : Nat) : State :=
  let (s, five) := s.replayFrom p sq
  if five then s.enterRecover p (s.port p).injd else s

/-- A NAK (R334). [DEDUCED, log 89] -/
def State.spnNakIn (s : State) (p blk : Nat) : State :=
  s.onBlock p blk 0x55 fun b s => (s.inc (F.SPN_CNT_NAKRX_COUNT p)).spnReplay p (leAt b 1 2 % 4096)

/-- A CREDIT block (R336). -/
def State.spnCreditIn (s : State) (p blk : Nat) : State :=
  s.onBlock p blk 0x66 fun b s =>
    let v := byteAt b 1
    if v < 4 then (s.modPort p fun q => { q with granted := q.granted.set v ((q.limits.getD v 0 + leAt b 2 2) % 2 ^ 16) }).pump p else s

/-- Each VL's cumulative credit count goes out again (R336). -/
def State.spnCreditOut (s : State) (p : Nat) : State :=
  (List.range 4).foldl (fun s v => s.sendCredit p v) s

/-- The oldest frame not acknowledged has waited RTMO (R334). -/
def State.spnRtmo (s : State) (p : Nat) : State :=
  match (s.port p).stage, (s.port p).replay with
  | .active, k :: _ => s.spnReplay p k.seq
  | _, _ => s

/-! ## Commands (R352 to R356) -/

/-- SPN_PCMD's rejected commands. [DEDUCED, log 90] -/
def State.spnCmdRec (s : State) (p : Nat) (src : Src) : State := s.recReg E.SPN_CMD (0x180028 + 0x4000 * p) src

/-- ADMIT of the neighbour on port p (R352). [DEDUCED, log 85] -/
def State.spnAdmit (s : State) (p : Nat) (src : Src) (check : Nat) : State :=
  if (s.port p).mgmtOnly ∧ check = crc32c (s.nbrId p) % 65536 then
    let s := s.modPort p fun q => { q with mgmtOnly := false, admitted := some (s.nbrId p) }
    s.record { c := E.SPN_ADMIT, inst := p, ctxType := 5, ctx := s.ctxNbr p 0xFF }
  else s.spnCmdRec p src

/-- ADMIT of this device (R352). [DESIGN CHOICE, log 28] -/
def State.spnAdmitOwn (s : State) (src : Src) (check : Nat) : State :=
  let c := crc32c (slice s.fuses.uid 0 16) % 65536
  if s.dev = .quarantine ∧ check = c then
    let s := { s with spn := { s.spn with quarOwn := false } }.p F.SPN_STS_QUAROWN 0
    let s := s.record { c := E.SPN_ADMIT, inst := 4, ctxType := 5, ctx := ctxNode s.ownNode 4 0xFF c }
    s.firstStandby
  else s.recReg E.SPN_CMD 0x181014 src

/-- TEST (R353): `via` is the port through which the command arrived. [DEDUCED, log 90] -/
def State.spnTest (s : State) (p : Nat) (src : Src) (via : Option Nat) : State :=
  let st := (s.port p).stage
  if s.dev ≠ .standby ∨ via = some p ∨ st = .disabled ∨ st = .retired then s.spnCmdRec p src
  else
    let q := s.port p
    let act := if q.lanesAct = 0 then 15 - q.laneRet % 16 else q.lanesAct
    let s := (s.toDetect p).modPort p fun x => { x with stage := .test, lanesAct := act, found := if q.found = 0 then act else q.found, prbs := [], injBits := [] }
    let s := s.p (F.SPN_PRBS_LOCK p) 0
    if s.g (F.SPN_PRBS_LOOP p) = 2 then s.sendCfg p false else s

/-- TESTEXIT (R353): the port retrains from TRAIN. [DEDUCED, log 90] -/
def State.spnTestExit (s : State) (p : Nat) (src : Src) : State :=
  if (s.port p).stage = .test then s.modPort p fun q => { q with stage := .train } else s.spnCmdRec p src

/-- RESTORE (R355). [DEDUCED, log 96] -/
def State.spnRestore (s : State) (p : Nat) (src : Src) : State :=
  if s.dev ≠ .standby then s.spnCmdRec p src
  else
    let s := s.modPort p fun q => { q with laneRet := 0, laneErrs := [], recTimes := [], fails := 0 }
    if s.gb (F.SPN_PCTL_EN p) then s.toDetect p else s.modPort p fun q => { q with stage := .disabled }

/-- RETRAIN (R354). [DEDUCED, log 90] -/
def State.spnRetrain (s : State) (p : Nat) (src : Src) : State :=
  if s.dev ≠ .standby ∧ s.dev ≠ .hold then s.spnCmdRec p src
  else if (s.port p).stage = .active then s.enterRecover p false else s

/-- SPN_PCMD (R352 to R355); the actions of one write in the order of their bits. -/
def State.spnPcmd (s : State) (p : Nat) (src : Src) (via : Option Nat) (w : Nat) : State :=
  let s := if bitOf w 0 then s.spnRetrain p src else s
  let s := if bitOf w 1 then s.spnRestore p src else s
  let s := if bitOf w 2 then s.spnTest p src via else s
  let s := if bitOf w 3 then s.spnTestExit p src else s
  if bitOf w 4 then s.spnAdmit p src (bitsOf w 31 16) else s

/-- SPN_QCMD. -/
def State.spnQcmd (s : State) (src : Src) (w : Nat) : State := if bitOf w 31 then s.spnAdmitOwn src (w % 65536) else s

/-- SPN_INJ (R356): PORT and LANE as the write leaves them; each bit waits for the next event of its kind. [DEDUCED, log 90] -/
def State.spnInj (s : State) (w : Nat) : State :=
  let p := bitsOf w 7 6
  let l := bitsOf w 5 4
  let s := s.modPort p fun q =>
    { q with inj := { fcrc := q.inj.fcrc || bitOf w 0, hcrc := q.inj.hcrc || bitOf w 8, ackDrop := q.inj.ackDrop || bitOf w 1,
                      laneErr := putBit q.inj.laneErr l (bitOf q.inj.laneErr l || bitOf w 2), blkLoss := q.inj.blkLoss || bitOf w 3 } }
  (if aligned (s.port p) then s.laneErrOut p else s).blkLossNow p

/-- SPN_PCTL.EN changes (R332); a retired port waits for RESTORE. [DEDUCED, log 96] -/
def State.spnEnable (s : State) (p : Nat) (was : Bool) : State :=
  let on := s.gb (F.SPN_PCTL_EN p)
  if (s.port p).stage = .retired then s
  else if on && !was then s.toDetect p
  else if was && !on then (s.toDetect p).modPort p fun q => { q with stage := .disabled }
  else s

/-- SPN_PRBS.INJ1 (R353): one bit error on each lane of a port in TEST with its generators on. [DESIGN CHOICE, log 98] -/
def State.spnPrbsInj (s : State) (p : Nat) : State :=
  if (s.port p).stage = .test ∧ s.gb (F.SPN_PRBS_GENEN p) then
    (s.modPort p fun q =>
      { q with injBits := ((List.range 4).filter (bitOf q.lanesAct)).foldl (fun x l => spMod 0 x l (· + 1)) q.injBits }).inc F.ERR_CNT_INJ_COUNT
  else s

/-- Received bits at lane l (R353): a neighbour's far-end loop is served by sending them back; in TEST the generator sends as many, and the checker takes what the loop selects: with
the near-end loop the generator's own bits, else the bits received. [DESIGN CHOICE, log 98] -/
def State.spnPrbsIn (s : State) (p l : Nat) (bits : List Bool) : State :=
  let q := s.port p
  if q.stage ≠ .test then (if q.loop && q.stage != .disabled && q.stage != .retired then s.emit (.spineBits p l bits) else s)
  else if !bitOf q.lanesAct l then s
  else
    let poly := s.g (F.SPN_PRBS_POLY p)
    let inv := s.gb (F.SPN_PRBS_INV p)
    let n := spGet 0 q.injBits l
    let gen := s.gb (F.SPN_PRBS_GENEN p)
    let (g, out, hits) := genRun poly inv (s.g (F.SPN_PRBS_INJRATE p)) bits.length (spGet {} q.gens l) n
    let s := if gen then ((s.modPort p fun q => { q with gens := spSet {} q.gens l g, injBits := spSet 0 q.injBits l (n - bits.length) }).incBy F.ERR_CNT_INJ_COUNT hits).emit (.spineBits p l out)
      else s
    if s.gb (F.SPN_PRBS_CHKEN p) then
      let (c, k) := prbsRun poly inv (spGet {} q.prbs l) (if gen && s.g (F.SPN_PRBS_LOOP p) == 1 then out else bits)
      let s := s.modPort p fun q => { q with prbs := spSet {} q.prbs l c }
      (s.p (F.SPN_PRBS_LOCK p) (putBit (s.g (F.SPN_PRBS_LOCK p)) l c.lock)).incBy (F.SPN_PRBSERR_COUNT p l) k
    else s

/-! ## Discovery (R342, R343) -/

/-- A DISC payload. -/
def discBytes (root seq hops : Nat) (fwd back : List Nat) : Bytes :=
  leBytes 2 root ++ leBytes 2 seq ++ leBytes 1 hops ++ leBytes 3 0 ++ mkRoute 0 fwd.length fwd ++ mkRoute 0 back.length back ++ leBytes 4 0

/-- Send DISC on the ports given. [DEDUCED, log 91] -/
def State.discOut (s : State) (ps : List Nat) (b : Bytes) : State :=
  ps.foldl (fun s p => if s.member && p == 3 then s else s.sendLL p FT.DISC 1 b) s

/-- DISCGO: ignored unless ROOT is 1. -/
def State.discGo (s : State) : State :=
  if s.gb F.SPN_CTL_ROOT then
    let s := { s with spn := { s.spn with floodSeq := (s.spn.floodSeq + 1) % 65536, discBusy := true } }
    s.discOut s.upPorts (discBytes s.ownNode s.spn.floodSeq 0 [] [])
  else s

/-- The DISC_RESP payload (R343); `fwd` is the route from the root. [DEDUCED, log 91] -/
def State.discResp (s : State) (fwd : List Nat) : Bytes :=
  slice s.fuses.uid 0 16 ++ leBytes 2 s.ownNode ++ leBytes 1 (b2n s.nodeValid + 2 * b2n (s.dev == .quarantine) + 4 * b2n s.member)
    ++ leBytes 1 (devCode s.dev)
    ++ ((List.range 4).flatMap fun p => leBytes 1 (stageCode (s.port p).stage + 16 * (s.port p).width))
    ++ mkRoute 0 fwd.length fwd
    ++ ((List.range 4).flatMap fun p => leBytes 4 (s.g (F.SPN_NBRNODE_VAL p) % 2 ^ 17)) ++ leBytes 16 0

/-- A DISC arrives on port q (R342). [DEDUCED, log 91] -/
def State.discIn (s : State) (q : Nat) (f : Frame) : State :=
  let b := f.payload
  let root := leAt b 0 2
  let seq := leAt b 2 2
  let hops := byteAt b 4 + 1
  let fwd := routeEntries (slice b 8 8) ++ [q]
  let back := q :: routeEntries (slice b 16 8)
  let isEntry (k : Nat) : Bool := s.gb (F.SPN_ROOT_VALID k) && s.g (F.SPN_ROOT_NODE k) == root
  let own := s.gb F.SPN_CTL_ROOT && root == s.ownNode
  let fwdOn := s.gb F.SPN_CTL_DISCFWD
  let slot := match (List.range 2).find? isEntry with
    | some k => some k
    | none => (List.range 2).find? fun k => !s.gb (F.SPN_ROOT_VALID k)
  match slot with
  | none => s
  | some k =>
    let d := (seq + 65536 - spGet 0 s.spn.rootSeq k) % 65536
    let new := !isEntry k || (decide (0 < d) && decide (d < 32768)) || (d == 0 && decide (hops < s.g (F.SPN_ROOT_HOPS k)))
    if own || !new then s
    else if 16 < hops then s.inc F.SPN_CNT_DISC_COUNT
    else
      let s := { s with spn := { s.spn with rootSeq := spSet 0 s.spn.rootSeq k seq } }
      let s := (((s.p (F.SPN_ROOT_NODE k) root).p (F.SPN_ROOT_VALID k) 1).p (F.SPN_ROOT_UPPORT k) q).p (F.SPN_ROOT_HOPS k) hops
      let s := s.send { s.mkFrame root 1 FT.DISC_RESP (mkRoute 0 back.length back ++ s.discResp fwd) with dr := true }
      if fwdOn then s.discOut (s.upPorts.filter fun p => p != q) (discBytes root seq hops fwd back) else s

end Sys2Proof.Machine
end

