-- ==== Sys2Proof/Machine/Registers.lean ====
section
/-!
DEFINITION. Register accesses from any source (R6, R7, R12 to R16, R434 to R436): what a read returns, what a write changes, and what it starts.
-/

namespace Sys2Proof.Machine

/-! ## Field masks -/

/-- The bits of a family's fields that a predicate picks. -/
def famMask (f : Fam) (p : Fld → Bool) : Nat := f.flds.foldl (fun v x => if p x then putBits v x.hi x.lo (2 ^ 32 - 1) else v) 0

/-- The bits of a register's fields that a predicate picks; 0 where no register stands. -/
def regMask (a : Nat) (p : Fld → Bool) : Nat :=
  match famOf a with
  | some f => famMask f p
  | none => 0

/-- RW fields of class [S]. -/
def isS (x : Fld) : Bool := x.acc == .rw && x.cls == .s

/-- RW fields of class [B] or [L]. -/
def isBL (x : Fld) : Bool := x.acc == .rw && x.cls != .s && x.cls != .non

/-- The table window that holds an address (R435). -/
def windowOf (a : Nat) : Option (Nat × Nat × Bool) := windows.find? fun w => decide (w.1 ≤ a) && decide (a < w.1 + w.2.1)

/-- The log's addresses (R423). -/
def inLog (a : Nat) : Bool := decide (0x1D8000 ≤ a) && decide (a < 0x1DA000)

/-- The lock that an address names (R373). -/
def lockOf (a : Nat) : Option Nat := if 0x1C6000 ≤ a ∧ a < 0x1C6400 then some ((a - 0x1C6000) / 4) else none

/-- Whether a register, a window's word or a log word stands at an aligned address (R434). -/
def addrExists (a : Nat) : Bool := (famOf a).isSome || (windowOf a).isSome || inLog a

/-! ## What a register shows -/

/-- The held attention reasons (R376, R439). [DEDUCED, log 14, 43] -/
def State.heldAttn (s : State) : Nat :=
  let put (v b : Nat) (c : Bool) : Nat := putBit v b c
  let scs := (List.range 4).map s.sc
  let v := put 0 Att.FENCUT (s.reg F.FIR_WDSTS_CUT.addr != 0)
  let v := put v Att.TEMPWARN ((List.range 32).any fun m => s.gb (F.FIR_TEMP_WARN m))
  let v := put v Att.TEMPHARD s.anyHot
  let v := put v Att.LANECAP ((List.range 32).any fun m => (s.lane m).stage == .capex)
  let v := put v Att.LANERET ((List.range 32).any fun m => (s.lane m).stage == .retired)
  let v := put v Att.POSLOST (s.folSt == Fol.hold)
  let v := put v Att.CAMLINK (s.g F.INS_STS_RETIRED != 0)
  let v := put v Att.FOLSUSP (s.gb F.FOL_STS_SUSPECT)
  let v := put v Att.FOLISO (s.gb F.FOL_STS_ISOLATED)
  let v := put v Att.FOLRET (s.dev == .retired)
  let v := put v Att.MEMHOT (scs.any fun q => q.rate.contains 4)
  let v := put v Att.MEMRET (scs.any fun q => q.st == .retired)
  let v := put v Att.SPNRET ((List.range 4).any fun p => (s.port p).laneRet != 0 || (s.port p).stage == .retired)
  put v Att.NODEQUAR (s.spn.quarOwn || (List.range 4).any fun p => (s.port p).mgmtOnly)

/-- GLB_ATTN: the latched reasons that stand and the held ones whose condition holds. [DEDUCED, log 14] -/
def State.attn (s : State) : Nat := Nat.lor (s.reg 0x18) s.heldAttn

/-- Reasons newly pending since `old`: a NOTIFY and a descriptor (R378). A descriptor that is lost raises RINGOVF in turn; the fuel bounds that. [DESIGN CHOICE, log 29] -/
def State.attnStep : Nat → Nat → State → State
  | 0, _, s => s
  | n + 1, old, s =>
    let now := s.attn
    let new := maskIn now old 0
    if new = 0 then s
    else
      let s := if s.gb F.MBX_ATTNCFG_NOTEN then s.askNotify 256 else s
      if s.gb F.MBX_ATTNCFG_RINGEN then
        State.attnStep n now (s.post (s.g F.MBX_ATTNCFG_RING) DT.ATTN_CHANGE 0 (leBytes 4 now ++ leBytes 4 new ++ leBytes 1 (devCode s.dev) ++ leBytes 7 0))
      else s

/-- Announce the reasons that have become pending since the last time (R378): after every command, and within one before software clears a reason, after each pair of a REGBATCH and
after each supervisor action. [DESIGN CHOICE, log 29] -/
def State.announce (s : State) : State :=
  let s := s.attnStep 3 s.mbx.attnSeen
  { s with mbx := { s.mbx with attnSeen := s.attn } }

/-- A position as the registers show it: sign-extended to 64 bits (R127). -/
def pos64 (p : Int) : Nat := toBits 64 p

/-- The position that POS_ZLAT shows: of the encoder that SRC selects, of encoder 0 for a follower. [DEDUCED, log 105] -/
def State.zlatNow (s : State) : Int := (s.enc (if s.g F.POS_CTL_SRC = 1 then 1 else 0)).zlat

/-- Quire-data frames that wait at ingress (R46). [DEDUCED, log 51] -/
def State.qdHeld (s : State) : List (Nat × Frame) :=
  s.spn.inbox.filter fun x => x.2.ty == FT.QD && (s.ingressFrame x.1 x.2).isNone

/-- Whether a held quire waits for store pages (R46). -/
def State.stShort (s : State) : Bool :=
  s.qdHeld.any fun x =>
    let b := (match s.qre.slots.find? fun y => y.src == x.2.src && !x.2.soq with | some y => y.buf | none => []) ++ x.2.payload
    decide (32 ≤ b.length) && (s.allocPages (cdiv (40 + (parseQHdr b).clen) 4096)).isNone

/-- Whether VL2 credit is being withheld on some port: a frame is held, or ingress is closed (R71, R413) with a port up. [DEDUCED, log 51] -/
def State.vl2Blocked (s : State) : Bool :=
  !s.qdHeld.isEmpty || ((!s.gb F.QRE_CTL_ACCEPT || s.dev == .fault) && (List.range 4).any fun p => (s.port p).stage == .active)

/-- QRE_STS. [DEDUCED, log 51] -/
def State.qreSts (s : State) : Nat :=
  s.rsOut * 65536 + 8 * b2n (decide (4096 ≤ s.openSigs.length)) + 4 * b2n (decide (s.dirMax ≤ s.dirUsed)) + 2 * b2n s.stShort + b2n s.vl2Blocked

/-- QRE_CTXSTSc. [DEDUCED, log 51] -/
def State.ctxSts (s : State) (c : Nat) : Nat :=
  let here := s.qre.dir.filter fun q => q.ctx == c
  let bpn := if s.qre.started then s.sigBpn (s.g F.QRE_SIGCUR_NUM) c else 0
  spGet 0 s.qre.issued c * 2 ^ 24 + satN 4095 (s.ctxLead c) * 4096 + bpn % 4 * 256 + (s.engineQueue (c / 4)).countP (fun q => q.ctx == c) * 32
    + 16 * b2n (here.any fun q => q.st == .resend) + 8 * b2n (here.any fun q => q.st == .inflating)

/-- A follower state's code (R157). -/
def folCode : Fol → Nat
  | .notFollower => 0 | .acq => 1 | .locked => 2 | .extrap => 3 | .hold => 4

/-- A subchannel state's code (R323). -/
def scCode : ScState → Nat
  | .absent => 0 | .init => 1 | .filling => 2 | .training => 3 | .active => 4 | .retired => 5

/-- MEM_SCi_STS. -/
def State.scSts (s : State) (i : Nat) : Nat :=
  let q := s.sc i
  let rate (k : Nat) : Nat := let f := q.rate.getD k 1; if f = 4 then 2 else f - 1
  scCode q.st * 2 ^ 28 + rate 0 * 2 ^ 22 + rate 1 * 2 ^ 20 + q.owed.getD 0 0 % 8 * 65536 + q.owed.getD 1 0 % 8 * 4096

/-- SPN_PSTS. -/
def State.portSts (s : State) (p : Nat) : Nat :=
  let q := s.port p
  stageCode q.stage * 2 ^ 28 + q.width % 4 * 2 ^ 26 + b2n q.mgmtOnly * 2 ^ 24 + q.laneRet % 16 * 2 ^ 20 + q.lanesAct % 16 * 2 ^ 16

/-- SMT_MSTSm. -/
def machSts (x : SmtMach) : Nat :=
  x.state % 64 * 2 ^ 26 + b2n x.cf * 2 ^ 25 + b2n x.timer.isSome * 2 ^ 24 + x.lastAct % 256 * 2 ^ 16 + b2n x.held.isSome * 2 ^ 15
    + x.held.getD 0 % 64 * 512 + x.lastEv % 32

/-- The word of a machine register at an offset. -/
def State.machWord (s : State) (m o : Nat) : Option Nat :=
  let x := s.mach m
  if o = 0 then some (machSts x)
  else if o = 4 then some x.pend
  else if o = 8 then some x.param
  else if o = 12 then some (match x.timer with | some t => satN 0xFFFFFFFF (cdiv (t - s.ns) 1000) | none => 0)
  else if o = 16 then some x.cnt
  else none

/-- The registers that a status shows and nothing stores: in the blocks GLB to TMB. -/
def State.shownLow (s : State) (a : Nat) : Option Nat :=
  if a = 4 then some (s.fuses.grade % 4 * 256 + s.fuses.major % 16 * 16 + s.fuses.minor % 16)
  else if a = 0x14 then some (devCode s.prev * 256 + 16 * b2n s.hrb + devCode s.dev)
  else if a = 0x18 then some s.attn
  else if 0x30 ≤ a ∧ a ≤ 0x3C then some (leAt s.fuses.uid (a - 0x30) 4)
  else if a = 0x1001C then some (b2n s.fuses.keyHash.isSome)
  else if a = 0x20008 then some s.qreSts
  else if a = 0x2000C then some s.sRing
  else if a = 0x2002C then some s.stFree
  else if 0x21000 ≤ a ∧ a < 0x21200 then some (s.ctxSts ((a - 0x21000) / 4))
  else if a = 0x50004 then some (putBits (putBits (s.reg a) 10 8 (folCode s.folSt)) 1 1 (b2n s.isRev))
  else if a = 0x50040 then some (pos64 s.posNow % 2 ^ 32)
  else if a = 0x50044 then some s.tmb.posHi
  else if a = 0x50048 then some (pos64 s.zlatNow % 2 ^ 32)
  else if a = 0x5004C then some s.tmb.zlatHi
  else if a = 0x50050 then some (pos64 s.pos.sigPos % 2 ^ 32)
  else if a = 0x50054 then some s.tmb.sigposHi
  else if a = 0x60004 then some (putBits (s.reg a) 1 1 (b2n s.locked))
  else if a = 0x60008 then some (s.now % 2 ^ 32)
  else if a = 0x6000C then some s.tmb.nowHi
  else if a = 0x60010 then some s.tmb.epochLatch
  else none

/-- The same in the blocks THL to SMT. -/
def State.shownHigh (s : State) (a : Nat) : Option Nat :=
  if 0x80000 ≤ a ∧ a < 0x100000 ∧ a % 0x4000 = 0x1C then some (s.eqNow ((a - 0x80000) / 0x4000))
  else if 0x140100 ≤ a ∧ a < 0x140180 ∧ a % 0x20 = 0 then some (s.scSts ((a - 0x140100) / 0x20))
  else if a = 0x181008 then
    some (s.spn.tags.length % 2048 * 65536 + 4 * b2n s.spn.quarOwn + 2 * b2n (decide (1024 ≤ s.spn.tags.length)) + b2n s.spn.discBusy)
  else if 0x180000 ≤ a ∧ a < 0x190000 ∧ a % 0x4000 = 4 then some (s.portSts ((a - 0x180000) / 0x4000))
  else if 0x180000 ≤ a ∧ a < 0x190000 ∧ a % 0x4000 = 0x2C then
    let q := s.port ((a - 0x180000) / 0x4000)
    some (sumL ((List.range 4).map fun v => satN 255 (credHeld q v) * 2 ^ (8 * v)))
  else if a = 0x1C0000 then some s.mbx.postq.length
  else if 0x1C1000 ≤ a ∧ a < 0x1C3000 ∧ a % 0x80 = 0x4C then some (s.ageUs ((a - 0x1C1000) / 0x80))
  else if 0x1C4000 ≤ a ∧ a < 0x1C5000 ∧ a % 0x20 = 0x14 then
    let n := (a - 0x1C4000) / 0x20
    some (putBits (s.reg a) 30 30 (b2n (s.gb (F.MBX_RG_CFG_EN n) && s.ringSize n != 0 && decide (s.ringSize n ≤ s.ringUsed n))))
  else if a = 0x1D0004 then
    some (s.g F.ERR_STS_FIRSTV * 2 ^ 31 + b2n s.err.inj.isSome * 2 ^ 30 + s.logCount % 512 * 65536 + s.err.opened.length % 64)
  else if a = 0x1E0004 then some (sumL ((List.range 16).map fun m => if (s.mach m).pend ≠ 0 then 2 ^ m else 0))
  else if 0x1E0800 ≤ a ∧ a < 0x1E0C00 then s.machWord ((a - 0x1E0800) / 0x40) (a % 0x40)
  else none

/-- A register's defined bits: what its fields read as, WO fields as 0 (R7). [DEDUCED, log 14, 100] -/
def State.regVal (s : State) (a : Nat) : Nat :=
  let v := match (if a < 0x80000 then s.shownLow a else s.shownHigh a) with
    | some v => v
    | none => s.reg a
  maskIn 0 (regMask a fun x => x.acc != .wo) v

/-- The value at an address without the side effects of a read (R397). [DESIGN CHOICE, log 77] -/
def State.seen (s : State) (a : Nat) : Nat :=
  if inLog a then (s.logRead ((a - 0x1D8000) / 32) (a % 32 / 4)).1
  else match lockOf a with
    | some i => lockValue (s.lock i)
    | none =>
      match windowOf a with
      | some _ => if 0x800000 ≤ a then (s.statRead ((a - 0x800000) / 24) ((a - 0x800000) % 24 / 4)).1 else s.winWord a
      | none => maskIn (Config.reservedBits s.free).toNat (regMask a fun _ => true) (s.regVal a)

/-! ## Reads -/

/-- The latches of R146; a read of an equaliser's state uses up a second free value. [DEDUCED, log 105] -/
def State.latchRead (s : State) (a : Nat) : State :=
  if a = 0x60008 then s.modTmb fun x => { x with nowHi := s.now / 2 ^ 32, epochLatch := s.epoch }
  else if a = 0x50040 then s.modTmb fun x => { x with posHi := pos64 s.posNow / 2 ^ 32 }
  else if a = 0x50048 then s.modTmb fun x => { x with zlatHi := pos64 s.zlatNow / 2 ^ 32 }
  else if a = 0x50050 then s.modTmb fun x => { x with sigposHi := pos64 s.pos.sigPos / 2 ^ 32 }
  else if 0x80000 ≤ a ∧ a < 0x100000 ∧ a % 0x4000 = 0x1C then { s with free := s.free + 1 }
  else s

/-- RC fields return to their reset value (R7). -/
def State.clearRc (s : State) (a : Nat) : State :=
  let m := regMask a fun x => x.acc == .rc
  if m = 0 then s else s.setReg a (maskIn (s.reg a) m (resetAt a).toNat)

/-- Whether no register access is made at all: without power, and from RESET until the PLLs lock (R441). [DEDUCED, log 21] -/
def State.noAccess (s : State) : Bool :=
  s.dev == .off || (s.dev == .reset && (s.clo.step == .resetHeld || s.clo.step == .pll))

/-- A read by a source: its status, the word, and what the read changes. [DEDUCED, log 12, 21; DESIGN CHOICE, log 13] -/
def State.busRead (s : State) (src : Src) (a : Nat) : AccSt × Nat × State :=
  if a % 4 ≠ 0 then (.access, 0, s)
  else if !addrExists a || s.noAccess then (.unsup, 0, s)
  else if inLog a then let (v, s) := s.logRead ((a - 0x1D8000) / 32) (a % 32 / 4); (.ok, v, s)
  else match lockOf a with
    | some i => let (v, s) := s.lockTake i src; (.ok, v, s)
    | none =>
      match windowOf a with
      | some _ =>
        if 0x800000 ≤ a then let (v, s) := s.statRead ((a - 0x800000) / 24) ((a - 0x800000) % 24 / 4); (.ok, v, s)
        else (.ok, s.winWord a, s)
      | none => (.ok, s.seen a, { ((s.latchRead a).clearRc a) with free := s.free + 1 })

/-! ## What a write starts -/

/-- SMT_DEVREQ.CUT (R406): in HOLD the current signature ends at the next line boundary; the acting primary forwards the cut. [DEDUCED, log 58] -/
def State.cutSig (s : State) : State :=
  if s.endpaper then s
  else if s.primary then s.regForward F.SMT_DEVREQ_CUT.addr 8 8
  else s.modCur fun c => { c with cut := !c.ended }

/-- SMT_DEVREQ. [DEDUCED, log 78] -/
def State.devReq (s : State) (src : Src) (w : Nat) : State :=
  let s := if bitOf w 0 then s.raise SEv.REQ_RUN 0 else s
  let s := if bitOf w 1 then s.raise SEv.REQ_HOLD 0 else s
  let s := if bitOf w 2 then s.raise SEv.REQ_STOP 0 else s
  if bitOf w 3 then (if s.dev == .hold && !s.standby then s.cutSig else s.recReg E.SMT_CMD F.SMT_DEVREQ_CUT.addr src) else s

/-- Whether a global event code is listed (R400). -/
def evListed (c : Nat) : Bool :=
  (decide (1 ≤ c) && decide (c ≤ 0x21)) || c == 0x30 || c == 0x31 || (decide (0x38 ≤ c) && decide (c ≤ 0x3B))

/-- SMT_EVCMD (R400, R415): a listed code is raised; one other than SW0 to SW3 is an injection (R431) and counts in both counters. [DEDUCED, log 124] -/
def State.evCmd (s : State) (w : Nat) : State :=
  let c := bitsOf w 29 24
  if bitOf w 31 && evListed c then
    let s := if 0x38 ≤ c then s else (s.inc F.SMT_CNT_INJ_COUNT).inc F.ERR_CNT_INJ_COUNT
    s.raise c (w % 65536)
  else s

/-- Effects of writes in the blocks CLO to TMB. `old` is the register before the write. -/
def State.startLow (s : State) (src : Src) (a w old : Nat) : State :=
  if a = 0x10004 then s.cloCmd src w
  else if a = 0x10040 then (if bitOf w 31 then s.flashGo else s)
  else if a = 0x20000 then s.rsOff
  else if 0x20010 ≤ a ∧ a < 0x20020 then (if s.reg a ≠ old then s.divideRings else s)
  else if a = 0x20034 then (if s.reg a ≠ old then s.sigbaseChanged else s)
  else if a = 0x20040 then (if w % 4 = 1 then s.sigAbort src else s)
  else if a = 0x40020 then s.cutClear w
  else if a = 0x50008 then s.posCmd src w
  else if a = 0x60034 then (if bitOf w 0 then s.tbSet src else s)
  else s

/-- Effects of writes in the blocks THL to MEM. -/
def State.startMid (s : State) (src : Src) (a w old : Nat) : State :=
  if 0x80000 ≤ a ∧ a < 0x100000 then
    let m := (a - 0x80000) / 0x4000
    let o := a % 0x4000
    if o = 0 then s.laneEnable m (bitsOf old (F.THL_CTL_EN 0).hi (F.THL_CTL_EN 0).lo == 1)
    else if o = 0x18 then (if bitOf (s.reg a) 0 && !bitOf old 0 then s.eqFreeze m else s)
    else if o = 0x20 then (if bitOf w (F.THL_PRBS_INJ1 0).lo then s.prbsInj1 m else s)
    else if o = 0x28 then s.thlInj m w
    else if o = 0x2C then s.thlCmd m src w
    else s
  else if a = 0x100008 then s.nzhCmd src w
  else if a = 0x100040 then (if bitOf w 31 then s.nzhInjArm else s)
  else if a = 0x110008 then s.insCmd src w
  else if a = 0x110018 then s.insInj (bitsOf w 5 4) w
  else if 0x110100 ≤ a ∧ a < 0x110500 ∧ a % 0x80 = 0 then (if bitOf (s.reg a) 17 ≠ bitOf old 17 then (s.noteWrite a).bankChanged ((a - 0x110100) / 0x80) else s.noteWrite a)
  else if 0x110100 ≤ a ∧ a < 0x110500 ∧ a % 0x80 = 0x40 then s.noteWrite a
  else if a = 0x120008 then s.calCmd src w
  else if a = 0x12001C then (if bitOf w 31 then s.modCal fun x => { x with inj := true } else s)
  else if a = 0x130008 then s.folCmd src w
  else if a = 0x130024 then s.folInj w
  else if a = 0x140024 then s.memCmd src w
  else if a = 0x140028 then s.memStatus
  else if a = 0x14002C then s.memInj w
  else s

/-- Effects of writes in the blocks SPN to SMT. `via` is the Spine port that the write came through. -/
def State.startHigh (s : State) (src : Src) (via : Option Nat) (a w old : Nat) : State :=
  if a = 0x181000 then (if bitOf w 0 then s.discGo else s)
  else if a = 0x181014 then s.spnQcmd src w
  else if a = 0x181018 then s.spnInj w
  else if 0x180000 ≤ a ∧ a < 0x190000 then
    let p := (a - 0x180000) / 0x4000
    let o := a % 0x4000
    if o = 0 then (if devCode s.dev < 4 then s else s.spnEnable p (bitOf old 0))
    else if o = 0x14 then (if bitOf w 6 then s.spnPrbsInj p else s)
    else if o = 0x28 then s.spnPcmd p src via w
    else s
  else if a = 0x1C0008 then s.lockCmd w
  else if 0x1C4000 ≤ a ∧ a < 0x1C5000 ∧ a % 0x20 = 8 then
    (if bitOf (s.reg a) 31 && !bitOf old 31 then s.ringEnabled ((a - 0x1C4000) / 0x20) else s)
  else if a = 0x1D0014 then s.errCmd w
  else if a = 0x1D0018 then (if bitOf w 31 then s.injArm (bitsOf (s.reg a) 30 24) (bitsOf (s.reg a) 23 16) (s.reg a % 65536) else s)
  else if a = 0x1E0008 then s.evCmd w
  else if a = 0x1E000C then s.devReq src w
  else if 0x1E0800 ≤ a ∧ a < 0x1E0C00 ∧ a % 0x40 = 4 then
    s.modMach ((a - 0x1E0800) / 0x40) fun x => { x with pend := maskIn x.pend w 0 }
  else s

/-- What a write starts once the register's fields are written. -/
def State.started (s : State) (src : Src) (via : Option Nat) (a w old : Nat) : State :=
  if a < 0x80000 then s.startLow src a w old
  else if a < 0x180000 then s.startMid src a w old
  else s.startHigh src via a w old

/-! ## Writes -/

/-- A class violation (R12). [DEDUCED, log 18] -/
def State.classRec (s : State) (src : Src) (a : Nat) : State := s.recReg E.ERR_CLASS a src

/-- A write to a table window (R435, R436). [DEDUCED, log 19] -/
def State.writeWindow (s : State) (src : Src) (a w : Nat) (win : Nat × Nat × Bool) : AccSt × State :=
  if win.1 = 0x400000 then (.ok, (s.mapWrite a w src).2)
  else if !win.2.2 then (.access, s)
  else if win.1 = 0x580000 ∨ s.dev = .standby ∨ (src = .loader ∧ s.dev = .load) then (.ok, s.setWin a w)
  else (.access, s.classRec src a)

/-- The fields of a register take a written word (R7, R12, R16, R270): the status, and the state before the write starts anything. -/
def State.writeFields (s : State) (src : Src) (a w : Nat) : AccSt × State :=
  let old := s.reg a
  let free := s.dev == .standby || (src == .loader && s.dev == .load)
  let viol := !free && maskIn old (regMask a isS) w != old
  let bl := regMask a isBL
  let s := if viol then s.classRec src a else s
  let st := if viol then AccSt.access else AccSt.ok
  let v := maskIn (if free then maskIn old (regMask a isS) w else old) bl w
  if s.running && s.member && pairReg a && bl != 0 then
    if s.standby then (st, s.recReg E.FOL_WRITE a src)
    else (st, (s.regForward a bl w).valueRecs src a v)
  else
    let s := if v = old then s else s.setReg a v
    let s := if s.dev = .standby then [Cls.bLine, Cls.bQuire, Cls.bSig, Cls.bSwath].foldl (fun s c => s.copyAt c a) s else s
    let s := s.addrWrote a
    (st, s.valueRecs src a v)

/-- Registers of a mailbox channel (R359, R360). -/
def State.writeChan (s : State) (src : Src) (via : Option Nat) (c o a w : Nat) : AccSt × State :=
  let busy := s.chPending c || s.chAccepted c
  if o = 0x48 then let (ok, s) := s.ownerWrite c src w; (if ok then .ok else .access, s)
  else if o < 0x40 then (if busy || !s.isOwner c src then (.access, s) else (.ok, s.setReg a w))
  else if o = 0x40 then
    if !s.isOwner c src ∨ (busy ∧ bitOf w 0) then (.access, s)
    else
      let s := s.setReg a (maskIn (s.reg a) (regMask a fun x => x.acc == .rw) w)
      let s := if bitOf w 1 then s.msgWithdraw c else s
      (.ok, if bitOf w 0 then s.msgStart c src via else s)
  else (.ok, s)

/-- A write to a register. -/
def State.writeReg (s : State) (src : Src) (via : Option Nat) (a w : Nat) : AccSt × State :=
  if a = 0x18 then
    let s := s.announce
    (.ok, (s.setReg a (maskIn (s.reg a) w 0)).announce)
  else if a = 0x60014 ∧ s.follower then (.ok, s)
  else if a = 0x140028 ∧ s.dev ≠ .standby then
    (.ok, s.recReg E.MEM_CMD F.MEM_TEST_BYPASS.addr src)
  else if 0x1C1000 ≤ a ∧ a < 0x1C3000 then s.writeChan src via ((a - 0x1C1000) / 0x80) (a % 0x80) a w
  else if 0x1C4000 ≤ a ∧ a < 0x1C5000 ∧ a % 0x20 = 0x10 then (.ok, s.ringTail ((a - 0x1C4000) / 0x20) src w)
  else if a = 0x1D000C then (.ok, s.errTail src w)
  else
    let old := s.reg a
    let (st, s) := s.writeFields src a w
    (st, s.started src via a w old)

/-- One write by a source, without what mailbox messages it releases: its status and what it changes. [DEDUCED, log 21] -/
def State.writeAt (s : State) (src : Src) (via : Option Nat) (a w : Nat) : AccSt × State :=
  if a % 4 ≠ 0 then (.access, s)
  else if !addrExists a || s.noAccess then (.unsup, s)
  else if inLog a then (.ok, s)
  else match lockOf a with
    | some i => let (ok, s) := s.lockDrop i src; (if ok then .ok else .access, s)
    | none =>
      match windowOf a with
      | some x => s.writeWindow src a w x
      | none => s.writeReg src via a w

/-! ## Messages that the controller takes at once (R362) -/

/-- The pairs of a REGBATCH from pair i on, through the path by which GO came: the index of the first failing one. -/
def State.batch (go : Src × Option Nat) (c : Nat) : Nat → Nat → State → Option Nat × State
  | 0, _, s => (none, s)
  | n + 1, i, s =>
    let (st, s) := s.writeAt go.1 go.2 (s.msg c (2 + 2 * i)) (s.msg c (3 + 2 * i))
    let s := s.announce
    if st = .ok then State.batch go c n (i + 1) s else (some i, s)

/-- Take channel c's PENDING message, of a class other than SUPERVISOR. -/
def State.takeMsg (s : State) (c : Nat) : State :=
  let k := s.msgClass c
  let n := s.msg c 0 % 65536
  if k = 3 then s.msgDone c 0 0 [s.msg c 1, s.msg c 2, s.msg c 3]
  else if k = 2 ∧ 1 ≤ n ∧ n ≤ 7 ∧ 2 + 2 * n ≤ s.g (F.MBX_CH_CTL_LEN c) then
    let s := s.chPut c false true false
    let (bad, s) := State.batch (spGet (.internal, none) s.mbx.goSrc c) c n 0 s
    match bad with
    | some i => s.msgDone c 2 i []
    | none => s.msgDone c 0 0 []
  else s.msgDone c 1 0 []

/-- Take the messages that are PENDING, channels ascending; the fuel bounds messages that REGBATCH pairs start in turn. -/
def State.drainMbx : Nat → State → State
  | 0, s => s
  | n + 1, s =>
    match (List.range 64).find? fun c => s.chPending c && s.msgClass c != 1 with
    | some c => State.drainMbx n (s.takeMsg c)
    | none => s

/-- A register write by a source, and the messages it releases. [DEDUCED, log 12] -/
def State.busWrite (s : State) (src : Src) (via : Option Nat) (a w : Nat) : AccSt × State :=
  let (st, s) := s.writeAt src via a w
  (st, s.drainMbx 64)

end Sys2Proof.Machine
end

