-- ==== Sys2Proof/Machine/EndpointOps.lean ====
section
/-!
DEFINITION. The internal endpoint of the switch: transactions (R344 to R347), attestation (R349), and the JTAG port (R441, R458, R459).
-/

namespace Sys2Proof.Machine

/-! ## Transactions (R344 to R347) -/

/-- Where a Spine address leads (R344). -/
inductive Target where
  | regs (a : Nat)
  | dram (a : Nat)
  | none
  deriving DecidableEq, Repr

/-- Decode a Spine address. -/
def targetOf (a : Nat) : Target :=
  if a < 2 ^ 24 then .regs a
  else if 0x1000000000 ≤ a ∧ a < 0x2000000000 then .dram (a - 0x1000000000)
  else .none

/-- Whether a DRAM-window access keeps R344: a length, and no 4 KiB boundary inside. -/
def windowFits (a n : Nat) : Bool := decide (0 < n) && decide (a / 4096 = (a + n - 1) / 4096)

/-- The port that a frame came through, for a command that names it (R353). -/
def viaPort (p : Nat) : Option Nat := if p < 4 then some p else none

/-- Answer a request. -/
def State.respond (s : State) (p : Nat) (f : Frame) (st : AccSt) (data : Bytes) : State := s.send (s.answer p f FT.RESP (accCode st) data)

/-- A request that the endpoint executes (R346). -/
def isRequest (f : Frame) : Bool := f.ty == FT.RD_REQ || f.ty == FT.WR_REQ || f.ty == FT.WR_POST || f.ty == FT.ATTEST_REQ

/-- Whether a request that arrived before on the same VL still waits (R346). -/
def State.reqBehind (s : State) (p : Nat) (f : Frame) : Bool :=
  (s.spn.inbox.find? fun x => isRequest x.2 && x.2.vl == f.vl).any fun x => x != (p, f)

/-- Execute a request in its turn: one that must wait joins the endpoint's queue (R346). [DEDUCED, log 92] -/
def State.inTurn (s : State) (p : Nat) (f : Frame) (g : State → State) : State :=
  if s.refuses p f then s.filtered p f
  else if s.reqBehind p f then (if s.spn.inbox.contains (p, f) then s else s.deliver p f) else g s

/-- RD_REQ. A RETIRED device answers register and management traffic only (R285). [DEDUCED, log 21, 92] -/
def State.rdReq (s : State) (p : Nat) (f : Frame) : State := s.inTurn p f fun s =>
  let s := s.consume p f
  let b := txnBody f
  let n := leAt b 8 2
  match targetOf (leAt b 0 8) with
  | .regs a =>
    if f.vl ≠ 1 ∨ n ≠ 4 then s.respond p f .access []
    else
      let (st, v, s) := s.busRead (.spine f.src) a
      s.respond p f st (if st = .ok then leBytes 4 v else [])
  | .dram a =>
    if s.dev = .retired then s
    else if n ≤ 1024 ∧ windowFits a n then
      match s.dramRead a n 4 f.src with
      | (some d, s) => s.respond p f .ok d
      | (none, s) => s.respond p f .ue []
    else s.respond p f .access []
  | .none => s.respond p f .unsup []

/-- What WR_REQ and WR_POST do: the status, and the state. -/
def State.txnWrite (s : State) (p : Nat) (f : Frame) : Option AccSt × State :=
  let b := txnBody f
  let data := b.drop 8
  match targetOf (leAt b 0 8) with
  | .regs a =>
    if f.vl ≠ 1 ∨ data.length ≠ 4 then (some .access, s)
    else let (st, s) := s.busWrite (.spine f.src) (viaPort p) a (leAt data 0 4); (some st, s)
  | .dram a =>
    if s.dev = .retired then (none, s)
    else if windowFits a data.length then let (ok, s) := s.dramWrite a data 4 f.src; (some (if ok then .ok else .ue), s)
    else (some .access, s)
  | .none => (some .unsup, s)

/-- WR_REQ: the write, then its response. [DEDUCED, log 92] -/
def State.wrReq (s : State) (p : Nat) (f : Frame) : State := s.inTurn p f fun s =>
  let (st, s) := (s.consume p f).txnWrite p f
  match st with
  | some st => s.respond p f st []
  | none => s

/-- WR_POST: the write alone. -/
def State.wrPost (s : State) (p : Nat) (f : Frame) : State := s.inTurn p f fun s => ((s.consume p f).txnWrite p f).2

/-- A non-posted request of the controller's own takes a free tag and its generation and leaves, or waits for one (R29, R347). [DEDUCED, log 93] -/
def State.originate (s : State) (f : Frame) : State :=
  match (List.range 1024).find? fun t => !s.spn.tags.any fun x => x.1 == t with
  | some t =>
    let g := spGet 0 s.spn.gens t
    { s with spn := { s.spn with tags := s.spn.tags ++ [(t, g)] } }.send { f with tag := t, gen := g }
  | none => { s with spn := { s.spn with waits := s.spn.waits ++ [f] } }

/-- A request is completed to its requester, with its response or (none) a timeout; the freed tag goes to the first request that waits (R29, R347). [DEDUCED, log 93] -/
def State.tagFree (s : State) (tag : Nat) (r : Option Frame) : State :=
  let s := { s with spn := { s.spn with tags := s.spn.tags.filter fun x => x.1 != tag } }.emit (.completed tag r)
  match s.spn.waits with
  | f :: ws => { s with spn := { s.spn with waits := ws } }.originate f
  | [] => s

/-- A response (R347): an injected discard, a match by tag and generation, or a late one. [DEDUCED, log 93] -/
def State.respIn (s : State) (p : Nat) (f : Frame) : State :=
  let s := s.consume p f
  if s.injAny 0x17 then s.injUse
  else if s.spn.tags.contains (f.tag, f.gen) then s.tagFree f.tag (some f)
  else s.inc F.SPN_CNT_LATERESP_COUNT

/-- No response within CTO. [DEDUCED, log 93] -/
def State.tagTimeout (s : State) (tag : Nat) : State :=
  if s.spn.tags.any fun x => x.1 == tag then
    ({ s with spn := { s.spn with gens := spSet 0 s.spn.gens tag ((spGet 0 s.spn.gens tag + 1) % 4) } }.inc F.SPN_CNT_CTO_COUNT).tagFree tag none
  else s

/-! ## Attestation (R349) -/

/-- ATTEST_REQ: signing starts, and counts at the endpoint's bound from then on (R346, R379), or the answer is BUSY. [DEDUCED, log 92] -/
def State.attestReq (s : State) (p : Nat) (f : Frame) : State := s.inTurn p f fun s =>
  if s.spn.attest.isSome then (s.consume p f).respond p f .busy [] else { s with spn := { s.spn with attest := some (p, f) } }.consume p f

/-- Bytes 0 to 147 of ATTEST_RESP. [DESIGN CHOICE, log 107] -/
def State.attestBody (s : State) (challenge : Bytes) : Bytes :=
  slice challenge 0 32 ++ slice s.fuses.uid 0 16 ++ ecPub Config.attestKey ++ ((List.range 8).flatMap fun i => beBytes 4 (s.g (F.CLO_DIGEST_D i)))
    ++ leBytes 1 (devCode s.dev) ++ leBytes 3 0

/-- Signing ends: ATTEST_RESP leaves. The nonce of the signature is a free value. -/
def State.attestDone (s : State) : State :=
  match s.spn.attest with
  | none => s
  | some (p, f) =>
    let b := s.attestBody (txnBody f)
    let sig := ecSign Config.attestKey (Config.attestNonce s.free) (sha256 b)
    let s := { s with free := s.free + 1, spn := { s.spn with attest := none } }.freeWithheld
    s.send (s.answer p f FT.ATTEST_RESP 0 (b ++ sig))

/-! ## JTAG (R441, R458, R459) -/

/-- Select an instruction: the scan puts out what Capture-IR has loaded (R458). EXTEST, CLAMP and HIGHZ hold the logic in RESET until RESET_N is next pulsed with another
instruction selected; the FEN balls follow. [DEDUCED, log 104] -/
def State.jtagIr (s : State) (i : Nat) (holds : Bool) : State :=
  let s := if holds && s.dev != .off && !(s.jtag.hold && s.dev == .reset) then s.enterReset else s
  let s := s.emit (.tdo 8 1)
  { s with jtag := { s.jtag with instr := i, hold := s.jtag.hold || holds } }.scanOut

/-- IDCODE's data register. [DEDUCED, log 104] -/
def State.idcode (s : State) : Nat := s.fuses.major % 16 * 2 ^ 28 + 0x7232 * 4096 + 0x335 * 2 + 1

/-- A scan of the bypass register: Capture-DR has loaded 0 (R458, IEEE 1149.1). [DEDUCED, log 104] -/
def State.bypassScan (s : State) : State := s.emit (.tdo 1 0)

/-- What Capture-DR loads with REGACC selected (R441): DONE reads 0 at the capture that follows an ignored START. [DEDUCED, log 104] -/
def JtagSt.capture (j : JtagSt) : Nat :=
  j.data.toNat + j.addr % 2 ^ 24 * 2 ^ 32 + b2n j.write * 2 ^ 56 + b2n (j.done && j.busy.isNone && !j.missed) * 2 ^ 64 + b2n j.err * 2 ^ 65

/-- Whether register accesses are made at all: not from RESET until the PLLs lock. -/
def State.jtagLive (s : State) : Bool := s.dev != .off && s.clo.step != .resetHeld && s.clo.step != .pll

/-- A scan of REGACC's data register ends in Update-DR: what it captured goes out, and a START begins an access unless one is in progress. [DEDUCED, log 104] -/
def State.regaccUpdate (s : State) (dr : Nat) : State :=
  let s := if s.jtag.instr = 0x20 then s else s.jtagIr 0x20 false
  let s := s.emit (.tdo 66 s.jtag.capture)
  let s := { s with jtag := { s.jtag with missed := bitOf dr 57 && s.jtag.busy.isSome } }
  if bitOf dr 57 && s.jtag.busy.isNone && s.jtagLive then
    { s with jtag := { s.jtag with busy := some (bitOf dr 56, bitsOf dr 55 32, BitVec.ofNat 32 dr), done := false } }
  else s

/-- The access in progress is made, as source JTAG; it passes the management-only filter. [DEDUCED, log 81] -/
def State.regaccDone (s : State) : State :=
  match s.jtag.busy with
  | none => s
  | some (wr, a, d) =>
    let s := { s with jtag := { s.jtag with busy := none } }
    let (st, v, s) := if wr then let (st, s) := s.busWrite .jtag none a d.toNat; (st, 0, s) else s.busRead .jtag a
    { s with jtag := { s.jtag with data := BitVec.ofNat 32 v, addr := a, write := wr, done := s.jtagLive, err := st != .ok } }

/-- The hottest of the on-die sensors has been converted (R438). -/
def State.tjSample (s : State) (t : Nat) : State :=
  if s.dev == .off || s.dev == .reset then s else (s.p F.GLB_TJ_VALID 1).p F.GLB_TJ_TEMP t

end Sys2Proof.Machine
end

