-- ==== Sys2Proof/Machine/SupervisorOps.lean ====
section
/-!
DEFINITION. The supervisor: guards, actions and rounds (R395 to R406).
-/

namespace Sys2Proof.Machine

/-! ## Entries and guards (R396, R397) -/

/-- The transition entry of machine m for state st and local event e; a poisoned one reads as unhandled (R430). -/
def State.smtEntry (s : State) (m st e : Nat) : Nat :=
  let a := 0x540000 + 8192 * m + 128 * st + 4 * e
  if s.addrBad a then 0 else s.winWord a

/-- The value of guard word g. [DESIGN CHOICE, log 77] -/
def State.guardTrue (s : State) (g : Nat) : Bool :=
  let w := s.reg (0x1E0100 + 4 * g)
  xor (bitOf (s.seen (4 * (w % 2 ^ 22))) (bitsOf w 29 25)) (bitOf w 30)

/-- DEFER of guard word g. -/
def State.guardDefer (s : State) (g : Nat) : Bool := bitOf (s.reg (0x1E0100 + 4 * g)) 31

/-! ## Actions (R401 to R406) -/

/-- Set machine m's CF. -/
def State.cf (s : State) (m : Nat) (v : Bool) : State := s.modMach m fun x => { x with cf := v, waits := none }

/-- CF after an accepted action: 1 where the device has come to the state it asks for; else 0, and 1 once it has (R401). [DEDUCED, log 75] -/
def State.cfAt (s : State) (m : Nat) (d : Dev) : State := if s.dev = d then s.cf m true else s.modMach m fun x => { x with cf := false, waits := some d }

/-- A rejected action. [DEDUCED, log 75] -/
def State.rejectAct (s : State) (m : Nat) : State :=
  ((s.cf m false).inc F.SMT_CNT_ACTREJ_COUNT).record { c := E.SMT_ACTREJ, inst := m, stays := true }

/-- Scratch word k of machine m. -/
def State.scr (s : State) (m k : Nat) : Nat := s.g (F.SMT_MSCR_WORD m k)

/-- Set it. -/
def State.setScr (s : State) (m k v : Nat) : State := s.p (F.SMT_MSCR_WORD m k) v

/-- DEV_RUN, DEV_HOLD and DEV_STANDBY on an acting standby: ask the peer (R404). -/
def State.askPeer (s : State) (m : Nat) (d : Dev) : State := (s.folState (devCode d)).cf m false

/-- DEV_RUN. -/
def State.actRun (s : State) (m : Nat) : State :=
  match s.dev with
  | .standby =>
    if s.standby then s.rejectAct m
    else if s.member then let (ok, s) := s.runAsk; if ok then s.cfAt m .run else s.cf m false
    else
      let (ok, s) := s.attempt
      if ok then (s.enterRun 0).cf m true else s.cf m false
  | .hold => if s.standby then s.askPeer m .run else (s.holdTo false).cfAt m .run
  | _ => s.rejectAct m

/-- DEV_HOLD. -/
def State.actHold (s : State) (m : Nat) : State :=
  match s.dev with
  | .run => if s.standby then s.askPeer m .hold else (s.holdTo true).cfAt m .hold
  | _ => s.rejectAct m

/-- DEV_STANDBY; not after R393. [DEDUCED, log 37] -/
def State.actStandby (s : State) (m : Nat) : State :=
  if (s.dev == .run || s.dev == .hold || s.dev == .fault) && !s.gb F.CLO_STS_RECOVERY then
    (if s.standby then s.askPeer m .standby else s.standbyTo.cfAt m .standby)
  else s.rejectAct m

/-- DEV_FAULT. [DEDUCED, log 78] -/
def State.actFault (s : State) (m cause : Nat) : State :=
  if s.dev == .standby || s.dev == .run || s.dev == .hold then
    ((s.record { c := E.SMT_FAULT, inst := m, ctx := cause, handles := true }).goFault).cf m true
  else s.rejectAct m

/-- DEV_RETIRE. -/
def State.actRetire (s : State) (m : Nat) : State :=
  if s.member && (s.dev == .standby || s.dev == .run || s.dev == .hold || s.dev == .fault) then s.enterRetired.cf m true else s.rejectAct m

/-- SIG_CUT (R406). [DEDUCED, log 78] -/
def State.actCut (s : State) (m : Nat) : State := if s.dev == .hold && !s.standby then s.cutSig.cf m true else s.rejectAct m

/-- The latched reasons of R376. -/
def latchedMask : Nat := 0x24F2DD23

/-- ATTN: a latched reason only. -/
def State.actAttn (s : State) (m b : Nat) : State := if bitOf latchedMask b then s.latch b else s.rejectAct m

/-- The register address of write-list entry i (R402). -/
def State.wlAddr (s : State) (m i : Nat) : Nat :=
  let w := s.reg (0x1E1000 + 12 * i)
  bitsOf w 23 0 + (if bitOf w 28 then (s.mach m).param % 256 * 2 ^ bitsOf w 27 24 else 0)

/-- Whether a word of write-list entry i is poisoned (R430). -/
def State.wlBad (s : State) (i : Nat) : Bool := (List.range 3).any fun j => s.addrBad (0x1E1000 + 12 * i + 4 * j)

/-- Write write-list entry i for machine m. [DEDUCED, log 75] -/
def State.wlWrite (s : State) (m i : Nat) : State :=
  if s.dev == .reset || s.dev == .off then s
  else if s.wlBad i then s.rejectAct m
  else
    let a := s.wlAddr m i
    let mask := s.reg (0x1E1004 + 12 * i)
    let v := s.reg (0x1E1008 + 12 * i)
    if mask = 0xFFFFFFFF then (s.busWrite .internal none a v).2
    else
      let (st, old, s) := s.busRead .internal a
      if st = .ok then (s.busWrite .internal none a (maskIn old mask v)).2 else s

/-- WLIST: entries i on; none past the last. [DEDUCED, log 74] -/
def State.actWlist (s : State) (m i n : Nat) : State :=
  ((List.range (n + 1)).filter fun j => decide (i + j < 256)).foldl (fun s j => s.wlWrite m (i + j)) s

/-- SCR_READ. A failing read leaves the scratch word. [DEDUCED, log 74] -/
def State.actScrRead (s : State) (m k i : Nat) : State :=
  if s.wlBad i then s.rejectAct m
  else
    let (st, v, s) := s.busRead .internal (s.wlAddr m i)
    if st = .ok then s.setScr m k (maskIn 0 (s.reg (0x1E1004 + 12 * i)) v) else s

/-- TIMER. -/
def State.actTimer (s : State) (m unit n : Nat) : State :=
  let us := if unit = 0 then 1 else if unit = 1 then 10 else if unit = 2 then 1000 else 100000
  if n = 0 then
    s.modMach m fun x => { x with timer := none, pend := (List.range 32).foldl (fun v e => if s.evBound m e = SEv.TIMER then putBit v e false else v) x.pend }
  else s.modMach m fun x => { x with timer := some (s.ns + 1000 * n * us) }

/-- CNT_DEC: CNTZERO on the step to 0. [DEDUCED, log 75] -/
def State.actDec (s : State) (m : Nat) : State :=
  let c := (s.mach m).cnt
  let s := s.modMach m fun x => { x with cnt := c - 1, cf := decide (c ≤ 1) }
  if c = 1 then s.raiseTo m SEv.CNTZERO 0 else s

/-- The channels of a range with a PENDING SUPERVISOR message (R403). -/
def State.msgWaiting (s : State) (a b : Nat) : List Nat := (List.range 64).filter fun c => decide (a ≤ c) && decide (c ≤ b) && s.chPending c && s.msgClass c == 1

/-- MSG_TAKE. [DEDUCED, log 74] -/
def State.actTake (s : State) (m a b : Nat) : State :=
  match (s.mach m).held, s.msgWaiting a b with
  | none, c :: rest =>
    let s := (s.chPut c false true false).modMach m fun x => { x with held := some c, param := s.msg c 0 % 65536, cf := true }
    let s := (List.range 3).foldl (fun s k => s.setScr m k (s.msg c (k + 1))) s
    match rest with
    | d :: _ => s.raise SEv.MBX_MSG d
    | [] => s
  | _, _ => s.cf m false

/-- MSG_DONE. -/
def State.actDone (s : State) (m r : Nat) : State :=
  match (s.mach m).held with
  | some c => (s.modMach m fun x => { x with held := none }).msgDone c r 0 [s.scr m 0, s.scr m 1, s.scr m 2]
  | none => s.cf m false

/-- SIGNAL: to a machine that runs. [DEDUCED, log 74] -/
def State.actSignal (s : State) (m dest e : Nat) : State := if s.machOn dest then s.pendLocal dest e m else s

/-- Run action `act` with argument `x` on machine m. [DEDUCED, log 75] -/
def State.runAct (s : State) (m act x : Nat) : State :=
  match act with
  | 0x00 => s
  | 0x01 => s.actRun m
  | 0x02 => s.actHold m
  | 0x03 => s.actStandby m
  | 0x04 => s.actFault m x
  | 0x05 => s.actRetire m
  | 0x06 => s.actCut m
  | 0x08 => s.actAttn m (bitsOf x 5 0)
  | 0x09 => s.record { c := E.SMT_USER, inst := m, ctx := x }
  | 0x0A => s.post (bitsOf x 10 4) (0x50 + bitsOf x 3 0) 0 ((List.range 4).flatMap fun k => leBytes 4 (s.scr m k))
  | 0x10 => s.actWlist m (bitsOf x 7 0) (bitsOf x 11 8)
  | 0x11 => s.setScr m (bitsOf x 11 10) (bitsOf x 9 0)
  | 0x12 => s.setScr m (bitsOf x 1 0) (s.mach m).param
  | 0x13 => s.actScrRead m (bitsOf x 9 8) (bitsOf x 7 0)
  | 0x14 => s.cf m (s.scr m (bitsOf x 11 10) == bitsOf x 9 0)
  | 0x15 => s.cf m (bitOf x 0)
  | 0x18 => s.actTimer m (bitsOf x 11 10) (bitsOf x 9 0)
  | 0x19 => s.modMach m fun y => { y with cnt := x }
  | 0x1A => s.actDec m
  | 0x20 => s.actTake m (bitsOf x 5 0) (bitsOf x 11 6)
  | 0x21 => s.actDone m (bitsOf x 7 0)
  | 0x22 => let (v, s) := s.lockTake (bitsOf x 7 0) .internal; s.cf m (v == 0)
  | 0x23 => let (ok, s) := s.lockDrop (bitsOf x 7 0) .internal; if ok then s else s.cf m false
  | 0x28 => s.actSignal m (bitsOf x 11 8) (bitsOf x 4 0)
  | _ => s.rejectAct m

/-! ## Rounds (R398) -/

/-- Machine m takes local event e by entry w: the action, then the next state. -/
def State.takeEvent (s : State) (m e w : Nat) : State :=
  let act := bitsOf w 25 18
  let s := s.modMach m fun x => { x with pend := putBit x.pend e false, param := spGet 0 x.slots e, lastEv := e, lastAct := act }
  let s := (s.inc F.SMT_CNT_TRANS_COUNT).runAct m act (bitsOf w 17 6)
  let s := s.announce
  if s.dev = .reset ∨ s.dev = .off then s else s.modMach m fun x => { x with state := bitsOf w 31 26 }

/-- Machine m's part of a round: the first event, ascending, that it takes or consumes. -/
def State.serve (m : Nat) : List Nat → State → State
  | [], s => s
  | e :: es, s =>
    if !bitOf (s.mach m).pend e then State.serve m es s
    else
      let w := s.smtEntry m (s.mach m).state e
      let g := w % 64
      if g = 0 then State.serve m es s
      else
        let yes := g == 1 || s.guardTrue g
        let s := if 2 ≤ g then { s with free := s.free + 1 } else s
        if yes then s.takeEvent m e w
        else if s.guardDefer g then State.serve m es s
        else (s.modMach m fun x => { x with pend := putBit x.pend e false }).inc F.SMT_CNT_DROP_COUNT

/-- The local events of machine m that are pending. [DEDUCED, log 76] -/
def State.pendingOf (s : State) (m : Nat) : List Nat := (List.range 32).filter (bitOf (s.mach m).pend)

/-- One round: the machines ascending, each at most one of the events that are pending as the round begins; what actions raise is seen from the next round. It runs from the end of
LOAD on. [DEDUCED, log 76] -/
def State.round (s : State) : State :=
  (List.range 16).foldl (fun t m => if t.machOn m && decide (3 ≤ devCode t.dev) then State.serve m (s.pendingOf m) t else t) s

/-- Machine m's timer expires. -/
def State.timerOut (s : State) (m : Nat) : State :=
  if (s.mach m).timer.isSome then (s.modMach m fun x => { x with timer := none }).raiseTo m SEv.TIMER 0 else s

end Sys2Proof.Machine
end

