-- ==== Sys2Proof/Machine/Settle.lean ====
section
/-!
DEFINITION. What follows every command: messages taken at once (R362), what a change of the device state brings (R410 to R413), attention reasons
and HRB (R376 to R378), and the shape of a command's meaning.
-/

namespace Sys2Proof.Machine

/-! ## Notifications (R370, R378) -/

/-- Whether ring n (256: attention) may send a NOTIFY: MOD us have passed since its latest one, or 1 us for attention (R370, R378). -/
def State.notifyDue (s : State) (n : Nat) : Bool :=
  match spGet none s.mbx.notifyAt n with
  | some t => decide (t + 1000 * (if n = 256 then 1 else s.g (F.MBX_RG_CFG_MOD n)) ≤ s.ns)
  | none => true

/-- The NOTIFY that waits for ring n (256: attention) leaves. -/
def State.notifyOut (s : State) (n : Nat) : State :=
  if s.mbx.notify.contains n && s.notifyDue n then
    let s := { s with mbx := { s.mbx with notify := s.mbx.notify.filter fun x => x != n, notifyAt := spSet none s.mbx.notifyAt n (some s.ns) } }
    if n = 256 then s.sendNotify (s.g F.MBX_ATTNCFG_NODE) 0xFF 2 s.attn
    else s.sendNotify (s.g (F.MBX_RG_CFG_NODE n)) n 1 (s.g (F.MBX_RG_HEAD_INDEX n))
  else s

/-- The level that HRB takes (R18, R19): high in STANDBY and RUN with no reason pending. -/
def State.hrbHigh (s : State) : Bool := (s.dev == .standby || s.dev == .run) && s.attn == 0

/-- A driven level. -/
def Level.of (v : Bool) : Level := if v then .high else .low

/-- What a boundary-scan instruction makes of the output ball of cell c (R459): EXTEST and CLAMP drive it from the cell, HIGHZ leaves it undriven. The cells are taken in this order: FEN0
to FEN31, HRB, CTRIG0 to CTRIG3, LSTB0 to LSTB3, from 41 on the nine inputs of the position block, FOLIO_ROLE, RESET_N and PWRGOOD, from 53 the six SPI balls, from 59 the 320 DDR5 balls; the
rest stand for none. What this gives for a SPI or DDR5 output is the level of its ball in a test. [DESIGN CHOICE, log 141] -/
def State.cellBall (s : State) (c : Nat) : Option Level :=
  if s.scanDrives then some (.of (bitOf s.jtag.cells c)) else if s.jtag.hold && s.jtag.instr == 5 then some .z else none

/-- The level of the HRB ball (R18): not driven in OFF. -/
def State.hrbBall (s : State) : Level := if s.dev == .off then .z else (s.cellBall 32).getD (.of s.hrb)

/-- The level of a CTRIG or LSTB ball: high-impedance until the device leaves RESET (R450). -/
def State.trigBall (s : State) (c : Nat) (v : Bool) : Level := if s.dev == .off then .z else (s.cellBall c).getD (if s.dev == .reset then .z else .of v)

/-- The level of ball CTRIGk (R223, R450). -/
def State.ctrigBall (s : State) (k : Nat) : Level := s.trigBall (33 + k) (s.ctrig k).high

/-- The level of ball LSTBk (R223, R450). -/
def State.lstbBall (s : State) (k : Nat) : Level := s.trigBall (37 + k) (s.lstb k).high

/-- The level of the TDO ball (R454): a command is a whole scan, so between commands the TAP is in no Shift state. [DEDUCED, log 104] -/
def State.tdoBall (_ : State) : Level := .z

/-- The level of the ball of cell c: what drives it, else what the board gives it. [DESIGN CHOICE, log 141] -/
def State.ballBit (s : State) (pins c : Nat) : Bool :=
  let l := if c < 32 then s.fenBall c else if c = 32 then s.hrbBall else if c < 37 then s.ctrigBall (c - 33) else if c < 41 then s.lstbBall (c - 37) else (s.cellBall c).getD .z
  l == .high || (l == .z && bitOf pins c)

/-- A scan of the boundary register (R458, R459): what Capture-DR has loaded goes out, and Update-DR takes what has been shifted in; the FEN balls follow. [DESIGN CHOICE, log 141] -/
def State.boundaryScan (s : State) (scan : Option BScan) : State :=
  match scan with
  | none => s
  | some x =>
    let cap := sumL ((List.range 512).map fun c => b2n (s.ballBit x.pins.toNat c) * 2 ^ c)
    { s.emit (.tdo 512 cap) with jtag := { s.jtag with cells := x.dr.toNat } }.scanOut

/-- HRB follows (R377): once it has fallen it stays low for 1 us. [DEDUCED, log 79] -/
def State.hrbFollow (s0 s : State) : State :=
  let hi := s.hrbHigh
  if s0.hrb && !hi then { s with hrb := false, hrbFell := some s.ns }
  else
    let may := match s.hrbFell with
      | some t => decide (t + 1000 ≤ s.ns)
      | none => true
    { s with hrb := s0.hrb || (hi && may), hrbFell := if s0.hrb then none else if hi && may then none else s.hrbFell }

/-- 1 us has passed since HRB fell. [DEDUCED, log 79] -/
def State.hrbMinEnd (s : State) : State := { s with hrbFell := none }

/-! ## What a command's meaning is -/

/-- A command begins: nothing put out, and no block handles an error yet (R426). [DESIGN CHOICE, log 125] -/
def State.begun (s : State) : State := { s with out := [], err := { s.err with handling := [], joins := [] } }

/-- What follows the effect of a command on `s0` (R362, R377, R378, R409, R410, R413). [DESIGN CHOICE, log 10, 29] -/
def State.conclude (s0 s : State) : State :=
  let s := s.drainMbx 64
  let s := if s0.running && (s.dev == .fault || s.dev == .retired) then s.linesStop else s
  let s := s.stopNow.joinFlush
  let s := if s.dev == .train then s.leaveTrain else s
  let s := if s.standby && !s0.standby then s.calStandby else s
  let s := if s.member && ((s.dev == .fault && s0.dev != .fault) || (s0.member && s.standby != s0.standby)) then s.folState 0 else s
  State.hrbFollow s0 s.announce

/-- The state after a command on `s0` whose effect leads to `s`: what follows has happened, and the queue is as it was. [DESIGN CHOICE, log 10] -/
def State.after (s0 s : State) : State := { State.conclude s0 s with pending := s0.pending }

/-- A command with the effect `f`: it always completes. [DESIGN CHOICE, log 1; DEDUCED, log 11] -/
def State.does (s : State) (f : State → State) : Host.Outcome State Fault Refusal := .next (s.after (f s.begun))

/-- A register write as a command; the messages it releases are taken in what follows. -/
def State.wr (s : State) (src : Src) (a w : Nat) : State := (s.writeAt src none a w).2

/-- A register read as a command. -/
def State.rd (s : State) (src : Src) (a : Nat) : State := (s.busRead src a).2.2

/-- Write command bits to a register, its RW fields as they stand. -/
def State.strobe (s : State) (src : Src) (a bits : Nat) : State := s.wr src a (Nat.lor (maskIn 0 (regMask a fun x => x.acc == .rw) (s.reg a)) bits)

/-- Error symbols as the DRAM controller takes them. -/
def symbols (l : List (Fin 80 × Byte)) : List (Nat × Nat) := l.map fun x => (x.1.val, x.2.toNat)

end Sys2Proof.Machine
end

