-- ==== Sys2Proof/Machine/AccessCmds.lean ====
section
/-!
DEFINITION. Register accesses and JTAG (R6 to R17, R146, R242, R423, R434 to R441, R458, R459): one meaning a command, named exec and the constructor.
-/

namespace Sys2Proof.Machine

/-- R7: A register or table-window write without behaviour of its own is applied under its access code and class. -/
def execRegisterWrite (src : Src) (a : Word) (w : Word) (s : State) : Host.Outcome State Fault Refusal :=
  s.does fun s => s.wr src a.toNat w.toNat

/-- R7: A read of an RC field returns its value and resets it. -/
def execCounterReadClear (src : Src) (a : Word) (s : State) : Host.Outcome State Fault Refusal :=
  s.does fun s => s.rd src a.toNat

/-- R146: A read of a _LO timebase or position register latches its _HI register and the epoch. -/
def execTimebaseReadLatch (src : Src) (i : Fin 4) (s : State) : Host.Outcome State Fault Refusal :=
  s.does fun s => s.rd src (if i = 0 then 0x60008 else 0x50038 + 8 * i)

/-- R242: A read of word 0 of a statistics record latches words 1 to 5. -/
def execStatsRecordRead (src : Src) (q : Fin 131072) (s : State) : Host.Outcome State Fault Refusal :=
  s.does fun s => s.rd src (0x800000 + 24 * q)

/-- R423: A read of word 0 of a log entry latches words 1 to 7. -/
def execErrLogRead (src : Src) (i : Fin 256) (s : State) : Host.Outcome State Fault Refusal :=
  s.does fun s => s.rd src (0x1D8000 + 32 * i)

/-- R441: Update-DR of REGACC with START set begins one register access. -/
def execJtagRegaccUpdate (dr : BitVec 66) (s : State) : Host.Outcome State Fault Refusal :=
  s.does fun s => s.regaccUpdate dr.toNat

/-- R441: A JTAG register access completes and DONE and ERR are available at the next capture. -/
def execJtagRegaccDone (s : State) : Host.Outcome State Fault Refusal :=
  s.does fun s => s.regaccDone

/-- R459: EXTEST drives outputs from the boundary register and holds the logic in RESET. -/
def execJtagExtest (s : State) (scan : Option BScan := none) : Host.Outcome State Fault Refusal :=
  s.does fun s => (s.jtagIr 0 true).boundaryScan scan

/-- R458: SAMPLE/PRELOAD selects the boundary-scan register. -/
def execJtagSamplePreload (s : State) (scan : Option BScan := none) : Host.Outcome State Fault Refusal :=
  s.does fun s => (s.jtagIr 2 false).boundaryScan scan

/-- R459: CLAMP drives outputs from the boundary register with bypass selected and holds the logic in RESET. -/
def execJtagClamp (s : State) : Host.Outcome State Fault Refusal :=
  s.does fun s => (s.jtagIr 4 true).bypassScan

/-- R459: HIGHZ places every boundary-scan output high-impedance and holds the logic in RESET. -/
def execJtagHighz (s : State) : Host.Outcome State Fault Refusal :=
  s.does fun s => (s.jtagIr 5 true).bypassScan

/-- R458: IDCODE selects the 32-bit identification register. -/
def execJtagIdcode (s : State) : Host.Outcome State Fault Refusal :=
  s.does fun s => (s.jtagIr 1 false).emit (.tdo 32 s.idcode)

/-- R458: BYPASS, or any unlisted code, selects the 1-bit bypass register. -/
def execJtagBypass (s : State) : Host.Outcome State Fault Refusal :=
  s.does fun s => (s.jtagIr 0xFF false).bypassScan

/-- R25: The SRAM scrubber checks a word and corrects or poisons it. [DESIGN CHOICE, log 24, 25] -/
def execSramScrub (array : Fin 11) (word : Nat) (ue : Bool) (s : State) : Host.Outcome State Fault Refusal :=
  s.does fun s => s.sramWord array word ue

end Sys2Proof.Machine
end

