-- ==== Sys2Proof/Machine/BootCmds.lean ====
section
/-!
DEFINITION. Start-up, reset and the Colophon loader (R381 to R415): one meaning a command, named exec and the constructor.
-/

namespace Sys2Proof.Machine

/-- R410: PWRGOOD rises and the device goes from OFF to RESET. -/
def execPwrgoodRise (s : State) : Host.Outcome State Fault Refusal :=
  s.does fun s => s.powerUp

/-- R449: PWRGOOD falls; the device goes OFF, drives every FEN low and clears pending injections. -/
def execPwrgoodFall (s : State) : Host.Outcome State Fault Refusal :=
  s.does fun s => s.powerDown

/-- R410: RESET_N goes low and the device enters RESET from any state other than OFF. -/
def execResetNAssert (s : State) : Host.Outcome State Fault Refusal :=
  s.does fun s => s.resetLow

/-- R408: RESET_N rises, FOLIO_ROLE is sampled and PLL locking begins. -/
def execResetNRelease (role : Bool) (s : State) : Host.Outcome State Fault Refusal :=
  s.does fun s => s.resetHigh role

/-- R408: The PLLs lock, JTAG access becomes possible and fuse reading begins. -/
def execPllLock (s : State) : Host.Outcome State Fault Refusal :=
  s.does fun s => s.pllsLock

/-- R408: The fuses have been read, and SRAM initialisation begins. -/
def execFuseReadDone (f : Fuses) (s : State) : Host.Outcome State Fault Refusal :=
  s.does fun s => s.fusesRead f

/-- R408: Every SRAM array holds valid check bits; the device enters LOAD and starts flash discovery. -/
def execSramInitDone (s : State) : Host.Outcome State Fault Refusal :=
  s.does fun s => s.sramReady

/-- R382: SFDP discovery ends; read commands are prepared, or the attempt fails with code FLASH. -/
def execFlashDiscoveryDone (sfdpOk bfptOk addr4 : Bool) (table : Reads4) (quad : Option (Fin 8)) (s : State) : Host.Outcome State Fault Refusal :=
  s.does fun s => s.discovered sfdpOk bfptOk addr4 table.read4 table.quad4 (quad.map Fin.val)

/-- R390: Both copy headers have been read and the copy to attempt first is chosen. -/
def execImageHeadersRead (h0 h1 : Bytes) (s : State) : Host.Outcome State Fault Refusal :=
  s.does fun s => s.headersRead h0 h1

/-- R391: The verify pass of a copy ends: its checks and digest are complete, or the copy is invalid. -/
def execVerifyPassDone (img : Bytes) (s : State) : Host.Outcome State Fault Refusal :=
  s.does fun s => s.verified img

/-- R392: The apply pass completes; the image is in force, CLO_LOAD is recorded and FILL begins. -/
def execApplyPassDone (img : Bytes) (s : State) : Host.Outcome State Fault Refusal :=
  s.does fun s => s.applied img

/-- R297: A subchannel completes power-up, initialisation and the RFM check in FILL step 1. [DESIGN CHOICE, log 114] -/
def execDramInitDone (sc : Fin 4) (ok : Bool) (s : State) : Host.Outcome State Fault Refusal :=
  s.does fun s => s.dramInit sc ok

/-- R297: A subchannel completes FILL step 2: ZQ, CS/CA training, leveling and 1-D centering. -/
def execDramTrain1dDone (sc : Fin 4) (ok : Bool) (s : State) : Host.Outcome State Fault Refusal :=
  s.does fun s => s.dramTrain1 sc ok

/-- R297: A subchannel has written every codeword; when all are done FILLED is set and TRAIN begins. -/
def execFillWriteDone (sc : Fin 4) (ok : Bool) (s : State) : Host.Outcome State Fault Refusal :=
  s.does fun s => s.dramFilled sc ok

/-- R298: A subchannel completes 2-D training in TRAIN; the device may leave TRAIN. -/
def execDramTrain2dDone (sc : Fin 4) (ok : Bool) (s : State) : Host.Outcome State Fault Refusal :=
  s.does fun s => s.dramTrain2 sc ok

/-- R409: TRAINTMO expires; the device leaves TRAIN, or enters FAULT after a failed load. -/
def execTrainTimeout (s : State) : Host.Outcome State Fault Refusal :=
  s.does fun s => s.trainTimeUp

/-- R414: CLO_CMD.REBOOT with the key acts as a reset pulse. -/
def execCloReboot (src : Src) (key : BitVec 16) (s : State) : Host.Outcome State Fault Refusal :=
  s.does fun s => s.wr src 0x10004 (2 ^ 16 * key.toNat + 1)

/-- R394: CLO_FCTL.GO starts a software flash transfer. -/
def execCloFlashGo (src : Src) (w : Word) (s : State) : Host.Outcome State Fault Refusal :=
  s.does fun s => s.wr src 0x10040 (putBit w.toNat 31 true)

/-- R394: A software flash transfer completes and BUSY clears. -/
def execCloFlashDone (data : Bytes) (s : State) : Host.Outcome State Fault Refusal :=
  s.does fun s => s.flashDone data

/-- R438: A junction-temperature conversion updates GLB_TJ every 1 ms. -/
def execTjConversion (t : BitVec 16) (s : State) : Host.Outcome State Fault Refusal :=
  s.does fun s => s.tjSample t.toNat

end Sys2Proof.Machine
end

