-- ==== Sys2Proof/Machine/CameraCmds.lean ====
section
/-!
DEFINITION. Inspection cameras and collation (R221 to R247): one meaning a command, named exec and the constructor.
-/

namespace Sys2Proof.Machine

/-- R223: CTRIGk rises at its scheduled time. -/
def execCtrigRise (k : Fin 4) (s : State) : Host.Outcome State Fault Refusal :=
  s.does fun s => s.ctrigUp k

/-- R223: CTRIGk falls CWID ns after rising. -/
def execCtrigFall (k : Fin 4) (s : State) : Host.Outcome State Fault Refusal :=
  s.does fun s => s.ctrigDown k

/-- R223: LSTBk rises at its scheduled time. -/
def execLstbRise (k : Fin 4) (s : State) : Host.Outcome State Fault Refusal :=
  s.does fun s => s.lstbUp k

/-- R223: LSTBk falls SWID ns after rising. -/
def execLstbFall (k : Fin 4) (s : State) : Host.Outcome State Fault Refusal :=
  s.does fun s => s.lstbDown k

/-- R225: An FS packet opens a frame and takes its anchor, or flags NOTRIG. -/
def execCsiFrameStart (p : Fin 4) (h : CsiHdr) (num : BitVec 16) (s : State) : Host.Outcome State Fault Refusal :=
  s.does fun s => s.shortPacket p h 0 num.toNat

/-- R226: An FE packet ends a frame, padding missing rows. -/
def execCsiFrameEnd (p : Fin 4) (h : CsiHdr) (s : State) : Host.Outcome State Fault Refusal :=
  s.does fun s => s.shortPacket p h 1 0

/-- R226: A pixel row arrives, is checked and enters its port FIFO. -/
def execCsiLongPacket (p : Fin 4) (h : CsiHdr) (dt : BitVec 6) (b : Bytes) (crcOk : Bool) (s : State) : Host.Outcome State Fault Refusal :=
  s.does fun s => s.longPacket p h dt.toNat b crcOk

/-- R221: A D-PHY lane enters or leaves HS, ULPS or a deskew sequence. [DESIGN CHOICE, log 114] -/
def execDphyStateChange (p : Fin 4) (hs ulps deskew : Bool) (s : State) : Host.Outcome State Fault Refusal :=
  s.does fun s => s.dphy p hs ulps deskew

/-- R227: The idle pipeline takes the oldest waiting frame and copies its parameters. -/
def execPipelineFrameTake (s : State) : Host.Outcome State Fault Refusal :=
  s.does fun s => s.frameTake

/-- R241: A frame finishes the pipeline; registration is decided and statistics merge. -/
def execPipelineFrameDone (s : State) : Host.Outcome State Fault Refusal :=
  s.does fun s => s.frameDone

/-- R242: INS_CMD.CLRSTAT clears every statistics record in STANDBY. -/
def execInsClrstat (src : Src) (s : State) : Host.Outcome State Fault Refusal :=
  s.does fun s => s.strobe src 0x110008 1

/-- R245: INS_CMD.RESTORE restarts the named camera ports in STANDBY. -/
def execInsRestore (src : Src) (ports : BitVec 4) (s : State) : Host.Outcome State Fault Refusal :=
  s.does fun s => s.strobe src 0x110008 (16 * ports.toNat)

/-- R246: The next packet header on PORT is treated as uncorrectable. -/
def execInsInjHdrecc (src : Src) (p : Fin 4) (s : State) : Host.Outcome State Fault Refusal :=
  s.does fun s => s.wr src 0x110018 (16 * p + 1)

/-- R246: The next long-packet CRC on PORT fails. -/
def execInsInjPcrc (src : Src) (p : Fin 4) (s : State) : Host.Outcome State Fault Refusal :=
  s.does fun s => s.wr src 0x110018 (16 * p + 2)

/-- R246: The next row on PORT finds its FIFO full. -/
def execInsInjOvf (src : Src) (p : Fin 4) (s : State) : Host.Outcome State Fault Refusal :=
  s.does fun s => s.wr src 0x110018 (16 * p + 4)

/-- R246: The next frame on PORT is marked REGFAIL. -/
def execInsInjRegfail (src : Src) (p : Fin 4) (s : State) : Host.Outcome State Fault Refusal :=
  s.does fun s => s.wr src 0x110018 (16 * p + 8)

/-- R221: A CSI-2 short packet other than FS or FE is received: line start and end are ignored, and other data types are discarded and counted in INS_CNT_OTHERDT. -/
def execCsiShortPacket (p : Fin 4) (h : CsiHdr) (dt : BitVec 6) (s : State) : Host.Outcome State Fault Refusal :=
  s.does fun s => s.shortPacket p h dt.toNat 0

end Sys2Proof.Machine
end

