-- ==== Sys2Proof/Machine/DramCmds.lean ====
section
/-!
DEFINITION. The DRAM subsystem (R288 to R323): one meaning a command, named exec and the constructor.
-/

namespace Sys2Proof.Machine

/-- R304: A master's request enters a subchannel queue with its class. [DESIGN CHOICE, log 115] -/
def execDramRequest (master : Fin 10) (a : BitVec 40) (wr : Bool) (b : Bytes) (len : Fin 65) (node : BitVec 16) (s : State) : Host.Outcome State Fault Refusal :=
  s.does fun s => s.dramAsk master a.toNat wr b len node.toNat

/-- R306: A queued write issues to DRAM during a drain or when reads are absent. -/
def execDramWriteIssue (sc : Fin 4) (s : State) : Host.Outcome State Fault Refusal :=
  s.does fun s => s.writeIssue sc

/-- R295: Read data returns and is decoded into clean, corrected, poisoned or failed. [DESIGN CHOICE, log 113] -/
def execDramReadDone (sc : Fin 4) (errs errs2 : List (Fin 80 × Byte)) (s : State) : Host.Outcome State Fault Refusal :=
  s.does fun s => s.readDone sc (symbols errs) (symbols errs2)

/-- R318: ALERT_n causes replay of the writes in the alert window. -/
def execWriteCrcAlert (sc : Fin 4) (s : State) : Host.Outcome State Fault Refusal :=
  s.does fun s => s.wcrcAlert sc

/-- R300: A rank's owed refresh count increments. -/
def execRefreshTick (sc : Fin 4) (rank : Fin 2) (s : State) : Host.Outcome State Fault Refusal :=
  s.does fun s => s.refTick sc rank

/-- R300: An owed REFab is issued once no URGENT request is queued. -/
def execRefreshIssue (sc : Fin 4) (rank : Fin 2) (s : State) : Host.Outcome State Fault Refusal :=
  s.does fun s => s.refIssue sc rank

/-- R302: MR4 is read and the refresh rate factor updated. -/
def execMr4Poll (sc : Fin 4) (rank : Fin 2) (rate : Fin 3) (s : State) : Host.Outcome State Fault Refusal :=
  s.does fun s => s.mr4 sc rank rate

/-- R299: A write- or read-tracking step runs on a subchannel. -/
def execPeriodicRetrainStep (sc : Fin 4) (moved : BitVec 16) (readErr : Bool) (s : State) : Host.Outcome State Fault Refusal :=
  s.does fun s => s.retrainStep sc moved.toNat readErr

/-- R317: The scrubber reads the next codeword of its patrol. -/
def execPatrolRead (sc : Fin 4) (errs errs2 : List (Fin 80 × Byte)) (s : State) : Host.Outcome State Fault Refusal :=
  s.does fun s => s.patrolRd sc (symbols errs) (symbols errs2)

/-- R320: MEM_CMD.RESTORE retrains and refills named subchannels in STANDBY. -/
def execMemRestore (src : Src) (scs : BitVec 4) (s : State) : Host.Outcome State Fault Refusal :=
  s.does fun s => s.strobe src 0x140024 (16 * scs.toNat)

/-- R317: MEM_CMD.PASS starts an immediate patrol pass. -/
def execMemPass (src : Src) (s : State) : Host.Outcome State Fault Refusal :=
  s.does fun s => s.strobe src 0x140024 1

/-- R321: MEM_TEST.BYPASS is set or cleared in STANDBY. [DEDUCED, log 46] -/
def execMemBypassWrite (src : Src) (on : Bool) (s : State) : Host.Outcome State Fault Refusal :=
  s.does fun s => s.wr src 0x140028 (b2n on)

/-- R322: The next codeword write on SC is stored corrupted. -/
def execMemInjArm (src : Src) (sc : Fin 4) (dev : Bool) (val : Byte) (s2 s1 : BitVec 7) (s : State) : Host.Outcome State Fault Refusal :=
  s.does fun s => s.wr src 0x14002C (2 ^ 31 + 2 ^ 29 * b2n dev + 2 ^ 27 * sc + 2 ^ 16 * val.toNat + 2 ^ 8 * s2.toNat + s1.toNat)

/-- R322: The next write CRC on SC is corrupted. -/
def execMemInjWcrc (src : Src) (sc : Fin 4) (s : State) : Host.Outcome State Fault Refusal :=
  s.does fun s => s.wr src 0x14002C (2 ^ 30 + putBits (maskIn 0 (regMask 0x14002C fun x => x.acc == .rw) (s.reg 0x14002C)) 28 27 sc)

end Sys2Proof.Machine
end

