-- ==== Sys2Proof/Machine/ErrorCmds.lean ====
section
/-!
DEFINITION. Errors and injections (R416 to R433): one meaning a command, named exec and the constructor.
-/

namespace Sys2Proof.Machine

/-- R421: RUNGAP passes with no event and an open record closes. -/
def execErrRunClose (key : List Nat) (s : State) : Host.Outcome State Fault Refusal :=
  s.does fun s => s.closeRun key

/-- R422: An ERR_TAIL write frees records, or records ERR_TAILPTR. -/
def execErrTailWrite (src : Src) (w : Word) (s : State) : Host.Outcome State Fault Refusal :=
  s.does fun s => s.wr src 0x1D000C w.toNat

/-- R425: ERR_CMD.DUMP uploads the log. -/
def execErrDump (src : Src) (s : State) : Host.Outcome State Fault Refusal :=
  s.does fun s => s.strobe src 0x1D0014 4

/-- R424: ERR_CMD.BLKCLR clears the per-block first records. -/
def execErrBlkclr (src : Src) (s : State) : Host.Outcome State Fault Refusal :=
  s.does fun s => s.strobe src 0x1D0014 2

/-- R424: ERR_CMD.FIRSTCLR clears ERR_FIRST and FIRSTV. -/
def execErrFirstclr (src : Src) (s : State) : Host.Outcome State Fault Refusal :=
  s.does fun s => s.strobe src 0x1D0014 1

/-- R432: ERR_INJ.ARM arms one injection. -/
def execErrInjArm (src : Src) (id : BitVec 7) (inst : BitVec 8) (arg : BitVec 16) (s : State) : Host.Outcome State Fault Refusal :=
  s.does fun s => s.wr src 0x1D0018 (2 ^ 31 + 2 ^ 24 * id.toNat + 2 ^ 16 * inst.toNat + arg.toNat)

end Sys2Proof.Machine
end

