-- ==== Sys2Proof/Machine/FolioCmds.lean ====
section
/-!
DEFINITION. The folio pair (R266 to R287): one meaning a command, named exec and the constructor.
-/

namespace Sys2Proof.Machine

/-- A folio frame at a member: it shows that the peer is up, and is taken (R267, R279), unless its port refuses it (R351). A device that is no member takes none. -/
def State.folIn (s : State) (p : Nat) (f : Frame) (g : State → State) : State :=
  if s.refuses p f then s.filtered p f else let s := s.consume p f; if s.member then g s.folHeard else s

/-- R275: The peer's line digest is compared with the member's own. -/
def execFolLineReceive (p : Fin 5) (f : Frame) (s : State) : Host.Outcome State Fault Refusal :=
  s.does fun s => s.folIn p f fun s => s.folLineIn f.payload

/-- R205: The standby stages forwarded writes for their E. -/
def execFolFwdReceive (p : Fin 5) (f : Frame) (s : State) : Host.Outcome State Fault Refusal :=
  s.does fun s => s.folIn p f fun s => s.folFwdIn f.payload

/-- R269: The standby takes a start event from the primary. -/
def execFolStartReceive (p : Fin 5) (f : Frame) (s : State) : Host.Outcome State Fault Refusal :=
  s.does fun s => s.folIn p f fun s => s.folStart f.payload

/-- R271: The peer's state, role and K_h are taken. -/
def execFolStateReceive (p : Fin 5) (f : Frame) (s : State) : Host.Outcome State Fault Refusal :=
  s.does fun s => s.folIn p f fun s => s.folStateIn f.payload

/-- R272: A configuration or self-check digest from the peer is compared. -/
def execFolDigestReceive (p : Fin 5) (f : Frame) (s : State) : Host.Outcome State Fault Refusal :=
  s.does fun s => s.folIn p f fun s => s.folDigestIn f.payload

/-- R282: A join request, grant or revert is acted on. -/
def execFolJoinReceive (p : Fin 5) (f : Frame) (s : State) : Host.Outcome State Fault Refusal :=
  s.does fun s => s.folIn p f fun s => s.folJoinIn f.payload

/-- R267: Each member sends FOL_STATE every 100 µs. -/
def execFolStateSend (s : State) : Host.Outcome State Fault Refusal :=
  s.does fun s => s.folState 0

/-- R279: No folio frame for PTMO µs; peer loss, isolation or promotion follows. -/
def execFolPeerTimeout (s : State) : Host.Outcome State Fault Refusal :=
  s.does fun s => s.folTimeout

/-- R277: The self-check scrub ends; the check passes or the standby retires. -/
def execSelfcheckScrubDone (s : State) : Host.Outcome State Fault Refusal :=
  s.does fun s => s.scrubDone

/-- R277: 2^CLEARN clean lines clear SUSPECT. -/
def execSuspectClear (s : State) : Host.Outcome State Fault Refusal :=
  s.does fun s => s.suspectClear

/-- R283: The join taint span ends; JOINING clears. -/
def execJoinSpanEnd (s : State) : Host.Outcome State Fault Refusal :=
  s.does fun s => s.joinSpanEnd

/-- R276: FOL_CMD.SELFCHK starts a self-check in RUN. -/
def execFolSelfchkCmd (src : Src) (s : State) : Host.Outcome State Fault Refusal :=
  s.does fun s => s.strobe src 0x130008 4

/-- R281: FOL_CMD.JOIN starts a join at FOL_JOINSIG in STANDBY. -/
def execFolJoinCmd (src : Src) (s : State) : Host.Outcome State Fault Refusal :=
  s.does fun s => s.strobe src 0x130008 2

/-- R284: FOL_CMD.SWAP moves every module to the other lane at the next signature. -/
def execFolSwapCmd (src : Src) (s : State) : Host.Outcome State Fault Refusal :=
  s.does fun s => s.strobe src 0x130008 1

/-- R287: The next self-check digest is sent corrupted. -/
def execFolInjCfgdig (src : Src) (s : State) : Host.Outcome State Fault Refusal :=
  s.does fun s => s.strobe src 0x130024 4

/-- R287: The next FOL_LINE is not sent. -/
def execFolInjDrop (src : Src) (s : State) : Host.Outcome State Fault Refusal :=
  s.does fun s => s.strobe src 0x130024 2

/-- R287: The next FOL_LINE carries a corrupted digest of module MOD. -/
def execFolInjDigest (src : Src) (m : Fin 32) (s : State) : Host.Outcome State Fault Refusal :=
  s.does fun s => s.wr src 0x130024 (8 * m + 1)

/-- R275: No peer FOL_LINE arrives within PTMO µs after a member's own; FOL_CNT_PEERMISS increments, and a long run records FOL_PEERLOST and raises FOLIO_PEERLOST. -/
def execFolLineTimeout (s : State) : Host.Outcome State Fault Refusal :=
  s.does fun s => s.folLineMiss

end Sys2Proof.Machine
end

