-- ==== Sys2Proof/Machine/MessagingCmds.lean ====
section
/-!
DEFINITION. Mailboxes, rings, locks and attention (R358 to R380): one meaning a command, named exec and the constructor.
-/

namespace Sys2Proof.Machine

/-- R360: CTL.GO sends a mailbox message, which is taken, completed or rejected. -/
def execMbxGo (src : Src) (c : Fin 64) (w : Word) (s : State) : Host.Outcome State Fault Refusal :=
  s.does fun s => s.wr src (0x1C1040 + 0x80 * c) (putBit w.toNat 0 true)

/-- R363: CTL.WITHDRAW withdraws a PENDING message. -/
def execMbxWithdraw (src : Src) (c : Fin 64) (s : State) : Host.Outcome State Fault Refusal :=
  s.does fun s => s.strobe src (0x1C1040 + 0x80 * c) 2

/-- R359: An OWNER write claims or releases a channel. -/
def execMbxOwnerWrite (src : Src) (c : Fin 64) (w : Word) (s : State) : Host.Outcome State Fault Refusal :=
  s.does fun s => s.wr src (0x1C1048 + 0x80 * c) w.toNat

/-- R366: A change of EN from 0 to 1 resets HEAD, TAIL and FAULT. -/
def execRingEnableWrite (src : Src) (n : Fin 128) (w : Word) (s : State) : Host.Outcome State Fault Refusal :=
  s.does fun s => s.wr src (0x1C4008 + 0x20 * n) w.toNat

/-- R366: A TAIL write frees descriptors, or is ignored and logged. -/
def execRingTailWrite (src : Src) (n : Fin 128) (w : Word) (s : State) : Host.Outcome State Fault Refusal :=
  s.does fun s => s.wr src (0x1C4010 + 0x20 * n) w.toNat

/-- R369: A subchannel accepts a descriptor write and HEAD advances. -/
def execDescriptorWriteAccepted (s : State) : Host.Outcome State Fault Refusal :=
  s.does fun s => s.drainDesc false

/-- R371: A descriptor write gets an error; FAULT is set and MBX_RINGMEM recorded. -/
def execDescriptorWriteError (s : State) : Host.Outcome State Fault Refusal :=
  s.does fun s => s.drainDesc true

/-- R370: A moderated NOTIFY is sent for a ring or for attention. -/
def execNotifySend (n : Option (Fin 128)) (s : State) : Host.Outcome State Fault Refusal :=
  s.does fun s => s.notifyOut (match n with | some n => n.val | none => 256)

/-- R377: The 1 µs minimum low time of HRB ends and HRB may rise. -/
def execHrbMinLowEnd (s : State) : Host.Outcome State Fault Refusal :=
  s.does fun s => s.hrbMinEnd

/-- R373: A lock read acquires a free lock or returns the holder. -/
def execLockRead (src : Src) (i : Fin 256) (s : State) : Host.Outcome State Fault Refusal :=
  s.does fun s => s.rd src (0x1C6000 + 4 * i)

/-- R373: The holder's write releases the lock; others are refused. -/
def execLockWrite (src : Src) (i : Fin 256) (w : Word) (s : State) : Host.Outcome State Fault Refusal :=
  s.does fun s => s.wr src (0x1C6000 + 4 * i) w.toNat

/-- R375: MBX_LOCKCMD.FORCE releases lock INDEX. -/
def execLockcmdForce (src : Src) (i : Fin 256) (s : State) : Host.Outcome State Fault Refusal :=
  s.does fun s => s.wr src 0x1C0008 (2 ^ 31 + 2 ^ 16 * i)

/-- R375: MBX_LOCKCMD.ALLNODE releases every lock of a holder. -/
def execLockcmdAllnode (src : Src) (code : BitVec 2) (node : BitVec 16) (s : State) : Host.Outcome State Fault Refusal :=
  s.does fun s => s.wr src 0x1C0008 (2 ^ 30 + 2 ^ 24 * code.toNat + node.toNat)

/-- R439: Writing 1 to latched GLB_ATTN bits clears them. -/
def execGlbAttnClear (src : Src) (w : Word) (s : State) : Host.Outcome State Fault Refusal :=
  s.does fun s => s.wr src 0x18 w.toNat

end Sys2Proof.Machine
end

