-- ==== Sys2Proof/Machine/MotionCmds.lean ====
section
/-!
DEFINITION. Encoders, line triggering, gathering and firing (R77 to R141): one meaning a command, named exec and the constructor.
-/

namespace Sys2Proof.Machine

/-- R126: An accepted encoder edge changes and stamps the count. -/
def execEncoderEdge (e : Fin 2) (a b : EncIn) (frac : BitVec 16) (s : State) : Host.Outcome State Fault Refusal :=
  s.does fun s => s.encEdge e a b frac.toNat

/-- R127: A Z edge latches the position and, when armed, loads POS_ZVAL. -/
def execEncoderIndexEdge (e : Fin 2) (s : State) : Host.Outcome State Fault Refusal :=
  s.does fun s => s.encZ e

/-- R127: POS_CMD.ZARM arms index homing in STANDBY, or is logged otherwise. -/
def execZarm (src : Src) (s : State) : Host.Outcome State Fault Refusal :=
  s.does fun s => s.strobe src 0x50008 2

/-- R135: An active TOF edge is stamped and, when selected, forms a start event. -/
def execTofEdge (n : Fin 2) (x : TofIn) (s : State) : Host.Outcome State Fault Refusal :=
  s.does fun s => s.tofIn n x.pin x.frac.toNat

/-- R135: POS_CMD.START forms a software start event, or is logged when not allowed. -/
def execStartCommand (src : Src) (s : State) : Host.Outcome State Fault Refusal :=
  s.does fun s => s.strobe src 0x50008 1

/-- R76: A pipeline finishes steps 1 to 7 of a module-line and its outputs go to step 8. [DESIGN CHOICE, log 113] -/
def execGatherLineDone (m : Fin 32) (s : State) : Host.Outcome State Fault Refusal :=
  s.does fun s => s.lineDone m

/-- R98: Every 64 module-lines each applied trim moves one step toward its target. -/
def execTrimRampStep (s : State) : Host.Outcome State Fault Refusal :=
  s.does fun s => s.rampStep

/-- R103: The scheduled t_f of a module-line arrives; FEN rises, or an SK block is sent. -/
def execFireTime (m : Fin 32) (s : State) : Host.Outcome State Fault Refusal :=
  s.does fun s => s.fireTime m

/-- R180: Slot g of a line starts: the cut-off of bundle g. -/
def execFireGroupSlot (m : Fin 32) (s : State) : Host.Outcome State Fault Refusal :=
  s.does fun s => s.groupSlot m

/-- R103: FEN falls at t_f + 16 × SLOT. -/
def execFenFall (m : Fin 32) (s : State) : Host.Outcome State Fault Refusal :=
  s.does fun s => s.fenFall m

/-- R117: FEN stays high beyond LIMIT; it is forced low, the cut latches and FEN_CUT is raised. -/
def execFenWatchdogCut (m : Fin 32) (s : State) : Host.Outcome State Fault Refusal :=
  s.does fun s => s.fenCut m

/-- R118: Writing 1 to FIR_WDSTS bit m clears a cut while the internal drive is low. -/
def execFenCutClear (src : Src) (w : Word) (s : State) : Host.Outcome State Fault Refusal :=
  s.does fun s => s.wr src 0x40020 w.toNat

/-- R28: REFCLK0 shows no edge for 40 ns and every FEN is forced low. -/
def execRefclk0Loss (s : State) : Host.Outcome State Fault Refusal :=
  s.does fun s => s.clkLoss

/-- R31: The FEN output path is calibrated at an endpaper or once per second in RUN. [DEDUCED, log 112] -/
def execOutputPathCalibration (s : State) : Host.Outcome State Fault Refusal :=
  s.does fun s => s.pathCal

/-- R28: REFCLK0 edges return after a loss, ending the loss-of-clock detector's forced-low hold on the FEN outputs. -/
def execRefclk0Return (s : State) : Host.Outcome State Fault Refusal :=
  s.does fun s => s.clkBack

end Sys2Proof.Machine
end

