-- ==== Sys2Proof/Machine/NozzleCmds.lean ====
section
/-!
DEFINITION. Nozzle measurement and the nozzle map (R199 to R220): one meaning a command, named exec and the constructor.
-/

namespace Sys2Proof.Machine

/-- R206: The primary sends MEAS to a module when measurement is allowed. -/
def execMeasSend (m : Fin 32) (s : State) : Host.Outcome State Fault Refusal :=
  s.does fun s => s.measSend m

/-- R202: A software write to a map entry changes the WRMASK fields, directly or staged. -/
def execNozzleMapWindowWrite (src : Src) (i : Fin 131072) (w : Word) (s : State) : Host.Outcome State Fault Refusal :=
  s.does fun s => s.wr src (0x400000 + 4 * i) w.toNat

/-- R204: A write that waited for space enters a full staging list and takes its K. -/
def execMapWriteStage (m : Fin 32) (s : State) : Host.Outcome State Fault Refusal :=
  s.does fun s => s.stageWaiting m

/-- R209: NZH_CMD.SWEEP starts a sweep of every enabled module in STANDBY. -/
def execNozzleSweep (src : Src) (s : State) : Host.Outcome State Fault Refusal :=
  s.does fun s => s.strobe src 0x100008 1

/-- R218: NZH_CMD.DUMP requests an upload of all modules. -/
def execNozzleMapDump (src : Src) (s : State) : Host.Outcome State Fault Refusal :=
  s.does fun s => s.strobe src 0x100008 2

/-- R218: NZH_CMD.DUMPDIRTY requests an upload of the dirty modules. -/
def execNozzleMapDumpDirty (src : Src) (s : State) : Host.Outcome State Fault Refusal :=
  s.does fun s => s.strobe src 0x100008 4

/-- R220: The next valid result of module MOD is classified with CODE. -/
def execNzhInjArm (src : Src) (m : Fin 32) (code : BitVec 10) (s : State) : Host.Outcome State Fault Refusal :=
  s.does fun s => s.wr src 0x100040 (2 ^ 31 + 2 ^ 16 * m + code.toNat)

end Sys2Proof.Machine
end

