-- ==== Sys2Proof/Machine/QuireCmds.lean ====
section
/-!
DEFINITION. Quires, signatures, inflate and uploads (R33 to R72, R372): one meaning a command, named exec and the constructor.
-/

namespace Sys2Proof.Machine

/-- Compressor n's upload ends (R372); a nozzle-map dump ends with it (R218). -/
def State.uploadEnd (s : State) (n : Nat) : State :=
  match s.upEnd n with
  | (s, some (u, _)) => if u.tag = 1 then s.dumpDone else s
  | (s, none) => s

/-- R348: A quire-data frame reaches ingress and is reassembled by source node. -/
def execQdFrameReceive (p : Fin 5) (f : Frame) (s : State) : Host.Outcome State Fault Refusal :=
  s.does fun s => (s.qdReceive p f).lenFixed

/-- R46: A quire held under back-pressure proceeds once a reassembly slot, signature window, pages or a directory entry free. -/
def execIngressResume (s : State) : Host.Outcome State Fault Refusal :=
  s.does fun s => s.ingressAgain.lenFixed

/-- R55: An engine starts a quire once its ring has D free bytes, choosing among ready contexts. -/
def execInflateStart (m : Fin 32) (s : State) : Host.Outcome State Fault Refusal :=
  s.does fun s => s.inflateStart m

/-- R52: A store read returns an uncorrectable error; the engine abandons the quire and requests a DRAM_UE re-send. -/
def execInflateReadError (m : Fin 32) (s : State) : Host.Outcome State Fault Refusal :=
  s.does fun s => s.inflateFail m

/-- R51: An inflation ends and both trailer CRCs are compared; the quire is released, retried or re-sent. [DESIGN CHOICE, log 113] -/
def execInflateDone (m : Fin 32) (s : State) : Host.Outcome State Fault Refusal :=
  s.does fun s => s.inflateDone m

/-- R63: A request that waited for one of the 256 outstanding slots is posted. -/
def execResendPost (s : State) : Host.Outcome State Fault Refusal :=
  s.does fun s => s.rsNext s.qre.waiting.length

/-- R62: An attempt's TMO expires with no good copy; the next attempt is posted or the re-send ends. -/
def execResendAttemptEnd (sig : Word) (c : Fin 128) (first : Word) (s : State) : Host.Outcome State Fault Refusal :=
  s.does fun s => s.rsEndAttempt sig.toNat c first.toNat

/-- R67: QRE_SIGCMD ABORT frees the named queued signature's quires and cancels its re-sends. -/
def execSignatureAbort (src : Src) (s : State) : Host.Outcome State Fault Refusal :=
  s.does fun s => s.strobe src 0x20040 1

/-- R34: A STANDBY write that changes QRE_SIGBASE frees every stored quire below it. -/
def execSigbaseWrite (src : Src) (w : Word) (s : State) : Host.Outcome State Fault Refusal :=
  s.does fun s => s.wr src 0x20034 w.toNat

/-- R54: A STANDBY write that changes QRE_CTXEN empties quire state and divides the look-ahead anew. -/
def execCtxenWrite (src : Src) (k : Fin 4) (w : Word) (s : State) : Host.Outcome State Fault Refusal :=
  s.does fun s => s.wr src (0x20010 + 4 * k) w.toNat

/-- R372: A compressor starts the next upload in request order and reserves buffer space or refuses it. -/
def execUploadStart (n : Fin 4) (s : State) : Host.Outcome State Fault Refusal :=
  s.does fun s => s.upStart n

/-- R372: An upload ends; WPTR advances and the announcing descriptor is posted. -/
def execUploadDone (n : Fin 4) (s : State) : Host.Outcome State Fault Refusal :=
  s.does fun s => s.uploadEnd n

end Sys2Proof.Machine
end

