-- ==== Sys2Proof/Machine/SpineCmds.lean ====
section
/-!
DEFINITION. The Spine fabric (R324 to R357): one meaning a command, named exec and the constructor.
-/

namespace Sys2Proof.Machine

/-- The RW bits of SPN_INJ as they stand. -/
def State.spnInjReg (s : State) : Nat := maskIn 0 0xF0 (s.reg 0x181018)

/-- 1 ms has passed since a flood started here (R357). -/
def State.floodEnd (s : State) : State := { s with spn := { s.spn with discBusy := false } }

/-- R332: A port probes for termination every 100 µs. -/
def execSpnDetectProbe (p : Fin 4) (lanes : BitVec 4) (s : State) : Host.Outcome State Fault Refusal :=
  s.does fun s => s.spnProbe p lanes.toNat

/-- R332: Every used lane has bit lock and the port enters ALIGN. [DESIGN CHOICE, log 114] -/
def execSpnBitLock (p : Fin 4) (lanes : BitVec 4) (s : State) : Host.Outcome State Fault Refusal :=
  s.does fun s => s.spnLocked p lanes.toNat

/-- R330: A CFG block advances bring-up and chooses the width. -/
def execSpnCfgReceive (p : Fin 4) (m : Option Cfg) (s : State) : Host.Outcome State Fault Refusal :=
  s.does fun s => s.spnCfg p m

/-- R332: A bring-up or RECOVER stage exceeds its limit. [DESIGN CHOICE, log 9] -/
def execSpnStageTimeout (p : Fin 4) (s : State) : Host.Outcome State Fault Refusal :=
  s.does fun s => s.spnTimeout p

/-- R332: 1 ms after a failure the port returns to DETECT. -/
def execSpnRetryDelayEnd (p : Fin 4) (s : State) : Host.Outcome State Fault Refusal :=
  s.does fun s => s.spnRetry p

/-- R327: Every 16,384 block times AM blocks are sent on each lane. -/
def execSpnAmSend (p : Fin 4) (s : State) : Host.Outcome State Fault Refusal :=
  s.does fun s => s.spnAmOut p

/-- R327: An AM block deskews lanes and checks BIP-8. -/
def execSpnAmReceive (p : Fin 4) (l : Fin 4) (rx : AmRx) (deskewed : Bool) (farStage : Nat) (s : State) : Host.Outcome State Fault Refusal :=
  s.does fun s => s.spnAm p l rx deskewed farStage

/-- R354: A lane loses block lock and the port enters RECOVER. -/
def execSpnLockLoss (p l : Fin 4) (s : State) : Host.Outcome State Fault Refusal :=
  s.does fun s => s.spnLaneLost p l

/-- R354: 16 invalid sync headers in 2^14 blocks send the port to RECOVER. -/
def execSpnSyncErrorLimit (p l : Fin 4) (s : State) : Host.Outcome State Fault Refusal :=
  s.does fun s => s.spnLaneLost p l

/-- R333: A frame is checked against sequence and CRCs, then accepted or discarded. -/
def execSpineFrameReceive (p : Fin 4) (b : Bytes) (residence : BitVec 48) (s : State) : Host.Outcome State Fault Refusal :=
  s.does fun s => s.spnFrame p b residence.toNat

/-- R334: An ACK frees replay-buffer frames. -/
def execSpnAckReceive (p : Fin 4) (blk : BitVec 64) (s : State) : Host.Outcome State Fault Refusal :=
  s.does fun s => s.spnAckIn p blk.toNat

/-- R334: A NAK replays frames from S. -/
def execSpnNakReceive (p : Fin 4) (blk : BitVec 64) (s : State) : Host.Outcome State Fault Refusal :=
  s.does fun s => s.spnNakIn p blk.toNat

/-- R336: A CREDIT block returns VL credits. -/
def execSpnCreditReceive (p : Fin 4) (blk : BitVec 64) (s : State) : Host.Outcome State Fault Refusal :=
  s.does fun s => s.spnCreditIn p blk.toNat

/-- R333: An ACK is sent within ACKINT, every 8 frames or every 1 µs. -/
def execSpnAckSend (p : Fin 4) (s : State) : Host.Outcome State Fault Refusal :=
  s.does fun s => s.spnAck p

/-- R336: Cumulative credits are repeated every 1 µs. -/
def execSpnCreditRepeat (p : Fin 4) (s : State) : Host.Outcome State Fault Refusal :=
  s.does fun s => s.spnCreditOut p

/-- R334: The oldest unacknowledged frame waits RTMO and is replayed. -/
def execSpnReplayTimeout (p : Fin 4) (s : State) : Host.Outcome State Fault Refusal :=
  s.does fun s => s.spnRtmo p

/-- R344: A read request is executed and answered. -/
def execRdReqReceive (p : Fin 5) (f : Frame) (s : State) : Host.Outcome State Fault Refusal :=
  s.does fun s => s.rdReq p f

/-- R344: An acknowledged write is executed and answered. -/
def execWrReqReceive (p : Fin 5) (f : Frame) (s : State) : Host.Outcome State Fault Refusal :=
  s.does fun s => s.wrReq p f

/-- R344: A posted write is executed. -/
def execWrPostReceive (p : Fin 5) (f : Frame) (s : State) : Host.Outcome State Fault Refusal :=
  s.does fun s => s.wrPost p f

/-- R347: A response is matched by tag and generation. -/
def execRespReceive (p : Fin 5) (f : Frame) (s : State) : Host.Outcome State Fault Refusal :=
  s.does fun s => s.respIn p f

/-- R347: No response within CTO; the request completes with a timeout. [DESIGN CHOICE, log 9] -/
def execCompletionTimeout (tag : Fin 1024) (s : State) : Host.Outcome State Fault Refusal :=
  s.does fun s => s.tagTimeout tag

/-- R342: A discovery flood is recorded, answered and forwarded. -/
def execDiscReceive (p : Fin 4) (f : Frame) (s : State) : Host.Outcome State Fault Refusal :=
  s.does fun s => (s.consume p f).discIn p f

/-- R343: A discovery response reaches the root. -/
def execDiscRespReceive (p : Fin 5) (f : Frame) (s : State) : Host.Outcome State Fault Refusal :=
  s.does fun s => s.consume p f

/-- R349: An attestation request starts signing, or gets BUSY. -/
def execAttestReqReceive (p : Fin 5) (f : Frame) (s : State) : Host.Outcome State Fault Refusal :=
  s.does fun s => s.attestReq p f

/-- R349: Signing ends and ATTEST_RESP is sent. -/
def execAttestSignDone (s : State) : Host.Outcome State Fault Refusal :=
  s.does fun s => s.attestDone

/-- R342: SPN_CTL.DISCGO starts a flood on a root. -/
def execSpnDiscgo (src : Src) (s : State) : Host.Outcome State Fault Refusal :=
  s.does fun s => s.strobe src 0x181000 1

/-- R352: SPN_QCMD ADMIT with the right CHECK takes the device out of QUARANTINE. -/
def execSpnQcmdAdmit (src : Src) (check : BitVec 16) (s : State) : Host.Outcome State Fault Refusal :=
  s.does fun s => s.wr src 0x181014 (2 ^ 31 + check.toNat)

/-- R352: SPN_PCMD ADMIT with the right CHECK clears MGMTONLY. -/
def execSpnPcmdAdmit (src : Src) (p : Fin 4) (check : BitVec 16) (s : State) : Host.Outcome State Fault Refusal :=
  s.does fun s => s.wr src (0x180028 + 0x4000 * p) (2 ^ 16 * check.toNat + 16)

/-- R353: SPN_PCMD.TEST moves the port to TEST. -/
def execSpnPcmdTest (src : Src) (via : Option (Fin 4)) (p : Fin 4) (s : State) : Host.Outcome State Fault Refusal :=
  s.does fun s => (s.writeAt src (via.map Fin.val) (0x180028 + 0x4000 * p) 4).2

/-- R353: SPN_PCMD.TESTEXIT retrains the port. -/
def execSpnPcmdTestexit (src : Src) (p : Fin 4) (s : State) : Host.Outcome State Fault Refusal :=
  s.does fun s => s.wr src (0x180028 + 0x4000 * p) 8

/-- R355: SPN_PCMD.RESTORE clears retirements and returns the port to DETECT. -/
def execSpnPcmdRestore (src : Src) (p : Fin 4) (s : State) : Host.Outcome State Fault Refusal :=
  s.does fun s => s.wr src (0x180028 + 0x4000 * p) 2

/-- R354: SPN_PCMD.RETRAIN puts the port in RECOVER. -/
def execSpnPcmdRetrain (src : Src) (p : Fin 4) (s : State) : Host.Outcome State Fault Refusal :=
  s.does fun s => s.wr src (0x180028 + 0x4000 * p) 1

/-- R356: The next frame is sent with a corrupted frame CRC. -/
def execSpnInjFcrc (src : Src) (p : Fin 4) (s : State) : Host.Outcome State Fault Refusal :=
  s.does fun s => s.wr src 0x181018 (putBits (s.spnInjReg) 7 6 p + 1)

/-- R356: The next frame is sent with a corrupted header CRC. -/
def execSpnInjHcrc (src : Src) (p : Fin 4) (s : State) : Host.Outcome State Fault Refusal :=
  s.does fun s => s.wr src 0x181018 (putBits (s.spnInjReg) 7 6 p + 256)

/-- R356: The next ACK received is discarded. -/
def execSpnInjAckdrop (src : Src) (p : Fin 4) (s : State) : Host.Outcome State Fault Refusal :=
  s.does fun s => s.wr src 0x181018 (putBits (s.spnInjReg) 7 6 p + 2)

/-- R356: One invalid sync header is sent on LANE. -/
def execSpnInjLaneerr (src : Src) (p l : Fin 4) (s : State) : Host.Outcome State Fault Refusal :=
  s.does fun s => s.wr src 0x181018 (64 * p + 16 * l + 4)

/-- R356: LANE is forced out of block lock. -/
def execSpnInjBlkloss (src : Src) (p l : Fin 4) (s : State) : Host.Outcome State Fault Refusal :=
  s.does fun s => s.wr src 0x181018 (64 * p + 16 * l + 8)

/-- R353: One bit error is injected on each lane of the test. -/
def execSpnPrbsInj1 (src : Src) (p : Fin 4) (s : State) : Host.Outcome State Fault Refusal :=
  s.does fun s => s.strobe src (0x180014 + 0x4000 * p) 64

/-- R353: PRBS bits reach each lane checker of a Spine port in TEST, which locks per lane (LOCKl) and counts errors in SPN_PRBSERRl. -/
def execSpnPrbsCheck (p l : Fin 4) (bits : List Bool) (s : State) : Host.Outcome State Fault Refusal :=
  s.does fun s => s.spnPrbsIn p l bits

/-- R327: A Spine lane receives a block with an invalid sync header, counts a lane block error in SPN_CNT_BLKERRl and may retire the lane under R355. -/
def execSpnInvalidSyncHeader (p l : Fin 4) (s : State) : Host.Outcome State Fault Refusal :=
  s.does fun s => s.spnBadHeader p l

/-- R357: 1 ms after a flood started here, SPN_STS.DISCBUSY clears. -/
def execDiscFloodWindowEnd (s : State) : Host.Outcome State Fault Refusal :=
  s.does fun s => s.floodEnd

end Sys2Proof.Machine
end

