-- ==== Sys2Proof/Machine/SupervisorCmds.lean ====
section
/-!
DEFINITION. The supervisor (R395 to R406): one meaning a command, named exec and the constructor.
-/

namespace Sys2Proof.Machine

/-- R398: A round dispatches at most one pending event per machine. -/
def execSupervisorRound (s : State) : Host.Outcome State Fault Refusal :=
  s.does fun s => s.round

/-- R400: A machine's timer expires and raises TIMER. -/
def execSmtTimerExpire (m : Fin 16) (s : State) : Host.Outcome State Fault Refusal :=
  s.does fun s => s.timerOut m

/-- R415: SMT_EVCMD raises a software event or injects a hardware one. -/
def execSmtEvcmdWrite (src : Src) (code : BitVec 6) (param : BitVec 16) (s : State) : Host.Outcome State Fault Refusal :=
  s.does fun s => s.wr src 0x1E0008 (2 ^ 31 + 2 ^ 24 * code.toNat + param.toNat)

/-- R400: SMT_DEVREQ.RUN raises REQ_RUN. -/
def execSmtDevreqRun (src : Src) (s : State) : Host.Outcome State Fault Refusal :=
  s.does fun s => s.wr src 0x1E000C 1

/-- R400: SMT_DEVREQ.HOLD raises REQ_HOLD. -/
def execSmtDevreqHold (src : Src) (s : State) : Host.Outcome State Fault Refusal :=
  s.does fun s => s.wr src 0x1E000C 2

/-- R400: SMT_DEVREQ.STOP raises REQ_STOP. -/
def execSmtDevreqStop (src : Src) (s : State) : Host.Outcome State Fault Refusal :=
  s.does fun s => s.wr src 0x1E000C 4

/-- R406: SMT_DEVREQ.CUT cuts the current signature in HOLD. -/
def execSmtDevreqCut (src : Src) (s : State) : Host.Outcome State Fault Refusal :=
  s.does fun s => s.wr src 0x1E000C 8

/-- R415: Writing 1 to SMT_MPENDm bits clears pending local events. -/
def execSmtMpendClear (src : Src) (m : Fin 16) (w : Word) (s : State) : Host.Outcome State Fault Refusal :=
  s.does fun s => s.wr src (0x1E0804 + 0x40 * m) w.toNat

end Sys2Proof.Machine
end

