-- ==== Sys2Proof/Machine/ThreadCmds.lean ====
section
/-!
DEFINITION. The Thread link (R161 to R198): one meaning a command, named exec and the constructor.
-/

namespace Sys2Proof.Machine

/-- A CR block (R187); a rejected or unsupported MEAS is recorded (R207). -/
def State.crTaken (s : State) (m : Nat) (b : Bytes) : State :=
  match s.crReceive m b with
  | (s, some (4, _, r)) => if r = 0 then s else s.measRejected m true
  | (s, _) => s

/-- A command has had no response (R187). -/
def State.cmdOver (s : State) (m : Nat) : State :=
  match s.cmdTimeout m with
  | (s, some (4, _)) => s.measRejected m false
  | (s, _) => s

/-- A status frame (R182 to R186); a good line status frame also feeds calibration (R249) and the folio block (R275, R278). -/
def State.statusIn (s : State) (m : Nat) (b : Bytes) : State :=
  match s.statusFrame m b with
  | (s, some f) => if f.isLine then (s.calTemp m f.temp).folStatus m f else s
  | (s, none) => s

/-- R168: A lane probes for termination every 100 µs and enters TRAIN when found. -/
def execThlDetectProbe (m : Fin 32) (found : Bool) (s : State) : Host.Outcome State Fault Refusal :=
  s.does fun s => s.laneProbe m found

/-- R168: After 500 µs of pattern the receiver has bit lock and the lane enters BITLOCK. [DESIGN CHOICE, log 114] -/
def execThlBitLock (m : Fin 32) (s : State) : Host.Outcome State Fault Refusal :=
  s.does fun s => s.laneBitLock m

/-- R168: A TS block reports the far end's stage; BITLOCK may advance to BLOCKLOCK. -/
def execThlTsReceive (m : Fin 32) (b : Bytes) (locked : Bool) (s : State) : Host.Outcome State Fault Refusal :=
  s.does fun s => s.tsReceive m b locked

/-- R169: A capability frame is checked; SYNC, TIMING and FAILMODE follow, or the lane enters CAPEX. -/
def execThlCpReceive (m : Fin 32) (b : Bytes) (s : State) : Host.Outcome State Fault Refusal :=
  s.does fun s => s.cpReceive m b

/-- R187: A command response completes the outstanding command. -/
def execThlCrReceive (m : Fin 32) (b : Bytes) (s : State) : Host.Outcome State Fault Refusal :=
  s.does fun s => s.crTaken m b

/-- R187: No CR within 10 µs; the command is repeated, or THL_CMDTMO is recorded. -/
def execThlCmdTimeout (m : Fin 32) (s : State) : Host.Outcome State Fault Refusal :=
  s.does fun s => s.cmdOver m

/-- R168: A bring-up or RECOVER stage exceeds its limit and fails. [DESIGN CHOICE, log 9] -/
def execThlStageTimeout (m : Fin 32) (s : State) : Host.Outcome State Fault Refusal :=
  s.does fun s => s.laneTimeout m

/-- R168: 1 ms after a failure the lane returns to DETECT; a third failure records THL_TRAINFAIL. -/
def execThlRetryDelayEnd (m : Fin 32) (s : State) : Host.Outcome State Fault Refusal :=
  s.does fun s => s.laneRetry m

/-- R179: An AK block acknowledges a bundle, or a NAK starts its re-send. -/
def execThlAkReceive (m : Fin 32) (b : Bytes) (s : State) : Host.Outcome State Fault Refusal :=
  s.does fun s => s.akReceive m b

/-- R179: No AK within TACK of a copy; a re-send starts unless NRS is used up. -/
def execThlAckTimeout (m : Fin 32) (lfn : BitVec 16) (g : Fin 16) (s : State) : Host.Outcome State Fault Refusal :=
  s.does fun s => s.ackTimeout m lfn.toNat g

/-- R166: The block count reaches 990 and an IDLE block is sent at the next allowed boundary. -/
def execThlIdleInsert (m : Fin 32) (s : State) : Host.Outcome State Fault Refusal :=
  s.does fun s => s.idleInsert m

/-- R183: A status frame is received and its temperature, faults, blank groups, ownership and results are used. -/
def execThlStatusFrame (m : Fin 32) (b : Bytes) (s : State) : Host.Outcome State Fault Refusal :=
  s.does fun s => s.statusIn m b

/-- R121: 64 consecutive line frames without a valid status frame make the module hot, with FIR_TLOST. -/
def execModuleStatusLost (m : Fin 32) (s : State) : Host.Outcome State Fault Refusal :=
  s.does fun s => s.statusLost m

/-- R193: An ACTIVE lane loses block lock and enters RECOVER. -/
def execThlLockLoss (m : Fin 32) (s : State) : Host.Outcome State Fault Refusal :=
  s.does fun s => s.laneRecover m false

/-- R193: 16 invalid sync headers within 2^14 blocks put the lane in RECOVER. -/
def execThlSyncErrorLimit (m : Fin 32) (s : State) : Host.Outcome State Fault Refusal :=
  s.does fun s => s.laneRecover m false

/-- R168: THL_CMD.RETRAIN enters RECOVER, or leaves CAPEX for TRAIN. -/
def execThlRetrain (src : Src) (m : Fin 32) (s : State) : Host.Outcome State Fault Refusal :=
  s.does fun s => s.strobe src (0x8002C + 0x4000 * m) 1

/-- R195: THL_CMD.RESTORE in STANDBY returns a retired lane to DETECT. -/
def execThlRestore (src : Src) (m : Fin 32) (s : State) : Host.Outcome State Fault Refusal :=
  s.does fun s => s.strobe src (0x8002C + 0x4000 * m) 2

/-- R196: THL_CMD.TEST sends LOOP on and moves an ACTIVE lane to TEST. -/
def execThlTest (src : Src) (m : Fin 32) (s : State) : Host.Outcome State Fault Refusal :=
  s.does fun s => s.strobe src (0x8002C + 0x4000 * m) 4

/-- R196: THL_CMD.TESTEXIT sends LOOP off and retrains the lane. -/
def execThlTestexit (src : Src) (m : Fin 32) (s : State) : Host.Outcome State Fault Refusal :=
  s.does fun s => s.strobe src (0x8002C + 0x4000 * m) 8

/-- R197: The next bundle copy is sent with a corrupted CRC. -/
def execThlInjBcrc (src : Src) (m : Fin 32) (s : State) : Host.Outcome State Fault Refusal :=
  s.does fun s => s.strobe src (0x80028 + 0x4000 * m) 1

/-- R197: The next FS block is sent with a corrupted CRC-8. -/
def execThlInjHcrc (src : Src) (m : Fin 32) (s : State) : Host.Outcome State Fault Refusal :=
  s.does fun s => s.strobe src (0x80028 + 0x4000 * m) 2

/-- R197: The next AK received is discarded. -/
def execThlInjAckdrop (src : Src) (m : Fin 32) (s : State) : Host.Outcome State Fault Refusal :=
  s.does fun s => s.strobe src (0x80028 + 0x4000 * m) 4

/-- R197: The next status frame is treated as failing its CRC. -/
def execThlInjScrc (src : Src) (m : Fin 32) (s : State) : Host.Outcome State Fault Refusal :=
  s.does fun s => s.strobe src (0x80028 + 0x4000 * m) 8

/-- R197: The receiver is forced out of block lock. -/
def execThlInjBlkloss (src : Src) (m : Fin 32) (s : State) : Host.Outcome State Fault Refusal :=
  s.does fun s => s.strobe src (0x80028 + 0x4000 * m) 16

/-- R196: One bit error is injected into the PRBS test pattern. -/
def execThlPrbsInj1 (src : Src) (m : Fin 32) (s : State) : Host.Outcome State Fault Refusal :=
  s.does fun s => s.strobe src (0x80020 + 0x4000 * m) 64

/-- R196: Looped-back PRBS bits reach a Thread lane's checker in TEST, which synchronises, sets LOCK after 64 error-free bits and counts errors in THL_PRBSERR. -/
def execThlPrbsCheck (m : Fin 32) (bits : List Bool) (s : State) : Host.Outcome State Fault Refusal :=
  s.does fun s => s.prbsCheck m bits

end Sys2Proof.Machine
end

