-- ==== Sys2Proof/Machine/TimeCmds.lean ====
section
/-!
DEFINITION. The timebase, Headband and beacons (R142 to R160): one meaning a command, named exec and the constructor.
-/

namespace Sys2Proof.Machine

/-- R144: An armed timebase event time is reached; it disarms, raises TB_EVTn and may post. -/
def execTbEventFire (n : Fin 8) (s : State) : Host.Outcome State Fault Refusal :=
  s.does fun s => s.tbEvent n

/-- R145: TMB_CMD.SET steps a master's timebase to TMB_SET. -/
def execTimebaseSet (src : Src) (s : State) : Host.Outcome State Fault Refusal :=
  s.does fun s => s.strobe src 0x60034 1

/-- R150: The master sends HB_SYNC every INT µs on every live port. -/
def execHbSyncSend (s : State) : Host.Outcome State Fault Refusal :=
  s.does fun s => s.syncOut

/-- R151: A follower accepts or rejects an HB_SYNC, forwards it and steers or steps. -/
def execHbSyncReceive (p : Fin 4) (f : Frame) (frac : BitVec 16) (residence : List (BitVec 48)) (s : State) : Host.Outcome State Fault Refusal :=
  s.does fun s => (s.consume p f).syncIn p f frac.toNat (residence.map BitVec.toNat)

/-- R152: No HB_SYNC is accepted for 8 × INT and the follower enters holdover. -/
def execSyncLoss (s : State) : Host.Outcome State Fault Refusal :=
  s.does fun s => s.syncLost

/-- R153: A PPS_IN edge is stamped and a disciplined master steers or steps. -/
def execPpsEdge (rising : Bool) (frac : BitVec 16) (s : State) : Host.Outcome State Fault Refusal :=
  s.does fun s => s.ppsIn rising frac.toNat

/-- R149: A follower sends HB_PDREQ on each live port every PDINT ms. -/
def execHbPdreqSend (s : State) : Host.Outcome State Fault Refusal :=
  s.does fun s => s.pdOut

/-- R149: The device answers an HB_PDREQ with HB_PDRESP. -/
def execHbPdreqReceive (p : Fin 4) (f : Frame) (frac : BitVec 16) (turn : BitVec 48) (s : State) : Host.Outcome State Fault Refusal :=
  s.does fun s => (s.consume p f).pdReq p f frac.toNat turn.toNat

/-- R149: A response yields a new d_p for TMB_PDELAYp. -/
def execHbPdrespReceive (p : Fin 4) (f : Frame) (frac : BitVec 16) (s : State) : Host.Outcome State Fault Refusal :=
  s.does fun s => (s.consume p f).pdResp p f frac.toNat

/-- R149: A peer-delay response not arriving within 1 ms is discarded. [DESIGN CHOICE, log 9] -/
def execPdrespTimeout (p : Fin 4) (s : State) : Host.Outcome State Fault Refusal :=
  s.does fun s => s.pdLost p

/-- R155: A beacon owner sends HB_BEACON every 10 µs. -/
def execBeaconSend (s : State) : Host.Outcome State Fault Refusal :=
  s.does fun s => s.beaconOut

/-- R156: A follower updates its position estimate or changes follower state. -/
def execHbBeaconReceive (p : Fin 5) (f : Frame) (s : State) : Host.Outcome State Fault Refusal :=
  s.does fun s => (s.consume p f).beaconIn f

/-- R157: No usable beacon for 15 µs; the follower extrapolates. -/
def execBeaconExtrap (s : State) : Host.Outcome State Fault Refusal :=
  s.does fun s => s.toExtrap

/-- R157: 100 µs without a usable beacon; position freezes, POS_BCNLOST and POSLOST. -/
def execBeaconHold (s : State) : Host.Outcome State Fault Refusal :=
  s.does fun s => s.toHold

/-- R156: A follower's estimate reaches a grid boundary at its predicted time and issues the trigger. -/
def execFollowerTrigger (s : State) : Host.Outcome State Fault Refusal :=
  s.does fun s => s.follow

/-- R158: A missed trigger is issued T_cfg after the previous one with D = MINADV. -/
def execCatchupTrigger (s : State) : Host.Outcome State Fault Refusal :=
  s.does fun s => s.catchUp

end Sys2Proof.Machine
end

