-- ==== Sys2Proof/Machine/UniformCmds.lean ====
section
/-!
DEFINITION. Uniformity calibration (R248 to R265): one meaning a command, named exec and the constructor.
-/

namespace Sys2Proof.Machine

/-- FFPER has passed: with FFAUTO the flat field of context c is due (R262), but in FAULT (R413). [DEDUCED, log 72] -/
def State.ffPeriod (s : State) (c : Nat) : State := if s.dev ≠ .fault ∧ s.gb F.CAL_CTL_FFAUTO = true ∧ s.g F.CAL_FFCFG_FFPER ≠ 0 then s.ffStart c else s

/-- R249: After SETTLE × 256 lines a module becomes quiet and its records are cleared. -/
def execQuietOnset (m : Fin 32) (s : State) : Host.Outcome State Fault Refusal :=
  s.does fun s => s.quietOnset m

/-- R254: 2^INTLG module-lines since the last publication make one pending. -/
def execPublicationInterval (m : Fin 32) (s : State) : Host.Outcome State Fault Refusal :=
  s.does fun s => s.pubInterval m

/-- R255: The solve ends; new targets are staged and CAL_PUBLISH is posted. [DESIGN CHOICE, log 113] -/
def execPublicationDone (m : Fin 32) (s : State) : Host.Outcome State Fault Refusal :=
  s.does fun s => s.pubDone m

/-- R254: CAL_CMD.PUBLISH makes a publication pending in RUN. -/
def execCalPublishCmd (src : Src) (m : Fin 32) (all : Bool) (s : State) : Host.Outcome State Fault Refusal :=
  s.does fun s => s.strobe src 0x120008 (1 + 4 * m + 128 * b2n all)

/-- R262: CAL_CMD.FF runs a flat-field publication of a context in RUN. -/
def execCalFfCmd (src : Src) (c : Fin 8) (s : State) : Host.Outcome State Fault Refusal :=
  s.does fun s => s.strobe src 0x120008 (2 + 256 * c)

/-- R262: Every FFPER seconds a flat-field publication runs. -/
def execFlatfieldPeriodic (c : Fin 8) (s : State) : Host.Outcome State Fault Refusal :=
  s.does fun s => s.ffPeriod c

/-- R261: A periodic visit tests a statistics record for an optical-dead nozzle. -/
def execStreakVisit (i : Fin 131072) (s : State) : Host.Outcome State Fault Refusal :=
  s.does fun s => s.streakVisit i

/-- R265: The next streak visit to nozzle Q of MOD declares it dead. -/
def execCalInjArm (src : Src) (m : Fin 32) (q : BitVec 12) (s : State) : Host.Outcome State Fault Refusal :=
  s.does fun s => s.wr src 0x12001C (2 ^ 31 + 2 ^ 24 * m + q.toNat)

/-- R262: A flat-field publication completes: the new bank is written, FFBANK switches unless a same-cycle software write prevails, substrate records clear and CAL_CNT_FFPUB increments. -/
def execFlatfieldPublicationDone (c : Fin 8) (s : State) : Host.Outcome State Fault Refusal :=
  s.does fun s => s.ffDone c

end Sys2Proof.Machine
end

