-- ==== Sys2Proof/Machine/Dispatch.lean ====
section
/-!
DEFINITION. The dispatch of a command to its meaning.
-/

namespace Sys2Proof.Machine

/-- The effect of a command on everything but the queue. -/
def exec (i : Instr) (s : State) : Host.Outcome State Fault Refusal :=
  match i with
  | .pwrgoodRise => Sys2Proof.Machine.execPwrgoodRise s
  | .pwrgoodFall => Sys2Proof.Machine.execPwrgoodFall s
  | .resetNAssert => Sys2Proof.Machine.execResetNAssert s
  | .resetNRelease role => Sys2Proof.Machine.execResetNRelease role s
  | .pllLock => Sys2Proof.Machine.execPllLock s
  | .fuseReadDone f => Sys2Proof.Machine.execFuseReadDone f s
  | .sramInitDone => Sys2Proof.Machine.execSramInitDone s
  | .flashDiscoveryDone sfdpOk bfptOk addr4 table quad => Sys2Proof.Machine.execFlashDiscoveryDone sfdpOk bfptOk addr4 table quad s
  | .imageHeadersRead h0 h1 => Sys2Proof.Machine.execImageHeadersRead h0 h1 s
  | .verifyPassDone img => Sys2Proof.Machine.execVerifyPassDone img s
  | .applyPassDone img => Sys2Proof.Machine.execApplyPassDone img s
  | .dramInitDone sc ok => Sys2Proof.Machine.execDramInitDone sc ok s
  | .dramTrain1dDone sc ok => Sys2Proof.Machine.execDramTrain1dDone sc ok s
  | .fillWriteDone sc ok => Sys2Proof.Machine.execFillWriteDone sc ok s
  | .dramTrain2dDone sc ok => Sys2Proof.Machine.execDramTrain2dDone sc ok s
  | .trainTimeout => Sys2Proof.Machine.execTrainTimeout s
  | .registerWrite src a w => Sys2Proof.Machine.execRegisterWrite src a w s
  | .counterReadClear src a => Sys2Proof.Machine.execCounterReadClear src a s
  | .timebaseReadLatch src idx => Sys2Proof.Machine.execTimebaseReadLatch src idx s
  | .statsRecordRead src q => Sys2Proof.Machine.execStatsRecordRead src q s
  | .errLogRead src idx => Sys2Proof.Machine.execErrLogRead src idx s
  | .jtagRegaccUpdate dr => Sys2Proof.Machine.execJtagRegaccUpdate dr s
  | .jtagRegaccDone => Sys2Proof.Machine.execJtagRegaccDone s
  | .jtagExtest scan => Sys2Proof.Machine.execJtagExtest s scan
  | .jtagSamplePreload scan => Sys2Proof.Machine.execJtagSamplePreload s scan
  | .jtagClamp => Sys2Proof.Machine.execJtagClamp s
  | .jtagHighz => Sys2Proof.Machine.execJtagHighz s
  | .jtagIdcode => Sys2Proof.Machine.execJtagIdcode s
  | .jtagBypass => Sys2Proof.Machine.execJtagBypass s
  | .qdFrameReceive p f => Sys2Proof.Machine.execQdFrameReceive p f s
  | .ingressResume => Sys2Proof.Machine.execIngressResume s
  | .inflateStart m => Sys2Proof.Machine.execInflateStart m s
  | .inflateReadError m => Sys2Proof.Machine.execInflateReadError m s
  | .inflateDone m => Sys2Proof.Machine.execInflateDone m s
  | .resendPost => Sys2Proof.Machine.execResendPost s
  | .resendAttemptEnd sig c first => Sys2Proof.Machine.execResendAttemptEnd sig c first s
  | .signatureAbort src => Sys2Proof.Machine.execSignatureAbort src s
  | .sigbaseWrite src w => Sys2Proof.Machine.execSigbaseWrite src w s
  | .ctxenWrite src k w => Sys2Proof.Machine.execCtxenWrite src k w s
  | .uploadStart n => Sys2Proof.Machine.execUploadStart n s
  | .uploadDone n => Sys2Proof.Machine.execUploadDone n s
  | .encoderEdge e a b frac => Sys2Proof.Machine.execEncoderEdge e a b frac s
  | .encoderIndexEdge e => Sys2Proof.Machine.execEncoderIndexEdge e s
  | .zarm src => Sys2Proof.Machine.execZarm src s
  | .tofEdge n x => Sys2Proof.Machine.execTofEdge n x s
  | .startCommand src => Sys2Proof.Machine.execStartCommand src s
  | .gatherLineDone m => Sys2Proof.Machine.execGatherLineDone m s
  | .trimRampStep => Sys2Proof.Machine.execTrimRampStep s
  | .fireTime m => Sys2Proof.Machine.execFireTime m s
  | .fireGroupSlot m => Sys2Proof.Machine.execFireGroupSlot m s
  | .fenFall m => Sys2Proof.Machine.execFenFall m s
  | .fenWatchdogCut m => Sys2Proof.Machine.execFenWatchdogCut m s
  | .fenCutClear src w => Sys2Proof.Machine.execFenCutClear src w s
  | .refclk0Loss => Sys2Proof.Machine.execRefclk0Loss s
  | .outputPathCalibration => Sys2Proof.Machine.execOutputPathCalibration s
  | .tbEventFire n => Sys2Proof.Machine.execTbEventFire n s
  | .timebaseSet src => Sys2Proof.Machine.execTimebaseSet src s
  | .hbSyncSend => Sys2Proof.Machine.execHbSyncSend s
  | .hbSyncReceive p f frac residence => Sys2Proof.Machine.execHbSyncReceive p f frac residence s
  | .syncLoss => Sys2Proof.Machine.execSyncLoss s
  | .ppsEdge rising frac => Sys2Proof.Machine.execPpsEdge rising frac s
  | .hbPdreqSend => Sys2Proof.Machine.execHbPdreqSend s
  | .hbPdreqReceive p f frac turn => Sys2Proof.Machine.execHbPdreqReceive p f frac turn s
  | .hbPdrespReceive p f frac => Sys2Proof.Machine.execHbPdrespReceive p f frac s
  | .pdrespTimeout p => Sys2Proof.Machine.execPdrespTimeout p s
  | .beaconSend => Sys2Proof.Machine.execBeaconSend s
  | .hbBeaconReceive p f => Sys2Proof.Machine.execHbBeaconReceive p f s
  | .beaconExtrap => Sys2Proof.Machine.execBeaconExtrap s
  | .beaconHold => Sys2Proof.Machine.execBeaconHold s
  | .followerTrigger => Sys2Proof.Machine.execFollowerTrigger s
  | .catchupTrigger => Sys2Proof.Machine.execCatchupTrigger s
  | .thlDetectProbe m found => Sys2Proof.Machine.execThlDetectProbe m found s
  | .thlBitLock m => Sys2Proof.Machine.execThlBitLock m s
  | .thlTsReceive m b locked => Sys2Proof.Machine.execThlTsReceive m b locked s
  | .thlCpReceive m b => Sys2Proof.Machine.execThlCpReceive m b s
  | .thlCrReceive m b => Sys2Proof.Machine.execThlCrReceive m b s
  | .thlCmdTimeout m => Sys2Proof.Machine.execThlCmdTimeout m s
  | .thlStageTimeout m => Sys2Proof.Machine.execThlStageTimeout m s
  | .thlRetryDelayEnd m => Sys2Proof.Machine.execThlRetryDelayEnd m s
  | .thlAkReceive m b => Sys2Proof.Machine.execThlAkReceive m b s
  | .thlAckTimeout m lfn g => Sys2Proof.Machine.execThlAckTimeout m lfn g s
  | .thlIdleInsert m => Sys2Proof.Machine.execThlIdleInsert m s
  | .thlStatusFrame m b => Sys2Proof.Machine.execThlStatusFrame m b s
  | .moduleStatusLost m => Sys2Proof.Machine.execModuleStatusLost m s
  | .thlLockLoss m => Sys2Proof.Machine.execThlLockLoss m s
  | .thlSyncErrorLimit m => Sys2Proof.Machine.execThlSyncErrorLimit m s
  | .thlRetrain src m => Sys2Proof.Machine.execThlRetrain src m s
  | .thlRestore src m => Sys2Proof.Machine.execThlRestore src m s
  | .thlTest src m => Sys2Proof.Machine.execThlTest src m s
  | .thlTestexit src m => Sys2Proof.Machine.execThlTestexit src m s
  | .thlInjBcrc src m => Sys2Proof.Machine.execThlInjBcrc src m s
  | .thlInjHcrc src m => Sys2Proof.Machine.execThlInjHcrc src m s
  | .thlInjAckdrop src m => Sys2Proof.Machine.execThlInjAckdrop src m s
  | .thlInjScrc src m => Sys2Proof.Machine.execThlInjScrc src m s
  | .thlInjBlkloss src m => Sys2Proof.Machine.execThlInjBlkloss src m s
  | .thlPrbsInj1 src m => Sys2Proof.Machine.execThlPrbsInj1 src m s
  | .measSend m => Sys2Proof.Machine.execMeasSend m s
  | .nozzleMapWindowWrite src idx w => Sys2Proof.Machine.execNozzleMapWindowWrite src idx w s
  | .mapWriteStage m => Sys2Proof.Machine.execMapWriteStage m s
  | .nozzleSweep src => Sys2Proof.Machine.execNozzleSweep src s
  | .nozzleMapDump src => Sys2Proof.Machine.execNozzleMapDump src s
  | .nozzleMapDumpDirty src => Sys2Proof.Machine.execNozzleMapDumpDirty src s
  | .nzhInjArm src m code => Sys2Proof.Machine.execNzhInjArm src m code s
  | .ctrigRise k => Sys2Proof.Machine.execCtrigRise k s
  | .ctrigFall k => Sys2Proof.Machine.execCtrigFall k s
  | .lstbRise k => Sys2Proof.Machine.execLstbRise k s
  | .lstbFall k => Sys2Proof.Machine.execLstbFall k s
  | .csiFrameStart p h num => Sys2Proof.Machine.execCsiFrameStart p h num s
  | .csiFrameEnd p h => Sys2Proof.Machine.execCsiFrameEnd p h s
  | .csiLongPacket p h dt b crcOk => Sys2Proof.Machine.execCsiLongPacket p h dt b crcOk s
  | .dphyStateChange p hs ulps deskew => Sys2Proof.Machine.execDphyStateChange p hs ulps deskew s
  | .pipelineFrameTake => Sys2Proof.Machine.execPipelineFrameTake s
  | .pipelineFrameDone => Sys2Proof.Machine.execPipelineFrameDone s
  | .insClrstat src => Sys2Proof.Machine.execInsClrstat src s
  | .insRestore src ports => Sys2Proof.Machine.execInsRestore src ports s
  | .insInjHdrecc src p => Sys2Proof.Machine.execInsInjHdrecc src p s
  | .insInjPcrc src p => Sys2Proof.Machine.execInsInjPcrc src p s
  | .insInjOvf src p => Sys2Proof.Machine.execInsInjOvf src p s
  | .insInjRegfail src p => Sys2Proof.Machine.execInsInjRegfail src p s
  | .quietOnset m => Sys2Proof.Machine.execQuietOnset m s
  | .publicationInterval m => Sys2Proof.Machine.execPublicationInterval m s
  | .publicationDone m => Sys2Proof.Machine.execPublicationDone m s
  | .calPublishCmd src m all => Sys2Proof.Machine.execCalPublishCmd src m all s
  | .calFfCmd src c => Sys2Proof.Machine.execCalFfCmd src c s
  | .flatfieldPeriodic c => Sys2Proof.Machine.execFlatfieldPeriodic c s
  | .streakVisit idx => Sys2Proof.Machine.execStreakVisit idx s
  | .calInjArm src m q => Sys2Proof.Machine.execCalInjArm src m q s
  | .folLineReceive p f => Sys2Proof.Machine.execFolLineReceive p f s
  | .folFwdReceive p f => Sys2Proof.Machine.execFolFwdReceive p f s
  | .folStartReceive p f => Sys2Proof.Machine.execFolStartReceive p f s
  | .folStateReceive p f => Sys2Proof.Machine.execFolStateReceive p f s
  | .folDigestReceive p f => Sys2Proof.Machine.execFolDigestReceive p f s
  | .folJoinReceive p f => Sys2Proof.Machine.execFolJoinReceive p f s
  | .folStateSend => Sys2Proof.Machine.execFolStateSend s
  | .folPeerTimeout => Sys2Proof.Machine.execFolPeerTimeout s
  | .selfcheckScrubDone => Sys2Proof.Machine.execSelfcheckScrubDone s
  | .suspectClear => Sys2Proof.Machine.execSuspectClear s
  | .joinSpanEnd => Sys2Proof.Machine.execJoinSpanEnd s
  | .folSelfchkCmd src => Sys2Proof.Machine.execFolSelfchkCmd src s
  | .folJoinCmd src => Sys2Proof.Machine.execFolJoinCmd src s
  | .folSwapCmd src => Sys2Proof.Machine.execFolSwapCmd src s
  | .folInjCfgdig src => Sys2Proof.Machine.execFolInjCfgdig src s
  | .folInjDrop src => Sys2Proof.Machine.execFolInjDrop src s
  | .folInjDigest src m => Sys2Proof.Machine.execFolInjDigest src m s
  | .dramRequest master a wr b len node => Sys2Proof.Machine.execDramRequest master a wr b len node s
  | .dramWriteIssue sc => Sys2Proof.Machine.execDramWriteIssue sc s
  | .dramReadDone sc errs errs2 => Sys2Proof.Machine.execDramReadDone sc errs errs2 s
  | .writeCrcAlert sc => Sys2Proof.Machine.execWriteCrcAlert sc s
  | .refreshTick sc rank => Sys2Proof.Machine.execRefreshTick sc rank s
  | .refreshIssue sc rank => Sys2Proof.Machine.execRefreshIssue sc rank s
  | .mr4Poll sc rank rate => Sys2Proof.Machine.execMr4Poll sc rank rate s
  | .periodicRetrainStep sc moved readErr => Sys2Proof.Machine.execPeriodicRetrainStep sc moved readErr s
  | .patrolRead sc errs errs2 => Sys2Proof.Machine.execPatrolRead sc errs errs2 s
  | .memRestore src scs => Sys2Proof.Machine.execMemRestore src scs s
  | .memPass src => Sys2Proof.Machine.execMemPass src s
  | .memBypassWrite src on => Sys2Proof.Machine.execMemBypassWrite src on s
  | .memInjArm src sc dev val s2 s1 => Sys2Proof.Machine.execMemInjArm src sc dev val s2 s1 s
  | .memInjWcrc src sc => Sys2Proof.Machine.execMemInjWcrc src sc s
  | .spnDetectProbe p lanes => Sys2Proof.Machine.execSpnDetectProbe p lanes s
  | .spnBitLock p lanes => Sys2Proof.Machine.execSpnBitLock p lanes s
  | .spnCfgReceive p m => Sys2Proof.Machine.execSpnCfgReceive p m s
  | .spnStageTimeout p => Sys2Proof.Machine.execSpnStageTimeout p s
  | .spnRetryDelayEnd p => Sys2Proof.Machine.execSpnRetryDelayEnd p s
  | .spnAmSend p => Sys2Proof.Machine.execSpnAmSend p s
  | .spnAmReceive p l rx deskewed farStage => Sys2Proof.Machine.execSpnAmReceive p l rx deskewed farStage s
  | .spnLockLoss p l => Sys2Proof.Machine.execSpnLockLoss p l s
  | .spnSyncErrorLimit p l => Sys2Proof.Machine.execSpnSyncErrorLimit p l s
  | .spineFrameReceive p b residence => Sys2Proof.Machine.execSpineFrameReceive p b residence s
  | .spnAckReceive p blk => Sys2Proof.Machine.execSpnAckReceive p blk s
  | .spnNakReceive p blk => Sys2Proof.Machine.execSpnNakReceive p blk s
  | .spnCreditReceive p blk => Sys2Proof.Machine.execSpnCreditReceive p blk s
  | .spnAckSend p => Sys2Proof.Machine.execSpnAckSend p s
  | .spnCreditRepeat p => Sys2Proof.Machine.execSpnCreditRepeat p s
  | .spnReplayTimeout p => Sys2Proof.Machine.execSpnReplayTimeout p s
  | .rdReqReceive p f => Sys2Proof.Machine.execRdReqReceive p f s
  | .wrReqReceive p f => Sys2Proof.Machine.execWrReqReceive p f s
  | .wrPostReceive p f => Sys2Proof.Machine.execWrPostReceive p f s
  | .respReceive p f => Sys2Proof.Machine.execRespReceive p f s
  | .completionTimeout tag => Sys2Proof.Machine.execCompletionTimeout tag s
  | .discReceive p f => Sys2Proof.Machine.execDiscReceive p f s
  | .discRespReceive p f => Sys2Proof.Machine.execDiscRespReceive p f s
  | .attestReqReceive p f => Sys2Proof.Machine.execAttestReqReceive p f s
  | .attestSignDone => Sys2Proof.Machine.execAttestSignDone s
  | .spnDiscgo src => Sys2Proof.Machine.execSpnDiscgo src s
  | .spnQcmdAdmit src check => Sys2Proof.Machine.execSpnQcmdAdmit src check s
  | .spnPcmdAdmit src p check => Sys2Proof.Machine.execSpnPcmdAdmit src p check s
  | .spnPcmdTest src via p => Sys2Proof.Machine.execSpnPcmdTest src via p s
  | .spnPcmdTestexit src p => Sys2Proof.Machine.execSpnPcmdTestexit src p s
  | .spnPcmdRestore src p => Sys2Proof.Machine.execSpnPcmdRestore src p s
  | .spnPcmdRetrain src p => Sys2Proof.Machine.execSpnPcmdRetrain src p s
  | .spnInjFcrc src p => Sys2Proof.Machine.execSpnInjFcrc src p s
  | .spnInjHcrc src p => Sys2Proof.Machine.execSpnInjHcrc src p s
  | .spnInjAckdrop src p => Sys2Proof.Machine.execSpnInjAckdrop src p s
  | .spnInjLaneerr src p l => Sys2Proof.Machine.execSpnInjLaneerr src p l s
  | .spnInjBlkloss src p l => Sys2Proof.Machine.execSpnInjBlkloss src p l s
  | .spnPrbsInj1 src p => Sys2Proof.Machine.execSpnPrbsInj1 src p s
  | .mbxGo src c w => Sys2Proof.Machine.execMbxGo src c w s
  | .mbxWithdraw src c => Sys2Proof.Machine.execMbxWithdraw src c s
  | .mbxOwnerWrite src c w => Sys2Proof.Machine.execMbxOwnerWrite src c w s
  | .ringEnableWrite src n w => Sys2Proof.Machine.execRingEnableWrite src n w s
  | .ringTailWrite src n w => Sys2Proof.Machine.execRingTailWrite src n w s
  | .descriptorWriteAccepted => Sys2Proof.Machine.execDescriptorWriteAccepted s
  | .descriptorWriteError => Sys2Proof.Machine.execDescriptorWriteError s
  | .notifySend n => Sys2Proof.Machine.execNotifySend n s
  | .hrbMinLowEnd => Sys2Proof.Machine.execHrbMinLowEnd s
  | .lockRead src idx => Sys2Proof.Machine.execLockRead src idx s
  | .lockWrite src idx w => Sys2Proof.Machine.execLockWrite src idx w s
  | .lockcmdForce src idx => Sys2Proof.Machine.execLockcmdForce src idx s
  | .lockcmdAllnode src code node => Sys2Proof.Machine.execLockcmdAllnode src code node s
  | .glbAttnClear src w => Sys2Proof.Machine.execGlbAttnClear src w s
  | .supervisorRound => Sys2Proof.Machine.execSupervisorRound s
  | .smtTimerExpire m => Sys2Proof.Machine.execSmtTimerExpire m s
  | .smtEvcmdWrite src code param => Sys2Proof.Machine.execSmtEvcmdWrite src code param s
  | .smtDevreqRun src => Sys2Proof.Machine.execSmtDevreqRun src s
  | .smtDevreqHold src => Sys2Proof.Machine.execSmtDevreqHold src s
  | .smtDevreqStop src => Sys2Proof.Machine.execSmtDevreqStop src s
  | .smtDevreqCut src => Sys2Proof.Machine.execSmtDevreqCut src s
  | .smtMpendClear src m w => Sys2Proof.Machine.execSmtMpendClear src m w s
  | .cloReboot src key => Sys2Proof.Machine.execCloReboot src key s
  | .cloFlashGo src w => Sys2Proof.Machine.execCloFlashGo src w s
  | .cloFlashDone data => Sys2Proof.Machine.execCloFlashDone data s
  | .errRunClose key => Sys2Proof.Machine.execErrRunClose key s
  | .errTailWrite src w => Sys2Proof.Machine.execErrTailWrite src w s
  | .errDump src => Sys2Proof.Machine.execErrDump src s
  | .errBlkclr src => Sys2Proof.Machine.execErrBlkclr src s
  | .errFirstclr src => Sys2Proof.Machine.execErrFirstclr src s
  | .errInjArm src id inst arg => Sys2Proof.Machine.execErrInjArm src id inst arg s
  | .sramScrub array word ue => Sys2Proof.Machine.execSramScrub array word ue s
  | .tjConversion t => Sys2Proof.Machine.execTjConversion t s
  | .refclk0Return => Sys2Proof.Machine.execRefclk0Return s
  | .thlPrbsCheck m bits => Sys2Proof.Machine.execThlPrbsCheck m bits s
  | .spnPrbsCheck p l bits => Sys2Proof.Machine.execSpnPrbsCheck p l bits s
  | .spnInvalidSyncHeader p l => Sys2Proof.Machine.execSpnInvalidSyncHeader p l s
  | .csiShortPacket p h dt => Sys2Proof.Machine.execCsiShortPacket p h dt s
  | .flatfieldPublicationDone c => Sys2Proof.Machine.execFlatfieldPublicationDone c s
  | .folLineTimeout => Sys2Proof.Machine.execFolLineTimeout s
  | .discFloodWindowEnd => Sys2Proof.Machine.execDiscFloodWindowEnd s

end Sys2Proof.Machine
end

