-- ==== Sys2Proof/Safety.lean ====
section
/-!
DEFINITION. What a safe run is: states whose sparse stores are in canonical form, FEN low where no pulse of RUN can stand, changes of the device state by the rows of R410, and
steps that answer a next state.
-/

namespace Sys2Proof

/-- The register copies, the table windows and the DRAM codewords are in canonical form. -/
def Machine.State.wf (s : Machine.State) : Bool :=
  Machine.spWf Machine.resetAt s.regs && Machine.spWf Machine.resetAt s.active && Machine.spWf (fun _ => (0 : Word)) s.win
    && Machine.Memory.wf s.dram

/-- Register accesses are answered: not in OFF, and not in RESET. -/
def Machine.State.answers (s : Machine.State) : Prop := s.dev ≠ .off ∧ s.dev ≠ .reset

/-- The rows of R410's table but those to OFF and to RESET, which start from any state. -/
def devRow : Machine.Dev → Machine.Dev → Bool
  | .reset, .load | .load, .fill | .load, .train | .fill, .train | .fill, .fault | .train, .fault => true
  | .train, .standby | .train, .quarantine | .quarantine, .standby => true
  | .standby, .run | .hold, .run | .run, .hold => true
  | .run, .standby | .hold, .standby | .fault, .standby => true
  | .standby, .fault | .run, .fault | .hold, .fault => true
  | .standby, .retired | .run, .retired | .hold, .retired | .fault, .retired => true
  | _, _ => false

/-- A change of the device state in rows of R410's table. -/
inductive DevPath : Machine.Dev → Machine.Dev → Prop where
  | stay (a : Machine.Dev) : DevPath a a
  | row {a b c : Machine.Dev} (h : DevPath a b) (r : devRow b c = true) : DevPath a c

/-- States in which no pulse that began in RUN can stand (R18, R20, R411): FEN is low there. -/
def noPulse (d : Machine.Dev) : Bool := d == .load || d == .fill || d == .train || d == .fault || d == .quarantine || d == .retired

/-- The Firing column of R18 with R411, and R459: a boundary-scan hold stands only in OFF and RESET. -/
def Machine.State.fenRule (s : Machine.State) : Prop :=
  (s.jtag.hold = true → s.dev = .off ∨ s.dev = .reset) ∧ (noPulse s.dev = true → ∀ k < 32, (s.fen k).high = false)

/-- A step answers a next state: neither a fault nor a refusal. -/
def Completes (s : Machine.State) : Prop := ∃ t, Machine.step s = .next t

end Sys2Proof
end

