-- ==== Sys2Proof/Certificates/Slice0/Obligations.lean ====
section
/-!
DEFINITION. The statements for the provers: what the block's commands do, family by family, with the rules of the spec they state.
-/

open Sys2Proof Sys2Proof.Machine

/-- A step with a command waiting is that command's meaning, on the state without it. -/
def Obligations.StepRunsFront : Prop :=
  ∀ (s : State) (c : Instr) (rest : List Instr), s.pending = c :: rest → step s = exec c { s with pending := rest }

/-- With an empty queue a step is one TBCLK cycle (the model's choice, log 2): the accumulator of R142 advances, and the controller's clock counts the cycle. Every
command completes, and none touches the queue. -/
def Obligations.StepsComplete : Prop :=
  (∀ s : State, s.pending = [] → ∃ t, step s = .next (s.after t) ∧ t.ns = s.ns + 1 ∧ t.regs = s.regs ∧ t.dev = s.dev ∧ t.dram = s.dram ∧
     ((t.tb.toNat : Int) * 2 ^ 24 + t.tbFrac) % 2 ^ 88 = ((s.tb.toNat : Int) * 2 ^ 24 + s.tbFrac + 2 ^ 40 + sext 32 (s.g F.TMB_FADJ_ADJ)) % 2 ^ 88) ∧
  (∀ (c : Instr) (s : State), ∃ t, exec c s = .next t ∧ t.pending = s.pending)

/-- The HRB column of R18 and the first sentence of R19, kept by every step: HRB high means STANDBY or RUN with no reason pending. -/
def Obligations.StepKeepsHrbRule : Prop :=
  ∀ s t : State, (s.hrb = true → (s.dev = .standby ∨ s.dev = .run) ∧ s.attn = 0) → step s = .next t →
    (t.hrb = true → (t.dev = .standby ∨ t.dev = .run) ∧ t.attn = 0)

/-- R410: a step that leaves the device in another state took rows of its table, unless it ends in OFF or RESET, which any step may enter. -/
def Obligations.DeviceRows : Prop :=
  ∀ s t : State, step s = .next t → t.dev = .off ∨ t.dev = .reset ∨ DevPath s.dev t.dev

/-- The stores stay in canonical form: register copies, table windows and DRAM codewords. -/
def Obligations.StepKeepsWf : Prop := ∀ s t : State, s.wf = true → step s = .next t → t.wf = true

/-- The Firing column of R18 with R20 and R411, kept by every step: FEN is low where no pulse that began in RUN can stand; and no step outside RUN, OFF and RESET makes a FEN
output rise. -/
def Obligations.StepKeepsFenRule : Prop :=
  ∀ s t : State, s.fenRule → step s = .next t →
    t.fenRule ∧ (s.dev ≠ .run → s.dev ≠ .off → s.dev ≠ .reset → t.dev ≠ .reset → ∀ k < 32, (s.fen k).high = false → (t.fen k).high = false)

/-- What reset leaves: LOAD, with PREV = RESET, HRB low, nothing waiting, an empty log, stores in canonical form that list nothing, and every FEN output low. -/
def Obligations.ResetState : Prop :=
  State.reset.dev = .load ∧ State.reset.prev = .reset ∧ State.reset.hrb = false ∧ State.reset.pending = [] ∧ State.reset.err.log = [] ∧
    State.reset.dram = [] ∧ State.reset.wf = true ∧ State.reset.fenRule ∧
    ∀ a, State.reset.reg a = (resetAt a).toNat ∧ State.reset.act a = (resetAt a).toNat ∧ State.reset.winWord a = 0

/-- What follows a command when nothing new has come up: HRB alone (R377), by whether the state and the reasons allow it. -/
def Obligations.AfterQuiet : Prop :=
  ∀ s x : State, (∀ c < 64, (x.chPending c && x.msgClass c != 1) = false) → x.fol.stopDue = false → x.dev ≠ .train → x.dev ≠ .fault → x.dev ≠ .retired →
    x.standby = s.standby → x.running = true ∨ x.fol.joinW = [] ∧ x.fol.regs = [] → maskIn x.attn x.mbx.attnSeen 0 = 0 →
    ∃ (h : Bool) (f : Option Nat), s.after x = { x with pending := s.pending, hrb := h, hrbFell := f, mbx := { x.mbx with attnSeen := x.attn } } ∧
      (h = true → x.hrbHigh = true) ∧ (s.hrb = true → x.hrbHigh = true → h = true) ∧
      (s.hrb = false → x.hrbHigh = true → (∀ t, x.hrbFell = some t → t + 1000 ≤ x.ns) → h = true) ∧
      (s.hrb = true → x.hrbHigh = false → f = some x.ns)

/-- Entry to RESET and to OFF (R408, R410, R432, R449); the steps of R408, with no boundary-scan hold. -/
def Obligations.PowerAndReset : Prop :=
  (∀ s : State,
     let r : State := { State.reset with
       dev := .reset, prev := s.dev, clo := { step := .resetHeld }, free := s.free, ns := s.ns, hrbFell := s.hrbFell, pending := s.pending, fir := { clkLost := s.fir.clkLost }
       err := { inj := s.err.inj.filter fun j => j.id == 0x1B }, jtag := { s.jtag with busy := none, done := false, missed := false } }
     (s.dev = .off → exec .pwrgoodRise s = .next (s.after r.scanOut)) ∧ (s.dev ≠ .off → exec .pwrgoodRise s = .next (s.after s.begun)) ∧
     (s.dev ≠ .off → exec .resetNAssert s = .next (s.after r.scanOut)) ∧ (s.jtag.hold = false → r.scanOut = r ∧ ∀ k, r.fenBall k = .z ∧ r.ctrigBall k = .z ∧ r.lstbBall k = .z) ∧ (s.dev = .off → exec .resetNAssert s = .next (s.after s.begun)) ∧
     exec .pwrgoodFall s = .next (s.after { r with dev := .off, clo := { step := .off }, err := {}, jtag := {} })) ∧
  (∀ (s : State) (f : Fuses) (role : Bool), s.dev = .reset → s.jtag.hold = false →
     (s.clo.step = .resetHeld → exec (.resetNRelease role) s = .next (s.after { s.begun with role := role, clo := { s.clo with step := .pll } })) ∧
     (s.clo.step = .pll → exec .pllLock s = .next (s.after { s.begun with clo := { s.clo with step := .fuse } })) ∧
     (s.clo.step = .fuse → exec (.fuseReadDone f) s = .next (s.after { s.begun with fuses := f, clo := { s.clo with step := .sram } })) ∧
     (s.clo.step = .sram → ∃ t, exec .sramInitDone s = .next (s.after t) ∧ t.dev = .load ∧ t.prev = .reset ∧ t.clo.step = .discovery ∧
       t.g F.FOL_STS_HOMEROLE = b2n s.role ∧ t.g F.FOL_STS_ACTROLE = b2n s.role ∧ (∀ a, a ≠ F.FOL_STS_HOMEROLE.addr → t.reg a = (resetAt a).toNat) ∧
       t.out = [.flash { op := 0xAB }, .flash { op := 0x66 }, .flash { op := 0x99 }, .flash { op := 0x5A, addr := some 0, addrBytes := 3, dummy := 8, len := none }]))

/-- R414: with the key, what a pulse of RESET_N begins; else one record CLO_CMD. A register access is answered in every state but OFF and RESET. -/
def Obligations.RebootNeedsKey : Prop :=
  ∀ (s : State) (src : Src) (key : BitVec 16), s.dev ≠ .off → s.dev ≠ .reset →
    (key = 0x4B44 → exec (.cloReboot src key) s = exec .resetNAssert s) ∧
    (key ≠ 0x4B44 → exec (.cloReboot src key) s = .next (s.after (s.begun.recReg E.CLO_CMD 0x10004 src)))

/-- R382 and R390 in LOAD. -/
def Obligations.DiscoveryAndHeaders : Prop :=
  ∀ (s : State) (r4 q4 : Bool) (q : Option (Fin 8)) (h0 h1 : Bytes), s.dev = .load →
    (s.clo.step = .discovery → ∃ t, exec (.flashDiscoveryDone true true true ⟨r4, q4⟩ q) s = .next (s.after t) ∧ t.clo.step = .headers ∧
      t.clo.rdOp = (if r4 then 0x0C else 0x0B) ∧ (q = none → t.clo.quadOp = none) ∧
      (∀ k, q = some k → t.clo.quadOp = some (if q4 then 0x6C else 0x6B) ∧ t.clo.quadReq = k.val ∧ t.clo.quadOn = false) ∧ t.regs = s.regs) ∧
    (s.clo.step = .discovery → ∀ a b c : Bool, (a && b && c) = false → ∃ t, exec (.flashDiscoveryDone a b c ⟨r4, q4⟩ q) s = .next (s.after t) ∧
      t.dev = .train ∧ t.clo.step = .done ∧ t.clo.todo = []) ∧
    (s.clo.step = .headers → ∀ x y : ImgHdr, parseHeader h0 = .inr x → parseHeader h1 = .inr y →
      ∃ t, exec (.imageHeadersRead h0 h1) s = .next (s.after t) ∧ t.clo.step = .verify ∧ t.dev = .load ∧
        t.clo.todo = (if 0 < sext 32 (y.seq + 2 ^ 32 - x.seq) then [true, false] else [false, true])) ∧
    (s.clo.step = .headers → ∀ (x : ImgHdr) (o : Nat), parseHeader h0 = .inr x → parseHeader h1 = .inl o → s.clo.hdr1 = none →
      ∃ t, exec (.imageHeadersRead h0 h1) s = .next (s.after t) ∧ t.clo.step = .verify ∧ t.dev = .load ∧ t.clo.todo = [false]) ∧
    (s.clo.step = .headers → ∀ (x : ImgHdr) (o : Nat), parseHeader h0 = .inl o → parseHeader h1 = .inr x → s.clo.hdr0 = none →
      ∃ t, exec (.imageHeadersRead h0 h1) s = .next (s.after t) ∧ t.clo.step = .verify ∧ t.dev = .load ∧ t.clo.todo = [true]) ∧
    (s.clo.step = .headers → ∀ o o' : Nat, parseHeader h0 = .inl o → parseHeader h1 = .inl o' → s.clo.hdr0 = none → s.clo.hdr1 = none →
      ∃ t, exec (.imageHeadersRead h0 h1) s = .next (s.after t) ∧ t.clo.step = .done ∧ t.dev = .train ∧ t.gb F.CLO_STS_RECOVERY = true)

/-- R391 and R392 for the copy in hand; no injection 0x1B pending. -/
def Obligations.VerifyAndApply : Prop :=
  ∀ (s : State) (img : Bytes) (c : Bool) (rest : List Bool) (h : ImgHdr), s.dev = .load → s.clo.todo = c :: rest → s.hdr c = some h → s.err.inj = none →
    (s.clo.step = .verify → ∀ (z : List Section) (auth : Bool), verifyCopy h s.fuses.keyHash false img = .inr (z, auth) →
      ∃ t, exec (.verifyPassDone img) s = .next (s.after t) ∧ t.clo.step = .apply ∧ t.clo.todo = c :: rest ∧ t.dev = .load ∧ t.dram = s.dram ∧ t.win = s.win ∧
        t.g F.CLO_STS_AUTH = b2n auth ∧ ∀ i < 8, t.g (F.CLO_DIGEST_D i) = ofBe (slice (sha256 (img.take h.len)) (4 * i) 4)) ∧
    (s.clo.step = .verify → ∀ (e : CopyErr) (o : Nat), verifyCopy h s.fuses.keyHash false img = .inl (e, o) →
      (rest = [] → ∃ t, exec (.verifyPassDone img) s = .next (s.after t) ∧ t.dev = .train ∧ t.clo.todo = []) ∧
      (∀ d rest', rest = d :: rest' → (s.hdr d).isSome = true →
        ∃ t, exec (.verifyPassDone img) s = .next (s.after t) ∧ t.dev = .load ∧ t.clo.step = .verify ∧ t.clo.todo = rest)) ∧
    (s.clo.step = .apply → ∀ secs, sectionsFrom img h.len (h.len / 8 + 1) 64 = .inr secs → (∀ x ∈ secs, x.crcOk img = true) →
      ∃ t, exec (.applyPassDone img) s = .next (s.after t) ∧ t.clo.step = .done ∧ t.clo.todo = [] ∧ t.dram = [] ∧ t.gb F.CLO_STS_LOADED = true ∧ t.g F.CLO_STS_COPY = b2n c ∧
        (t.dev = .fill ∨ t.dev = .fault) ∧ (cfgSubs t.mem.cfg ≠ 0 → t.dev = .fill ∧ ∀ i < cfgSubs t.mem.cfg, (t.sc i).st = .init)) ∧
    (s.clo.step = .apply → ∀ secs, sectionsFrom img h.len (h.len / 8 + 1) 64 = .inr secs → (∃ x ∈ secs, x.crcOk img = false) →
      (rest = [] → ∃ t, exec (.applyPassDone img) s = .next (s.after t) ∧ t.dev = .train ∧ t.clo.todo = []) ∧
      (∀ d rest', rest = d :: rest' → (s.hdr d).isSome = true →
        ∃ t, exec (.applyPassDone img) s = .next (s.after t) ∧ t.dev = .load ∧ t.clo.step = .verify ∧ t.clo.todo = rest))

/-- The steps of R297 and R298 of one subchannel. -/
def Obligations.SubchannelSteps : Prop :=
  ∀ (s : State) (i : Fin 4),
    ((s.sc i).st = .init → (s.sc i).done = 0 →
      exec (.dramInitDone i true) s = .next (s.after (s.begun.modSc i fun q => { q with done := 1, fails := 0 }))) ∧
    ((s.sc i).st = .init → (s.sc i).done = 0 → (s.sc i).fails < 3 →
      exec (.dramInitDone i false) s = .next (s.after (s.begun.modSc i fun q => { q with fails := q.fails + 1 }))) ∧
    ((s.sc i).st = .init → (s.sc i).done = 0 → (s.sc i).fails = 3 → s.gb F.MEM_CTL_RETEN = true →
      ∃ t : State, exec (.dramInitDone i false) s = .next (s.after t.fillCheck) ∧ (t.sc i).st = .retired) ∧
    ((s.sc i).st = .init → (s.sc i).done = 1 → (s.sc i).fails < 3 →
      exec (.dramTrain1dDone i false) s = .next (s.after (s.begun.modSc i fun q => { q with fails := q.fails + 1 }))) ∧
    ((s.sc i).st = .init → (s.sc i).done = 1 →
      exec (.dramTrain1dDone i true) s = .next (s.after (s.begun.modSc i fun q => { q with done := 2, fails := 0, st := .filling }).memStatus)) ∧
    (((s.begun.refillSc i).fillInj i |>.sc i).st = .filling → (s.sc i).st = .filling → exec (.fillWriteDone i true) s =
      .next (s.after (((s.begun.refillSc i).fillInj i).modSc i fun q => { q with done := 3, fails := 0, st := .training }).fillCheck)) ∧
    (((s.begun.refillSc i).fillInj i |>.sc i).st ≠ .filling → (s.sc i).st = .filling → exec (.fillWriteDone i true) s = .next (s.after ((s.begun.refillSc i).fillInj i).fillCheck)) ∧
    ((s.sc i).st = .filling → (s.sc i).fails < 3 →
      exec (.fillWriteDone i false) s = .next (s.after (s.begun.modSc i fun q => { q with fails := q.fails + 1 }))) ∧
    ((s.sc i).injArm = none → (s.sc i).injCrc = false → (s.refillSc i).fillInj i = s.refillSc i) ∧
    ((s.sc i).st = .training → s.dev ≠ .fill →
      exec (.dramTrain2dDone i true) s = .next (s.after (s.begun.modSc i fun q => { q with done := 4, fails := 0, st := .active, patrolAt := s.ns }).fillCheck)) ∧
    ((s.sc i).st = .training → s.dev ≠ .fill → (s.sc i).fails < 3 →
      exec (.dramTrain2dDone i false) s = .next (s.after (s.begun.modSc i fun q => { q with fails := q.fails + 1 }))) ∧
    (s.dev = .train → exec .trainTimeout s = .next (s.after { s.begun with clo := { s.clo with timeUp := true } }.leaveTrain))

/-- R394, the register's fields as they stand before GO, and GLB_TJ (R438). -/
def Obligations.FlashAndTemperature : Prop :=
  ∀ (s : State) (src : Src) (w : Word) (data : Bytes) (c : BitVec 16), s.dev = .standby ∨ s.dev = .run ∨ s.dev = .hold ∨ s.dev = .fault →
    (s.gb F.CLO_FCTL_BUSY = false → ∃ t, exec (.cloFlashGo src w) s = .next (s.after t) ∧ t.gb F.CLO_FCTL_BUSY = true ∧
      t.clo.xfer = some (bitOf w.toNat 21, Nat.min 256 (bitsOf w.toNat 16 8)) ∧ t.out =
      [.flash { op := w.toNat % 256, addrBytes := if bitsOf w.toNat 23 22 = 1 then 3 else 4, dummy := bitsOf w.toNat 27 24, quad := bitOf w.toNat 20, sck := s.clo.sck, len := some (Nat.min 256 (bitsOf w.toNat 16 8))
                addr := if bitsOf w.toNat 23 22 = 0 then none else some (if bitsOf w.toNat 23 22 = 1 then s.g F.CLO_FADDR_ADDR % 2 ^ 24 else s.g F.CLO_FADDR_ADDR)
                data := if bitOf w.toNat 21 then s.fbuf (Nat.min 256 (bitsOf w.toNat 16 8)) else [] }]) ∧
    (s.gb F.CLO_FCTL_BUSY = true → ∃ t, exec (.cloFlashGo src w) s = .next (s.after t) ∧ t.gb F.CLO_FCTL_BUSY = true ∧ t.out = []) ∧
    (s.clo.xfer = none → exec (.cloFlashDone data) s = .next (s.after s.begun)) ∧
    (∀ n, s.clo.xfer = some (true, n) → exec (.cloFlashDone data) s = .next (s.after ((s.begun.p F.CLO_FCTL_BUSY 0).modClo fun x => { x with xfer := none }))) ∧
    (∀ n, s.clo.xfer = some (false, n) → ∃ t, exec (.cloFlashDone data) s = .next (s.after t) ∧ t.gb F.CLO_FCTL_BUSY = false ∧ t.clo.xfer = none ∧
      ∀ i < 64, 4 * i + 4 ≤ n → 4 * i + 4 ≤ data.length → t.g (F.CLO_FBUF_DATA i) = leAt data (4 * i) 4) ∧
    exec (.tjConversion c) s = .next (s.after ((s.begun.p F.GLB_TJ_VALID 1).p F.GLB_TJ_TEMP c.toNat))

/-- R6: by alignment for every access, by width for the Spine transactions, which alone carry one. -/
def Obligations.UnalignedAccess : Prop :=
  ∀ (s : State) (src : Src) (via : Option Nat) (a w : Nat),
    (a % 4 ≠ 0 → (s.writeAt src via a w = (.access, s)) ∧ s.busRead src a = (.access, 0, s)) ∧
    (∀ (x v : Word), x.toNat % 4 ≠ 0 → exec (.registerWrite src x v) s = .next (s.after s.begun) ∧ exec (.counterReadClear src x) s = .next (s.after s.begun)) ∧
    (∀ (p : Fin 5) (f : Frame) (r : Nat), targetOf (leAt (txnBody f) 0 8) = .regs r → s.refuses p f = false → s.reqBehind p f = false →
      (leAt (txnBody f) 8 2 ≠ 4 → exec (.rdReqReceive p f) s = .next (s.after ((s.begun.consume p f).respond p f .access []))) ∧
      (((txnBody f).drop 8).length ≠ 4 → exec (.wrReqReceive p f) s = .next (s.after ((s.begun.consume p f).respond p f .access []))))

/-- R7 with R12 and R16: the fields of any register in STANDBY. -/
def Obligations.StandbyWriteFields : Prop :=
  ∀ (s : State) (src : Src) (a w : Nat), s.dev = .standby → w < 2 ^ 32 → s.sram.flips = [] → s.err.inj = none →
    (s.writeFields src a w).1 = .ok ∧
      (s.writeFields src a w).2.reg a = maskIn (maskIn (s.reg a) (regMask a isS) w) (regMask a isBL) w ∧
      ∀ b, b ≠ a → (s.writeFields src a w).2.reg b = s.reg b

/-- R12: the static fields keep their value outside STANDBY, the others are written. -/
def Obligations.ClassViolation : Prop :=
  ∀ (s : State) (src : Src) (a w : Nat), s.dev ≠ .standby → src ≠ .loader → s.member = false →
    ((s.writeFields src a w).1 = .access ↔ maskIn (s.reg a) (regMask a isS) w ≠ s.reg a) ∧
    ((s.writeFields src a w).1 = .ok ↔ maskIn (s.reg a) (regMask a isS) w = s.reg a) ∧
    (w < 2 ^ 32 → a < 0x1C0000 → a ≠ 0x18 → (s.writeFields src a w).2.reg a = maskIn (s.reg a) (regMask a isBL) w)

/-- R13 to R16: at a boundary the fields that name it take their shadows, all together, where the state lets the boundary copy (R270 has a folio pair's fields follow the aligned hold); a
write in STANDBY is copied at once, one elsewhere is not; entry to STANDBY copies every pending shadow (R16, R412). -/
def Obligations.ActiveCopies : Prop :=
  ∀ (s : State) (c : Cls) (a : Nat),
    (s.copyB c).act a = maskIn (s.act a) (clsMask a c) (s.reg a) ∧ (s.copyB c).regs = s.regs ∧
    (s.copies a = true → (s.copyNow c).act a = maskIn (s.act a) (clsMask a c) (s.reg a)) ∧ (s.copies a = false → (s.copyNow c).act a = s.act a) ∧ (s.copyNow c).regs = s.regs ∧
    (s.member = false → (s.copies a = true ↔ s.dev = .run)) ∧
    (∀ (src : Src) (w : Nat), let t := (s.writeFields src a w).2
      (s.dev = .standby → (∀ d ∈ [Cls.bLine, Cls.bQuire, Cls.bSig, Cls.bSwath], Nat.land (t.act a) (clsMask a d) = Nat.land (t.reg a) (clsMask a d)) ∧ ∀ b, b ≠ a → t.act b = s.act b) ∧
      (s.dev ≠ .standby → t.active = s.active)) ∧
    (∀ d ∈ [Cls.bLine, Cls.bQuire, Cls.bSig, Cls.bSwath], Nat.land (s.copyAll.act a) (clsMask a d) = Nat.land (s.reg a) (clsMask a d)) ∧
    (s.fol.regs = [] → s.member = false → ∀ d ∈ [Cls.bLine, Cls.bQuire, Cls.bSig, Cls.bSwath], Nat.land (s.enterStandby.act a) (clsMask a d) = Nat.land (s.enterStandby.reg a) (clsMask a d))

/-- R435 and R436, with R12: a write of a window's word other than the nozzle map's, with no injected flip about; reads below the statistics window. -/
def Obligations.TableWindows : Prop :=
  ∀ (s : State) (src : Src) (a w : Word) (x : Nat × Nat × Bool), s.answers → s.sram.flips = [] → s.err.inj = none → windowOf a.toNat = some x → a.toNat % 4 = 0 →
    let q := s.writeAt src none a.toNat w.toNat
    let out := exec (.registerWrite src a w) s
    (x.2.2 = false → q.1 = .access ∧ out = .next (s.after s.begun)) ∧
    (x.2.2 = true → x.1 ≠ 0x400000 → x.1 = 0x580000 ∨ s.dev = .standby → q.1 = .ok ∧ ∃ t, out = .next (s.after t) ∧ t.winWord a.toNat = w.toNat ∧ (∀ b, b ≠ a.toNat → t.winWord b = s.winWord b) ∧
      t.regs = s.regs ∧ t.active = s.active ∧ t.dram = s.dram) ∧
    (x.2.2 = true → x.1 ≠ 0x400000 → x.1 ≠ 0x580000 → s.dev ≠ .standby → src ≠ .loader → q.1 = .access ∧ q.2.win = s.win ∧ out = .next (s.after (s.begun.recReg E.ERR_CLASS a.toNat src))) ∧
    (x.1 = 0x400000 → s.running = true → s.standby = true → q.1 = .ok ∧ q.2.win = s.win) ∧
    (a.toNat < 0x800000 → s.busRead src a.toNat = (.ok, s.winWord a.toNat, s))

/-- GLB_SCRATCH holds any value and affects nothing else (R438); an RC counter resets when it is read (R7): QRE_CNT_HDR; the latches of R146, R242 and R423. -/
def Obligations.ReadsAndScratch : Prop :=
  (∀ (s : State) (src : Src) (w : Word), s.answers →
    (∃ t, exec (.registerWrite src 0x28 w) s = .next (s.after t) ∧ t.reg 0x28 = w.toNat ∧ (∀ b, b ≠ 0x28 → t.reg b = s.reg b) ∧ t.active = s.active ∧
      t.win = s.win ∧ t.dram = s.dram ∧ t.dev = s.dev ∧ t.out = []) ∧
    exec (.counterReadClear src 0x28) s = .next (s.after { s.begun with free := s.free + 1 })) ∧
  (∀ (s : State) (src : Src), s.answers →
    (s.busRead src 0x20080).1 = .ok ∧ (s.busRead src 0x20080).2.1 = s.reg 0x20080 ∧
    ∃ t, exec (.counterReadClear src 0x20080) s = .next (s.after t) ∧ t.reg 0x20080 = 0 ∧ (∀ b, b ≠ 0x20080 → t.reg b = s.reg b) ∧ t.dram = s.dram ∧ t.dev = s.dev) ∧
  (∀ (s : State) (src : Src) (q : Fin 131072) (i : Fin 256), s.answers →
    exec (.timebaseReadLatch src 0) s = .next (s.after { s.begun with free := s.free + 1, tmb := { s.tmb with nowHi := s.now / 2 ^ 32, epochLatch := s.epoch } }) ∧
    (∀ (j : Fin 4), j ≠ 0 → ∃ t, exec (.timebaseReadLatch src j) s = .next (s.after t) ∧ t.regs = s.regs ∧ t.tmb.nowHi = s.tmb.nowHi) ∧
    (∃ t, exec (.statsRecordRead src q) s = .next (s.after t) ∧ t.ins.latch = some (q.val, (List.range 5).map fun w => s.winWord (statAddr q (w + 1))) ∧ t.regs = s.regs) ∧
    exec (.errLogRead src i) s = .next (s.after { s.begun with err := { s.begun.err with latch := some (i.val, (List.range 7).map fun j => leAt (s.logSlot i) (4 * (j + 1)) 4) } }))

/-- The instructions of R458, with what Capture-IR and the bypass register put out; the boundary register and the hold of R459; the register path of R441. -/
def Obligations.JtagPort : Prop :=
  ∀ (s : State) (dr : BitVec 66) (x : BScan),
    let r (i : Nat) : State := { s.begun with out := [.tdo 8 1], jtag := { s.jtag with instr := i } }
    let driven (t : State) : Prop := ∀ m < 32, (t.fen m).high = (bitOf t.jtag.cells m && !s.fir.clkLost) ∧ t.fenBall m = if bitOf t.jtag.cells m && !s.fir.clkLost then .high else .low
    (∀ i, s.jtag.hold = false → (r i).scanOut = r i) ∧
    exec .jtagIdcode s = .next (s.after ((r 1).scanOut.emit (.tdo 32 (s.fuses.major % 16 * 2 ^ 28 + 0x0723266B)))) ∧
    exec .jtagBypass s = .next (s.after ((r 0xFF).scanOut.emit (.tdo 1 0))) ∧
    exec (.jtagSamplePreload none) s = .next (s.after (r 2).scanOut) ∧
    (s.jtag.hold = false → ∃ v : Nat, (∀ c < 512, bitOf v c = (r 2).ballBit x.pins.toNat c) ∧ exec (.jtagSamplePreload (some x)) s = .next (s.after
      { r 2 with out := [.tdo 8 1, .tdo 512 v], jtag := { s.jtag with instr := 2, cells := x.dr.toNat } })) ∧
    (s.jtag.hold = true → ∃ t, exec (.jtagSamplePreload (some x)) s = .next (s.after t) ∧ t.jtag = { s.jtag with instr := 2, cells := x.dr.toNat } ∧
      (∀ m < 32, (t.fen m).high = false) ∧ t.regs = s.regs ∧ t.dev = s.dev) ∧
    (s.dev ≠ .off → s.jtag.hold = false →
      (∃ t, exec (.jtagExtest none) s = .next (s.after t) ∧ t.dev = .reset ∧ t.jtag.instr = 0 ∧ t.jtag.hold = true ∧ t.jtag.cells = s.jtag.cells ∧ t.regs = [] ∧ driven t) ∧
      (∃ t, exec (.jtagExtest (some x)) s = .next (s.after t) ∧ t.dev = .reset ∧ t.jtag.instr = 0 ∧ t.jtag.hold = true ∧ t.jtag.cells = x.dr.toNat ∧ t.regs = [] ∧ driven t) ∧
      (∃ t, exec .jtagClamp s = .next (s.after t) ∧ t.dev = .reset ∧ t.jtag.instr = 4 ∧ t.jtag.hold = true ∧ t.jtag.cells = s.jtag.cells ∧ t.regs = [] ∧ driven t) ∧
      (∃ t, exec .jtagHighz s = .next (s.after t) ∧ t.dev = .reset ∧ t.jtag.instr = 5 ∧ t.jtag.hold = true ∧ t.regs = [] ∧ t.hrbBall = .z ∧ (∀ k < 4, t.ctrigBall k = .z ∧ t.lstbBall k = .z) ∧
        ∀ m < 32, (t.fen m).high = false ∧ t.fenBall m = .z)) ∧
    (s.jtagLive = true → s.jtag.busy = none → bitOf dr.toNat 57 = true →
      let u : State := if s.jtag.instr = 0x20 then s.begun else (r 0x20).scanOut
      exec (.jtagRegaccUpdate dr) s = .next (s.after { u with
        out := u.out ++ [.tdo 66 s.jtag.capture]
        jtag := { s.jtag with instr := 0x20, busy := some (bitOf dr.toNat 56, bitsOf dr.toNat 55 32, BitVec.ofNat 32 dr.toNat), done := false, missed := false } })) ∧
    (s.jtag.busy.isSome = true → bitOf dr.toNat 57 = true → ∃ t, exec (.jtagRegaccUpdate dr) s = .next (s.after t) ∧ t.jtag = { s.jtag with instr := 0x20, missed := true } ∧ t.regs = s.regs) ∧
    (∀ (a : Nat) (d : Word), s.jtag.busy = some (false, a, d) → s.jtagLive = true → ∃ t, exec .jtagRegaccDone s = .next (s.after t) ∧
      t.jtag.busy = none ∧ t.jtag.addr = a ∧ t.jtag.write = false ∧ t.jtag.done = true ∧ t.jtag.missed = s.jtag.missed ∧ bitOf t.jtag.capture 64 = !s.jtag.missed ∧
      t.jtag.data = BitVec.ofNat 32 ({ s.begun with jtag := { s.jtag with busy := none } }.busRead .jtag a).2.1 ∧
      t.jtag.err = (({ s.begun with jtag := { s.jtag with busy := none } }.busRead .jtag a).1 != .ok))

/-- R25 and R430, with no injection pending on the word. -/
def Obligations.SramScrubber : Prop :=
  ∀ (s : State) (w : Nat), s.sram.flips = [] →
    (∀ a : Fin 11, exec (.sramScrub a w false) s = .next (s.after (s.begun.record { c := E.SRAM_CE, inst := a, ctxType := 9, ctx := w % 2 ^ 32, key := [w], stays := true }))) ∧
    (∀ a : Fin 11, a.val ∉ [5, 6, 9] → ∃ (r t : State), r = s.begun.record { c := if a.val = 10 then { E.SRAM_UE with sev := 3 } else E.SRAM_UE, inst := a, ctxType := 9, ctx := w % 2 ^ 32, key := [w], stays := true, handles := true } ∧
      exec (.sramScrub a w true) s = .next (s.after t) ∧ t.sramBad a w = true ∧ t.regs = r.regs ∧ t.err = r.err ∧ t.win = s.win) ∧
    (∀ a : Fin 11, a.val = 6 → ∃ t, exec (.sramScrub a w true) s = .next (s.after t) ∧ t.sramBad a w = false ∧ ∀ j < 6, t.winWord (statAddr (w / 3) j) = 0) ∧
    (∀ a : Fin 11, a.val = 9 → ∃ t, exec (.sramScrub a w true) s = .next (s.after t) ∧ t.sramBad a w = false ∧
      ((s.port (w / 2048)).stage ≠ .disabled → (s.port (w / 2048)).stage ≠ .retired → (s.port (w / 2048)).replay = [] → (s.port (w / 2048)).txq = [] → (t.port (w / 2048)).stage = .detect))

/-- R421 and R422 as commands, the bits of ERR_CMD, and ERR_INJ.ARM. -/
def Obligations.LogAndErrorCommands : Prop :=
  (∀ (s : State) (src : Src) (w : Word) (key : List Nat),
    exec (.errRunClose key) s = .next (s.after { s.begun with err := { s.begun.err with opened := s.err.opened.filter fun o => !(o.byGap && o.key == key) } }) ∧
    (s.answers → (w.toNat + 2 ^ 32 - s.g F.ERR_TAIL_INDEX) % 2 ^ 32 ≤ s.logCount →
      ∃ t, exec (.errTailWrite src w) s = .next (s.after t) ∧ t.regs = (s.p F.ERR_TAIL_INDEX w.toNat).regs ∧ t.err.log = s.err.log ∧
        ∀ o ∈ t.err.opened, o ∈ s.err.opened ∧ ∀ i, o.idx = some i → (w.toNat + 2 ^ 32 - s.g F.ERR_TAIL_INDEX) % 2 ^ 32 ≤ (i + 2 ^ 32 - s.g F.ERR_TAIL_INDEX) % 2 ^ 32) ∧
    (s.answers → s.logCount < (w.toNat + 2 ^ 32 - s.g F.ERR_TAIL_INDEX) % 2 ^ 32 →
      exec (.errTailWrite src w) s = .next (s.after (s.begun.recReg E.ERR_TAILPTR 0x1D000C src)))) ∧
  (∀ (s : State) (src : Src), s.answers →
    exec (.errFirstclr src) s = .next (s.after s.begun.errFirstclr) ∧
    ((∀ i < 8, s.errFirstclr.g (F.ERR_FIRST_WORD i) = 0) ∧ s.errFirstclr.g F.ERR_STS_FIRSTV = 0) ∧
    exec (.errBlkclr src) s = .next (s.after s.begun.errBlkclr) ∧
    (∀ b < 18, s.errBlkclr.g (F.ERR_BLKFIRST_VALID b) = 0) ∧
    exec (.errDump src) s = .next (s.after (s.begun.upload (s.g F.ERR_CFG_COMP) (s.g F.ERR_CFG_RING) 0x2F 0
      (leBytes 4 (s.g F.ERR_HEAD_INDEX) ++ leBytes 4 (s.g F.ERR_TAIL_INDEX) ++
        (List.range s.logCount).flatMap fun k => s.logSlot ((s.g F.ERR_TAIL_INDEX + k) % 2 ^ 32)))) ∧
    (∀ (id : BitVec 7) (inst : BitVec 8) (arg : BitVec 16), 0 < id.toNat → id.toNat ≤ 0x1B → id.toNat ∉ [0x0A, 0x0F, 0x10, 0x12] →
      ∃ t, exec (.errInjArm src id inst arg) s = .next (s.after t) ∧ t.err.inj = some ⟨id.toNat, inst.toNat, arg.toNat, 1⟩ ∧ t.err.log = s.err.log) ∧
    (∀ (id : BitVec 7) (inst : BitVec 8) (arg : BitVec 16), 0x1B < id.toNat → ∃ t, exec (.errInjArm src id inst arg) s = .next (s.after t) ∧ t.err.inj = s.err.inj))

/-- One error event (R421, R422, R426). -/
def Obligations.RecordEvent : Prop :=
  ∀ (s : State) (e : Ev),
    let joins := ∃ x ∈ s.err.joins, e.handles = true ∧ x.1 = e.c.code :: e.inst :: e.key
    ((∃ o ∈ s.err.opened, o.key = e.c.code :: e.inst :: e.key) ∨ joins → (s.record e).regs = s.regs) ∧
    ((∀ o ∈ s.err.opened, o.key ≠ e.c.code :: e.inst :: e.key) → ¬ joins → s.gb F.ERR_CFG_RINGEN = false → e.c.sev < 3 →
      (s.logCount < 256 → (s.record e).g F.ERR_HEAD_INDEX = (s.g F.ERR_HEAD_INDEX + 1) % 2 ^ 32 ∧
        ∃ r, spGet none (s.record e).err.log (s.g F.ERR_HEAD_INDEX % 256) = some r ∧ r.code = e.c.code ∧ r.inst = e.inst % 65536 ∧ r.ctx = e.ctx ∧
          r.count = e.count ∧ r.ts = s.tb.toNat ∧ r.sev = e.c.sev ∧ r.inj = e.inj) ∧
      (256 ≤ s.logCount → (s.record e).g F.ERR_HEAD_INDEX = s.g F.ERR_HEAD_INDEX ∧ (s.record e).err.log = s.err.log))

/-- A round, and one machine's turn at an event that is pending as the round begins (R398), where no new attention reason is to be announced; and the supervisor's commands. -/
def Obligations.SupervisorRound : Prop :=
  (∀ (s : State) (m e : Nat), m < 16 → e < 32 →
     exec .supervisorRound s = .next (s.after ((List.range 16).foldl (fun t m =>
       if t.machOn m && decide (3 ≤ devCode t.dev) then State.serve m ((List.range 32).filter (bitOf (s.mach m).pend)) t else t) s.begun)) ∧
     (∀ es, (s.mach m).pend = 0 → State.serve m es s = s) ∧
     ((∀ j < e, bitOf (s.mach m).pend j = false) → bitOf (s.mach m).pend e = true → s.smtEntry m (s.mach m).state e % 64 = 1 →
       bitsOf (s.smtEntry m (s.mach m).state e) 25 18 = 0 → s.dev = .standby ∨ s.dev = .run ∨ s.dev = .hold ∨ s.dev = .fault → maskIn s.attn s.mbx.attnSeen 0 = 0 →
       let t := State.serve m ((List.range 32).filter (bitOf (s.mach m).pend)) s
       (t.mach m).state = bitsOf (s.smtEntry m (s.mach m).state e) 31 26 ∧ bitOf (t.mach m).pend e = false ∧ (t.mach m).param = spGet 0 (s.mach m).slots e ∧
         (t.mach m).lastEv = e ∧ t.dev = s.dev ∧ ∀ n, n ≠ m → t.mach n = s.mach n)) ∧
  (∀ (s : State) (src : Src) (m : Fin 16) (w : Word) (code : BitVec 6) (par : BitVec 16), s.answers →
     (∀ t, (s.mach m).timer = some t → exec (.smtTimerExpire m) s = .next (s.after ((s.begun.modMach m fun x => { x with timer := none }).raiseTo m SEv.TIMER 0))) ∧
     (evListed code.toNat = true → code.toNat < 0x38 → exec (.smtEvcmdWrite src code par) s = .next (s.after (((s.begun.inc F.SMT_CNT_INJ_COUNT).inc F.ERR_CNT_INJ_COUNT).raise code.toNat par.toNat))) ∧
     (evListed code.toNat = true → 0x38 ≤ code.toNat → exec (.smtEvcmdWrite src code par) s = .next (s.after (s.begun.raise code.toNat par.toNat))) ∧
     exec (.smtDevreqRun src) s = .next (s.after (s.begun.raise SEv.REQ_RUN 0)) ∧
     exec (.smtDevreqHold src) s = .next (s.after (s.begun.raise SEv.REQ_HOLD 0)) ∧
     exec (.smtDevreqStop src) s = .next (s.after (s.begun.raise SEv.REQ_STOP 0)) ∧
     (s.dev = .hold → s.standby = false → exec (.smtDevreqCut src) s = .next (s.after s.begun.cutSig)) ∧
     (s.dev ≠ .hold → exec (.smtDevreqCut src) s = .next (s.after (s.begun.recReg E.SMT_CMD 0x1E000C src))) ∧
     exec (.smtMpendClear src m w) s = .next (s.after (s.begun.modMach m fun x => { x with pend := maskIn x.pend w.toNat 0 })))

/-- The device actions (R401, R410 to R413): DEV_RUN (1) with the RUN checks of R440, DEV_HOLD (2), DEV_STANDBY (3), DEV_FAULT (4) and DEV_RETIRE (5). -/
def Obligations.DeviceActions : Prop :=
  ∀ (s : State) (m x : Nat),
    (s.member = false →
      (s.dev = .standby → let f := s.derive.runFails
        let t := s.runAct m 1 x
        (f = [] → t = (s.attempt.2.enterRun 0).cf m true ∧ t.dev = .run ∧ (t.mach m).cf = true ∧ t.gb F.GLB_REFUSE_VALID = false ∧ t.gth.k = 0) ∧
        (f ≠ [] → t.dev = .standby ∧ (t.mach m).cf = false ∧ t.gb F.GLB_REFUSE_VALID = true ∧ t.g F.GLB_REFUSE_FAILS = satN 65535 f.length ∧ t.reg F.GLB_REFADDR_ADDR.addr = minD 0 f ∧
          t.gth = s.gth ∧ t.fir = s.fir)) ∧
      (s.dev = .hold → (s.runAct m 1 x).dev = .run ∧ ((s.runAct m 1 x).mach m).cf = true) ∧
      (s.dev ≠ .standby → s.dev ≠ .hold → s.runAct m 1 x = s.rejectAct m) ∧
      (s.dev = .run → s.runAct m 2 x = (s.setDev .hold).cf m true) ∧
      (s.dev ≠ .run → s.runAct m 2 x = s.rejectAct m) ∧
      (s.dev = .run ∨ s.dev = .hold ∨ s.dev = .fault → s.gb F.CLO_STS_RECOVERY = false → let t := s.runAct m 3 x
        t.dev = .standby ∧ (t.mach m).cf = true ∧ t.gth.lines = [] ∧ t.gth.cur = none ∧ t.qre.dir = [] ∧ t.qre.waiting = [] ∧ t.nzh.queue = [] ∧ t.nzh.staged = [] ∧ t.fir.fen = s.fir.fen) ∧
      (s.dev ≠ .run → s.dev ≠ .hold → s.dev ≠ .fault → s.runAct m 3 x = s.rejectAct m) ∧
      s.runAct m 5 x = s.rejectAct m) ∧
    (s.dev = .standby ∨ s.dev = .run ∨ s.dev = .hold → let t := s.runAct m 4 x
      t.dev = .fault ∧ (t.mach m).cf = true ∧ ∀ k < 32, (t.fen k).high = false ∧ (t.fen k).drive = false) ∧
    (s.member = true → s.dev = .standby ∨ s.dev = .run ∨ s.dev = .hold ∨ s.dev = .fault → let t := s.runAct m 5 x
      t.dev = .retired ∧ (t.mach m).cf = true ∧ ∀ k < 32, (t.fen k).high = false ∧ (t.fen k).drive = false)

/-- R44 for a quire in one frame; R46 for one that is held. The free pages are those the model takes, lowest first (log 20). -/
def Obligations.QuireIngress : Prop :=
  ∀ (s : State) (p : Fin 5) (f : Frame) (pages : List Nat),
    let a := s.begun.qdArrive p f
    (s.refuses p f = true → exec (.qdFrameReceive p f) s = .next (s.after (s.begun.filtered p f).lenFixed)) ∧
    (∀ x : State, x.gth.cur = none → x.lenFixed = x) ∧
    (s.refuses p f = false → a.qdBehind p f = true ∨ (s.qdTaken = false ∨ f.soq = false ∨ s.slotOf f.src = none) ∧ a.ingressFrame p f = none → exec (.qdFrameReceive p f) s = .next (s.after a.lenFixed)) ∧
    (s.refuses p f = false → s.qdTaken = true → f.soq = false → s.slotOf f.src = none → a.qdBehind p f = false → exec (.qdFrameReceive p f) s =
      .next (s.after ((a.inc F.SPN_CNT_QDSEQ_COUNT).consume p f).lenFixed)) ∧
    (f.ty = FT.QD → s.spn.inbox = [(p.val, f)] → (s.qdTaken = false ∨ f.soq = false ∨ s.slotOf f.src = none) →
      (∀ t, s.begun.ingressFrame p f = some t → exec .ingressResume s = .next (s.after (t.consume p f).lenFixed)) ∧
      (s.begun.ingressFrame p f = none → exec .ingressResume s = .next (s.after s.begun.lenFixed))) ∧
    (s.refuses p f = false → s.qdTaken = true → f.soq = true → s.qre.slots = [] → s.err.inj = none → f.payload.length = 40 + (parseQHdr f.payload).clen → a.qdBehind p f = false →
      a.ingressHeader f.src f.payload p = (.accept pages, a) → s.quire (parseQHdr f.payload).sig ((parseQHdr f.payload).ctxByte % 128) (parseQHdr f.payload).first = none →
      ¬ sigDiff (parseQHdr f.payload).sig s.sRef < 0 → (parseQHdr f.payload).sig ∉ s.qre.dead →
      crc32c (slice f.payload 32 (parseQHdr f.payload).clen) = leAt f.payload (32 + (parseQHdr f.payload).clen) 4 →
      ∃ (t : State) (q : Quire), exec (.qdFrameReceive p f) s = .next (s.after (t.consume p f).lenFixed) ∧ t.qre.dir = s.qre.dir ++ [q] ∧ q.st = .stored ∧ q.pages = pages ∧
        q.sig = (parseQHdr f.payload).sig ∧ q.ctx = (parseQHdr f.payload).ctxByte % 128 ∧ q.first = (parseQHdr f.payload).first ∧
        q.count = (parseQHdr f.payload).count ∧ q.bpn = (parseQHdr f.payload).bpn ∧ q.src = f.src ∧ t.qre.slots = [])

/-- Engine m: start (R55), a failed read (R52), and the release of a STORED quire (R51, R53). -/
def Obligations.Inflation : Prop :=
  ∀ (s : State) (m : Fin 32) (q : Quire),
    (s.engineBusy m = false → s.dev = .standby ∨ s.dev = .run ∨ s.dev = .hold → s.ready (4 * m) = some q → (∀ r, r = 1 ∨ r = 2 ∨ r = 3 → s.ready (4 * m + r) = none) →
      exec (.inflateStart m) s = .next (s.after ((s.begun.reserve q).modQuire q.sig q.ctx q.first fun q => { q with st := .inflating }))) ∧
    (s.inflating m = some q → exec (.inflateReadError m) s = .next (s.after (s.begun.rsRequest q.sig q.ctx q.first 2))) ∧
    (s.inflating m = some q → s.err.inj = none → s.sram.poisoned = [] → s.sram.flips = [] → q.isStored = true → q.clen = q.size →
      ∀ b t, s.begun.fetchQuire q.pages (40 + q.clen) = (some b, t) → t.err.inj = none → t.sram = s.sram → crc32c (slice b 32 q.clen) = leAt b (32 + q.clen) 4 →
      crc32c (slice b 32 q.clen) = leAt b (36 + q.clen) 4 →
      exec (.inflateDone m) s = .next (s.after (t.modQuire q.sig q.ctx q.first fun q' => { q' with st := .released, data := slice b 32 q.clen, pages := [] })))

/-- R62 to R64 as commands. -/
def Obligations.ResendAttempts : Prop :=
  ∀ (s : State) (sig first : Word) (c : Fin 128) (q : Quire), s.quire sig.toNat c first.toNat = some q → q.st = .resend →
    (0 < q.attempt → q.attempt < s.g F.QRE_RSCFG_MAX → exec (.resendAttemptEnd sig c first) s = .next (s.after (s.begun.rsAttempt sig.toNat c first.toNat))) ∧
    (0 < q.attempt → s.g F.QRE_RSCFG_MAX ≤ q.attempt → exec (.resendAttemptEnd sig c first) s =
      .next (s.after ((s.begun.rsExhaust sig.toNat c first.toNat (s.gathered sig.toNat)).rsNext 1))) ∧
    ((s.rsExhaust sig.toNat c first.toNat 0).quire sig.toNat c first.toNat = some { q with st := .blank, pages := [], attempt := 0 }) ∧
    ((s.rsAttempt sig.toNat c first.toNat).quire sig.toNat c first.toNat =
      some { q with gen := spGet 0 s.qre.gens c % 255 + 1, attempt := q.attempt + 1 }) ∧
    (s.qre.waiting = [(sig.toNat, c.val, first.toNat)] → s.rsOut < 256 →
      exec .resendPost s = .next (s.after ((s.begun.modQre fun x => { x with waiting := [] }).rsAttempt sig.toNat c first.toNat)))

/-- R67, R34 and R54 as register commands. -/
def Obligations.QuireRegisters : Prop :=
  ∀ (s : State) (src : Src) (w : Word) (k : Fin 4), s.answers →
    (¬ (s.qre.started = true ∧ s.g F.QRE_SIGSEL_NUM = s.g F.QRE_SIGCUR_NUM) → s.g F.QRE_SIGSEL_NUM ∈ s.openSigs →
      exec (.signatureAbort src) s = .next (s.after (s.begun.abortSig (s.g F.QRE_SIGSEL_NUM))) ∧
      ∀ q ∈ (s.abortSig (s.g F.QRE_SIGSEL_NUM)).qre.dir, q.sig = s.g F.QRE_SIGSEL_NUM → q.st = .aborted ∧ q.pages = [] ∧ q.data = []) ∧
    (s.qre.started = true → s.g F.QRE_SIGSEL_NUM = s.g F.QRE_SIGCUR_NUM → exec (.signatureAbort src) s = .next (s.after (s.begun.recReg E.QRE_CMD 0x20040 src))) ∧
    (s.g F.QRE_SIGSEL_NUM ∉ s.openSigs → exec (.signatureAbort src) s = .next (s.after (s.begun.recReg E.QRE_CMD 0x20040 src))) ∧
    (s.dev = .standby → w.toNat ≠ s.reg 0x20034 → ∃ t, exec (.sigbaseWrite src w) s = .next (s.after t) ∧ t.reg 0x20034 = w.toNat ∧
      ∀ q ∈ t.qre.dir, ¬ sigDiff q.sig w.toNat < 0) ∧
    (s.dev = .standby → w.toNat ≠ s.reg (0x20010 + 4 * k) → ∃ t, exec (.ctxenWrite src k w) s = .next (s.after t) ∧
      t.reg (0x20010 + 4 * k) = w.toNat ∧ t.qre.dir = [] ∧ t.qre.waiting = [] ∧ t.qre.started = false)

/-- R126 for the inputs as sampled: the accepted levels, the x4 decode, illegal and too early transitions, and the count, which the block follows on the selected encoder (R130); R127 for
both modes. In RUN: new ground and its triggers (R133, R134, R139), backward motion (R131) and the direction change (R132), where no start event and no earlier grid come in. -/
def Obligations.EncoderEdges : Prop :=
  (∀ (s : State) (e : Fin 2) (a b : EncIn) (frac : BitVec 16), 4 ≤ devCode s.dev → s.err.inj = none →
    let old := s.enc e
    let la := encAccept a (s.g (F.POS_ENCCFG_FILT e)) old.a
    let lb := encAccept b (s.g (F.POS_ENCCFG_FILT e)) old.b
    let te := tAdd s.now frac.toNat
    let soon := ∃ l, old.edgeAt = some l ∧ tdiff te l < (nsU 16 : Int)
    let fwd := (if la = old.a then la == lb else la != lb) != s.gb (F.POS_ENCCFG_INV e)
    let n := sext 48 (toBits 48 ((old.load.getD old.count) + (if fwd then 1 else -1)))
    let u := (s.begun.modEnc e fun x => { x with a := la, b := lb }).modEnc e fun x => { x with edgeAt := some te }
    let r := (u.closeRecs fun k => k.take 2 == [E.POS_ENCERR.code, e.val]).modEnc e fun x => { x with count := n, prev := x.count, load := none, lastEdge := some te }
    (la = old.a → lb = old.b → exec (.encoderEdge e a b frac) s = .next (s.after s.begun)) ∧
    ((la ≠ old.a ∧ lb ≠ old.b) ∨ ((la ≠ old.a ∨ lb ≠ old.b) ∧ soon) → exec (.encoderEdge e a b frac) s = .next (s.after
      ((u.inc F.POS_CNT_ENCERR_COUNT).record { c := E.POS_ENCERR, inst := e, ctxType := 1, ctx := s.ctxGrid, stays := true, byGap := false }))) ∧
    ((la ≠ old.a ↔ lb = old.b) → ¬ soon →
      (s.g F.POS_CTL_SRC ≠ e.val → exec (.encoderEdge e a b frac) s = .next (s.after r)) ∧
      (s.g F.POS_CTL_SRC = e.val → exec (.encoderEdge e a b frac) s = .next (s.after (r.moveTo n fwd te)))) ∧
    (r.enc e = { old with a := la, b := lb, count := n, prev := old.count, load := none, lastEdge := some te, edgeAt := some te } ∧
      (∀ o, o ≠ e.val → r.enc o = s.enc o) ∧ r.regs = s.regs ∧ r.dram = s.dram ∧ r.pos.p = s.pos.p) ∧
    (s.g (F.POS_ENCCFG_ZMODE e) = 1 → ∃ t, exec (.encoderIndexEdge e) s = .next (s.after t) ∧ t.enc e = { s.enc e with zlat := (s.enc e).count } ∧ (∀ o, o ≠ e.val → t.enc o = s.enc o) ∧ t.regs = s.regs) ∧
    (s.g (F.POS_ENCCFG_ZMODE e) = 2 → (s.enc e).zarm = true → ∃ t, exec (.encoderIndexEdge e) s = .next (s.after t) ∧ t.regs = s.regs ∧
      t.enc e = { s.enc e with zlat := (s.enc e).count, zarm := false, load := some (pos48 (s.g F.POS_ZVAL_LO_VAL) (s.g F.POS_ZVAL_HI_VAL)) })) ∧
  (∀ (x : State) (n : Int) (fwd : Bool) (te : Nat), x.err.inj = none →
    let y := (x.modPos fun z => { z with p := n }).stampCount te
    let z := (y.modPos fun w => { w with x := n, exc := false }).p F.POS_STS_BACKERR 0
    (x.running = false → 0 < x.dirI * (n - x.pos.x) → (x.moveTo n fwd te).pos.p = n ∧ (x.moveTo n fwd te).pos.x = n ∧ (x.moveTo n fwd te).g F.POS_STS_BACKERR = 0) ∧
    (∀ g : Grid, x.running = true → fwd = !x.isRev → 0 < x.dirI * (n - x.pos.x) → z.startDue x.pos.x n = none → x.pos.old = none → x.pos.cur = some g → g.stopped = false → g.rev = x.isRev →
      let ex := x.dirI * (n * 65536 - (g.b0 + x.dirI * g.next * (g.pitch : Int)))
      (ex < 0 → x.moveTo n fwd te = z) ∧ (0 ≤ ex → x.moveTo n fwd te = z.issue g true n te ex.toNat false)) ∧
    (x.scanning = false → fwd = x.isRev → (x.g F.POS_VCFG_HYST : Int) < -(x.dirI * (n - x.pos.x)) →
      let b := x.modPos fun w => { w with p := n, exc := false }
      (x.gb F.POS_STS_BACKERR = true → x.moveTo n fwd te = b) ∧
      (x.gb F.POS_STS_BACKERR = false → x.moveTo n fwd te =
        (((b.p F.POS_STS_BACKERR 1).record { c := E.POS_BACKWARD, ctxType := 1, ctx := x.ctxGrid, handles := true }).raise SEv.POS_REVERSE 0).inc F.POS_CNT_BACKWARD_COUNT)) ∧
    (∀ g : Grid, x.scanning = true → (x.g F.POS_VCFG_HYST : Int) < -(x.dirI * (n - x.pos.x)) → x.pos.cur = some g →
      (x.moveTo n fwd te).pos.cur = some { g with stopped := true } ∧ (x.moveTo n fwd te).pos.old = none ∧ (x.moveTo n fwd te).pos.rev = !x.pos.rev ∧ (x.moveTo n fwd te).pos.x = n)) ∧
  (∀ (x : State) (g : Grid) (q : Int) (te e16 : Nat), x.err.inj = none →
    let y := x.modPos fun z => { z with cur := some { g with next := g.next + 1 } }
    let l := y.modPos fun z => { z with lastTrig := some te }
    let tr : Trig := { sig := g.sig, line := g.next, te, e16, pos := q, tcnt := x.tcntAt te, rev := g.rev, catchup := false }
    let fast := ∃ t, x.pos.lastTrig = some t ∧ tdiff te t < (nsU x.tcfg : Int)
    (g.next < 0 → x.issue g true q te e16 false = y.trigger tr true) ∧
    (0 ≤ g.next → ¬ fast → x.issue g true q te e16 false = l.trigger tr true) ∧
    (0 ≤ g.next → fast → x.issue g true q te e16 false =
      ((l.inc F.POS_CNT_FAST_COUNT).record { c := E.POS_OVERSPEED, ctxType := 1, ctx := ctxLine 0 0 g.sig g.next.toNat, stays := true }).trigger tr true))

/-- R127 and R135 for a device outside a folio pair, and what a start event leaves (R136). -/
def Obligations.StartEvents : Prop :=
  ∀ (s : State) (src : Src) (n : Fin 2) (x : EncIn) (frac : BitVec 16), s.answers → s.member = false →
    let high := encAccept x 15 (spGet false s.pos.tof n)
    let u := s.begun.modPos fun y => { y with tof := spSet false y.tof n high }
    (s.dev = .standby → ∃ t, exec (.zarm src) s = .next (s.after t) ∧ (∀ e : Fin 2, t.enc e = { s.enc e with zarm := true }) ∧ t.regs = s.regs) ∧
    (s.dev ≠ .standby → exec (.zarm src) s = .next (s.after (s.begun.recReg E.POS_CMD 0x50008 src))) ∧
    (s.g F.POS_SIGCFG_SRC < 2 → exec (.startCommand src) s = .next (s.after (s.begun.recReg E.POS_CMD 0x50008 src))) ∧
    (s.running = true → s.scanning = false → 2 ≤ s.g F.POS_SIGCFG_SRC →
      exec (.startCommand src) s = .next (s.after (s.begun.follow.startAt s.begun.follow.posNow))) ∧
    (high = spGet false s.pos.tof n → exec (.tofEdge n ⟨x, frac⟩) s = .next (s.after s.begun)) ∧
    (high ≠ spGet false s.pos.tof n → s.formsStarts = true → s.scanning = false → s.g F.POS_SIGCFG_SRC = n.val → high ≠ s.gb F.POS_SIGCFG_TOFPOL →
      exec (.tofEdge n ⟨x, frac⟩) s = .next (s.after (u.follow.startAt (u.follow.posAt (tAdd u.follow.now frac.toNat))))) ∧
    (high ≠ spGet false s.pos.tof n → s.formsStarts = false ∨ s.scanning = true ∨ s.g F.POS_SIGCFG_SRC ≠ n.val ∨ high = s.gb F.POS_SIGCFG_TOFPOL →
      exec (.tofEdge n ⟨x, frac⟩) s = .next (s.after u)) ∧
    (s.g F.POS_CTL_SRC < 2 → s.begun.follow = s.begun ∧ s.begun.follow.posNow = (s.enc (s.g F.POS_CTL_SRC)).count) ∧
    (s.running = true → s.scanning = true → exec (.startCommand src) s = .next (s.after (s.begun.recReg E.POS_CMD 0x50008 src))) ∧
    (s.pos.cur = none → s.pos.old = none → s.gth.cur = none → ∀ ps, (s.startAt ps).pos.cur = some { sig := s.pos.nextSig, b0 := (ps + (s.g F.POS_SIGCFG_DLY : Int)) * 65536, rev := s.isRev, pitch := s.g F.POS_PITCH_COUNTS, next := -(s.g F.GTH_CFG_LEAD : Int) } ∧ (s.startAt ps).pos.nextSig = (s.pos.nextSig + 1) % 2 ^ 32 ∧
      (s.startAt ps).pos.repFrom = some ps ∧ (s.startAt ps).g F.QRE_SIGCUR_NUM = s.pos.nextSig % 2 ^ 32)

/-- Steps 1 to 5 of gathering: the columns of R72, the levels of R80, where a designated pixel goes (R91), one position of an active seam (R93, R94), the drops of tipping-in (R95, R96)
and the density trim (R97). -/
def Obligations.LevelPipeline : Prop :=
  (∀ lay q : Nat, q < 4096 → nozzleAt lay (groupOf lay (q / 1024)) (columnOf lay (q / 1024) (q % 1024)) = q) ∧
  (∀ (s : State) (m r code : Nat), let k := bitsOf (s.act (F.GTH_MODCFG_EXP m).addr) (21 + 2 * r) (20 + 2 * r)
    s.expand m r 3 code = code ∧ s.expand m r 1 0 = 0 ∧ s.expand m r 2 0 = 0 ∧ s.expand m r 1 1 = s.g (F.GTH_EXPSET_L1C1 k) ∧ s.expand m r 2 1 = s.g (F.GTH_EXPSET_L2C1 k) ∧
      s.expand m r 2 2 = s.g (F.GTH_EXPSET_L2C2 k) ∧ s.expand m r 2 3 = s.g (F.GTH_EXPSET_L2C3 k)) ∧
  (∀ (flagged : Nat → Bool) (p i pd : Nat), pd < p → let t := passTarget flagged p i pd p pd
    (t.2 = true ↔ ∀ n, flagged ((pd + n * i) % p) = true) ∧ (t.2 = true → t.1 = pd) ∧
    (t.2 = false → ∃ n, t.1 = (pd + n * i) % p ∧ flagged t.1 = false ∧ ∀ k < n, flagged ((pd + k * i) % p) = true)) ∧
  (∀ (s : State) (l : Levels) (sm r i u : Nat) (xs ys : List Nat), let o := s.g (F.GTH_SEAM_OVL sm)
    let a := (sm, 1024 - o + i)
    let b := (sm + 1, i)
    let sel := if s.stitchBit sm i u then a else b
    let oth := if s.stitchBit sm i u then b else a
    let cs := 4 * sel.1 + r
    let co := 4 * oth.1 + r
    let t := s.stitchAt l sm r i u
    spRising none l = true → r < 4 → i < o → o ≤ 1024 → lv l cs = some xs → lv l co = some ys → xs.length = 1024 → ys.length = 1024 →
      (nzDead (s.nz sel.1 (1024 * r + sel.2)) = true ∧ nzUsable (s.nz oth.1 (1024 * r + oth.2)) = true →
        lvAt t.1 co oth.2 = lvAt l cs sel.2 ∧ lvAt t.1 cs sel.2 = 0 ∧ t.2 = 1) ∧
      (¬ (nzDead (s.nz sel.1 (1024 * r + sel.2)) = true ∧ nzUsable (s.nz oth.1 (1024 * r + oth.2)) = true) →
        lvAt t.1 co oth.2 = 0 ∧ lvAt t.1 cs sel.2 = lvAt l cs sel.2 ∧ t.2 = 0) ∧
      ∀ c n, (c, n) ≠ (cs, sel.2) → (c, n) ≠ (co, oth.2) → lvAt t.1 c n = lvAt l c n) ∧
  (∀ (s : State) (l : Levels) (m u q : Nat), q < 4096 → let lay := s.layout m
    let c := 4 * m + q / 1024
    let v := (s.tip l m u).1.getD q 0
    let j := columnOf lay (q / 1024) (q % 1024)
    let near (d : Int) : Prop := 0 ≤ (j : Int) - d ∧ (j : Int) - d < (1024 * layoutK lay : Nat) ∧ nzDead (s.nz m (nozzleAt lay (groupOf lay (q / 1024)) ((j : Int) - d).toNat)) = true
    v ≤ 7 ∧ ((lv l c).isNone = true ∨ nzUsable (s.nz m q) = false → v = 0) ∧
    ((lv l c).isSome = true → nzUsable (s.nz m q) = true → s.gb F.GTH_CTL_TIPEN = false ∨ (∀ d ∈ [(-2 : Int), -1, 1, 2], ¬ near d) → v = satN 7 (lvAt l c (q % 1024))) ∧
    ((lv l c).isSome = true → nzUsable (s.nz m q) = true → s.gb F.GTH_CTL_TIPEN = true → ∀ d ∈ [(-2 : Int), -1, 1, 2], near d → (∀ e ∈ [(-2 : Int), -1, 1, 2], e ≠ d → ¬ near e) →
      let dq := nozzleAt lay (groupOf lay (q / 1024)) ((j : Int) - d).toNat
      let far : Int := (j : Int) - d - d
      let fq := nozzleAt lay (groupOf lay (q / 1024)) far.toNat
      let ws := s.weights (bitsOf (s.nz m dq) 28 25)
      let wt (y : Int) : Nat := ((ws.find? fun z => z.1 == y).map (·.2)).getD 0
      let there : Prop := 0 ≤ far ∧ far < (1024 * layoutK lay : Nat) ∧ nzUsable (s.nz m fq) = true ∧ (lv l (4 * m + fq / 1024)).isSome = true
      ∀ w, (there → w = wt d) → (¬ there → w = wt d + wt (-d)) →
        v = satN 7 (lvAt l c (q % 1024) + (lvAt l (4 * m + dq / 1024) (dq % 1024) * w + s.dt (u % 64) (j % 64) / 50) / 8))) ∧
  (∀ (lev dt : Nat) (a : Int), lev ≤ 7 → -64 ≤ a → a ≤ 63 → trimLevel lev a dt ≤ 7 ∧ trimLevel 0 a dt = 0 ∧ trimLevel lev 0 dt = lev ∧
    (0 < lev → let x := lev * (400 + a).toNat
      trimLevel lev a dt = if dt < x % 400 then Nat.min 7 (x / 400 + 1) else Nat.min 7 (x / 400)))

/-- Steps 6 and 7: the band of R108, the history code and the energy index (R107, R109, R110), the window limit (R112), and what the governor leaves (R111, R113): every fire group within
the slot limit, the line within the line limit and what the window still allows, by lowering indexes and shaving drops alone; and a line that keeps every limit as it was. -/
def Obligations.EnergyAndGovernor : Prop :=
  (∀ (thr : Nat → Nat) (hyst temp b : Nat), b ≤ 15 → let n := bandStep thr hyst temp b
    n ≤ 15 ∧ (n < 15 → temp < thr n) ∧ (n = 0 ∨ (thr (n - 1) : Int) - hyst ≤ temp) ∧ (∀ i, b ≤ i → i < n → thr i ≤ temp) ∧ (n < b → (temp : Int) < (thr n : Int) - hyst)) ∧
  (∀ (s : State) (m q : Nat), s.gb F.FIR_CTL_HISTEN = true → s.sramBad 2 (1024 * m + q / 4) = false → ∃ q2 b34,
    s.histCode m q = 8 * s.histAt m 1 q + 2 * q2 + b34 ∧ (s.histAt m 2 q = 0 → q2 = 0) ∧ (1 ≤ s.histAt m 2 q → s.histAt m 2 q ≤ s.g F.FIR_HCFG_Q2A → q2 = 1) ∧
    (s.g F.FIR_HCFG_Q2A < s.histAt m 2 q → s.histAt m 2 q ≤ s.g F.FIR_HCFG_Q2B → q2 = 2) ∧
    (0 < s.histAt m 2 q → s.g F.FIR_HCFG_Q2A < s.histAt m 2 q → s.g F.FIR_HCFG_Q2B < s.histAt m 2 q → q2 = 3) ∧ (b34 = 1 ↔ s.g F.FIR_HCFG_H34T ≤ s.histAt m 3 q + s.histAt m 4 q) ∧ b34 ≤ 1) ∧
  (∀ (s : State) (m q b : Nat), s.gb F.FIR_CTL_HISTEN = false → s.histCode m q = 0 ∧ s.energyIdx m q b 0 = 0) ∧
  (∀ (s : State) (m q b lev i : Nat), 0 < lev → s.sram.poisoned = [] → let e := sext 4 (bitsOf (s.nz m q) 17 14)
    let t := s.rtype m (q / 1024)
    (i : Int) = 16384 * lev + 256 * s.histCode m q + 16 * b + (e + 8) → ∀ w, w = s.winWord (0x480000 + (65536 * t + i / 2) / 4 * 4) →
      s.energyIdx m q b lev = (if i % 2 = 0 then w / 256 ^ (i / 2 % 4) % 16 else w / 256 ^ (i / 2 % 4) / 16 % 16)) ∧
  (∀ (s : State) (b : Nat), (s.throttles b = false → s.wLim b = s.wMax) ∧ (s.throttles b = true → 0 < s.g F.FIR_TCFG_THRSCL → s.wLim b = s.wMax * s.g F.FIR_TCFG_THRSCL / 16)) ∧
  (∀ (s : State) (m l b : Nat) (xs : List Noz), (xs.map (·.q)).Nodup → (∀ x ∈ xs, x.q < 4096 ∧ x.lev ≤ 7) →
    let r := s.governor m l b xs
    let e (ys : List Noz) : Nat := sumL (ys.map fun x => s.nozE x x.idx)
    let lim : Int := min ((16 * s.g F.FIR_GOVLINE_NJ : Nat) : Int) ((s.wLim b : Int) - (sumL ((spGet [] s.gth.win m).take 255) : Nat))
    (∀ g < 16, e (r.xs.filter fun x => x.g == g) ≤ 16 * s.g F.FIR_GOVSLOT_NJ) ∧ (r.energy : Int) ≤ max 0 lim ∧ r.energy = e r.xs ∧
    r.xs.map (·.q) = xs.map (·.q) ∧ r.xs.map (·.typ) = xs.map (·.typ) ∧ (∀ p ∈ xs.zip r.xs, p.2.lev ≤ p.1.lev ∧ p.2.idx ≤ p.1.idx) ∧
    sumL (r.xs.map (·.lev)) + r.shaved = sumL (xs.map (·.lev)) ∧
    ((∀ g < 16, e (xs.filter fun x => x.g == g) ≤ 16 * s.g F.FIR_GOVSLOT_NJ) → (e xs : Int) ≤ lim →
      r.xs = xs.map (fun x => if x.lev = 0 then { x with idx := 0 } else x) ∧ r.lowered = false ∧ r.shaved = 0))

/-- R103, R104, R177, R180: with no injection pending and no open record of a slip. -/
def Obligations.FireAndFall : Prop :=
  (∀ (s : State) (m : Fin 32), (∀ y ∈ s.gth.lines, (y.ml m).came = true → (y.ml m).fen = true ∨ 16 ≤ (y.ml m).slot) → s.slotsEnd m = s) ∧
  ∀ (s : State) (m : Fin 32) (x : Line) (tf : Nat), s.err.inj = none → s.err.opened = [] → tf < 2 ^ 64 → s.begun.slotsEnd m = s.begun →
    (s.nextFire m = some x → (x.ml m).tf = some tf → s.laneUp m = true → (x.ml m).sent = true → s.lineHeld x = true →
      exec (.fireTime m) s = .next (s.after ((s.begun.holdLine x).skipLine x m))) ∧
    (s.nextFire m = some x → (x.ml m).tf = some tf → s.laneUp m = true → (x.ml m).sent = true → s.lineHeld x = false →
      bitOf (s.g F.FIR_WDSTS_CUT) m = false → s.fir.clkLost = false → s.lastFall m = none → (s.fen m).skUntil = none →
      exec (.fireTime m) s = .next (s.after ((s.begun.modFen m fun y => { y with drive := true, high := true, k := x.k, rise := tf, skUntil := none, stuck := false }).modML x.k m
        fun y => { y with came := true, fen := true }))) ∧
    (∀ f, s.nextFire m = some x → (x.ml m).tf = some tf → (x.ml m).slip = false → s.laneUp m = true → (x.ml m).sent = true → s.lineHeld x = false →
      bitOf (s.g F.FIR_WDSTS_CUT) m = false → s.fir.clkLost = false → s.lastFall m = some f → (s.fen m).skUntil = none →
      0 < tdiff (tAdd f (nsU (s.g F.FIR_FGCFG_MINLOW) : Nat)) tf → exec (.fireTime m) s = .next (s.after (((s.begun.inc F.FIR_CNT_FENSLIP_COUNT).recordRun
          { c := E.FIR_FENSLIP, inst := x.k % 65536, ctxType := 1, ctx := ctxLine m 0 x.sig x.line, key := [m.val] }).modML x.k m
        fun y => { y with tf := some (tAdd f (nsU (s.g F.FIR_FGCFG_MINLOW) : Nat)), slip := true }))) ∧
    ((s.gth.lines.find? fun x => (x.ml m).came && decide ((x.ml m).slot < 16)) = some x → s.lineK x.k = some x → (x.ml m).slot < 15 →
      let acked := ((x.ml m).bunds[(x.ml m).slot]?.any fun b => b.acked) = true
      let next (t : State) : State := (t.dropCopy x.k m (x.ml m).slot).modML x.k m fun y => { y with slot := (x.ml m).slot + 1 }
      (acked → s.laneUp m = true → exec (.fireGroupSlot m) s = .next (s.after (next s.begun))) ∧
      (¬ acked ∨ s.laneUp m = false → (s.lane m).stage ≠ .retired → exec (.fireGroupSlot m) s = .next (s.after (next (s.begun.bundleLate x m (x.ml m).slot)))) ∧
      ((s.lane m).stage = .retired → exec (.fireGroupSlot m) s = .next (s.after (next s.begun)))) ∧
    ((s.fen m).drive = true → (s.fen m).stuck = false → exec (.fenFall m) s = .next (s.after (s.begun.modFen m
      fun y => { y with drive := false, high := false, fell := if y.high then some s.now else y.fell })))

/-- R117, R118, R28 and R31. -/
def Obligations.WatchdogAndClock : Prop :=
  ∀ (s : State) (m : Fin 32) (src : Src) (w : Word),
    ((s.fen m).high = false → exec (.fenWatchdogCut m) s = .next (s.after s.begun)) ∧
    ((s.fen m).high = true → s.jtag.hold = true → exec (.fenWatchdogCut m) s = .next (s.after ((s.begun.modFen m fun y => { y with high := false, fell := some s.now }).p
      F.FIR_WDSTS_CUT (putBit (s.g F.FIR_WDSTS_CUT) m true)))) ∧
    ((s.fen m).high = true → s.jtag.hold = false → exec (.fenWatchdogCut m) s = .next (s.after ((((s.begun.modFen m fun y => { y with high := false, drive := y.drive && !y.stuck, stuck := false, fell := some s.now }).p
        F.FIR_WDSTS_CUT (putBit (s.g F.FIR_WDSTS_CUT) m true)).record { c := E.FIR_WDCUT, inst := (s.fen m).k % 65536, ctxType := 1, ctx := s.ctxFrame m (s.fen m).k, key := [m.val], inj := (s.fen m).stuck, handles := true }).raise SEv.FEN_CUT m))) ∧
    (s.answers → ∃ t, exec (.fenCutClear src w) s = .next (s.after t) ∧ (∀ i < 32, bitOf (t.g F.FIR_WDSTS_CUT) i =
      (bitOf (s.g F.FIR_WDSTS_CUT) i && !(bitOf w.toNat i && !(s.fen i).drive))) ∧ t.fir = s.fir) ∧
    (∃ t, exec .refclk0Loss s = .next (s.after t) ∧ t.fir.clkLost = true ∧ (∀ i < 32, (t.fen i).high = false ∧ (t.fen i).drive = (s.fen i).drive) ∧ t.regs = s.regs) ∧
    exec .refclk0Return s = .next (s.after ({ s.begun with fir := { s.fir with clkLost := false } } : State).scanOut) ∧
    (s.jtag.hold = false → ({ s.begun with fir := { s.fir with clkLost := false } } : State).scanOut = { s.begun with fir := { s.fir with clkLost := false } }) ∧
    (s.mayCal = true → exec .outputPathCalibration s = .next (s.after { s.begun with fir := { s.fir with calNs := s.ns } })) ∧
    (s.mayCal = false → exec .outputPathCalibration s = .next (s.after s.begun))

/-- R76, R174 and R175 for a device outside a folio pair: a module-line whose lane is not ACTIVE, and one whose line frame goes out; R98's step. -/
def Obligations.LineDoneAndRamp : Prop :=
  ∀ (s : State) (m : Fin 32),
    ((s.gth.lines.find? fun x => !(x.ml m).words.isEmpty && !(x.ml m).done) = none → exec (.gatherLineDone m) s = .next (s.after s.begun)) ∧
    (∀ x, (s.gth.lines.find? fun x => !(x.ml m).words.isEmpty && !(x.ml m).done) = some x → x.ptEntry = none → x.dead = false → s.member = false → s.laneUp m = false → (x.ml m).slot ≠ 16 → (x.ml m).came = false →
      (∀ y ∈ s.gth.lines, y.k = x.k → y = x) → ∃ t, exec (.gatherLineDone m) s = .next (s.after t) ∧ t.out = [] ∧ t.thl = s.thl ∧ t.dram = s.dram ∧ t.gth.k = s.gth.k ∧
        (t.lineK x.k).map (fun y => ((y.ml m).done, (y.ml m).sent, (y.ml m).words)) = some (true, (x.ml m).sent, (x.ml m).words)) ∧
    (∀ x, (s.gth.lines.find? fun x => !(x.ml m).words.isEmpty && !(x.ml m).done) = some x → x.ptEntry = none → x.dead = false → s.member = false → s.laneUp m = true → (x.ml m).slot ≠ 16 → (x.ml m).came = false → (x.ml m).bunds = [] →
      (∀ y ∈ s.gth.lines, y.k = x.k → y = x) → ∃ t, exec (.gatherLineDone m) s = .next (s.after t) ∧ t.g (F.THL_LANESTS_LFN m) = x.k % 65536 ∧ t.gth.k = s.gth.k ∧
        (t.lineK x.k).map (fun y => ((y.ml m).done, (y.ml m).sent, (y.ml m).bunds)) = some (true, true, List.replicate 16 {})) ∧
    (s.running = true → s.gth.k % 64 = 0 → s.gth.rampK ≠ some s.gth.k →
      exec .trimRampStep s = .next (s.after { s.begun.trimStep with gth := { s.begun.trimStep.gth with rampK := some s.gth.k } })) ∧
    (s.gth.k % 64 ≠ 0 ∨ s.gth.rampK = some s.gth.k → exec .trimRampStep s = .next (s.after s.begun))

/-- R144 for an event that posts no descriptor, R145, R152, and R153 within STEPTHR. -/
def Obligations.TimebaseEvents : Prop :=
  ∀ (s : State) (n : Fin 8) (src : Src) (rising : Bool) (frac : BitVec 16),
    let te := s.g (F.TMB_EVT_LO_VAL n) + 2 ^ 32 * s.g (F.TMB_EVT_HI_VAL n)
    let set := s.g F.TMB_SET_LO_VAL + 2 ^ 32 * s.g F.TMB_SET_HI_VAL
    (s.gb (F.TMB_EVTCTL_ARMED n) = true → 0 ≤ tdiff s.now te → s.gb (F.TMB_EVTCTL_RINGEN n) = false →
      exec (.tbEventFire n) s = .next (s.after ((s.begun.p (F.TMB_EVTCTL_ARMED n) 0).raise (SEv.TB_EVT + n) n))) ∧
    (s.gb (F.TMB_EVTCTL_ARMED n) = false ∨ tdiff s.now te < 0 → exec (.tbEventFire n) s = .next (s.after s.begun)) ∧
    (s.answers → s.follower = true → exec (.timebaseSet src) s = .next (s.after (s.begun.recReg E.POS_CMD 0x60034 src))) ∧
    (s.answers → s.follower = false → exec (.timebaseSet src) s = .next (s.after (s.begun.tbStep (tdiff s.now set) false)) ∧ tAdd s.now (-(tdiff s.now set)) = set) ∧
    (s.follower = true → s.gb F.TMB_STS_HOLDOVER = false → s.err.inj = none → ∃ t, exec .syncLoss s = .next (s.after ((t.inc F.TMB_CNT_SYNCLOST_COUNT).record
      { c := E.TMB_SYNCLOST, ctxType := 5, ctx := ctxNode (t.g F.TMB_MASTER_NODE) (t.g F.TMB_STS_UPSEL) 0xFF 0, handles := true })) ∧
      t = { (s.begun.p F.TMB_STS_HOLDOVER 1).p F.TMB_STS_LOCK 0 with tmb := { s.tmb with lockRun := 0 } }) ∧
    (s.follower = false ∨ s.gb F.TMB_STS_HOLDOVER = true → exec .syncLoss s = .next (s.after s.begun)) ∧
    (s.g F.TMB_CTL_ROLE ≠ 2 ∨ rising = s.gb F.TMB_CTL_PPSPOL → exec (.ppsEdge rising frac) s = .next (s.after s.begun)) ∧
    (∀ th : Int, s.g F.TMB_CTL_ROLE = 2 → rising ≠ s.gb F.TMB_CTL_PPSPOL → -(nsU 1000000000 : Int) < 2 * th → 2 * th ≤ (nsU 1000000000 : Int) →
      (((tAdd s.now frac.toNat : Nat) : Int) - th) % (nsU 1000000000 : Int) = 0 → th.natAbs ≤ nsU (s.g F.TMB_STEPTHR_NS) →
      exec (.ppsEdge rising frac) s = .next (s.after (({ s.begun with tmb := { s.tmb with pps := true } }.p F.TMB_OFFSET_PS (psOf th)).servo th true false)))

/-- R149 to R151, with no injection pending. The credits of a received frame return as it is taken (`consume`). -/
def Obligations.SyncAndDelay : Prop :=
  ∀ (s : State) (p : Fin 4) (f : Frame) (frac : BitVec 16) (res : List (BitVec 48)), s.err.inj = none →
    let c := s.begun.consume p f
    let rx := tAdd s.now frac.toNat
    let named := leAt f.payload 18 2 = s.g F.TMB_MASTER_NODE ∧ byteAt f.payload 20 < 32
    let h : State := c.modTmb fun x => { x with hops := spSet none x.hops p (some (byteAt f.payload 20)) }
    let theta := tdiff rx (tAdd (leAt f.payload 0 8) (sext 64 (leAt f.payload 8 8) + s.delayOf p))
    (s.follower = true → exec .hbSyncSend s = .next (s.after s.begun)) ∧
    (s.follower = false → exec .hbSyncSend s = .next (s.after ((s.upPorts.foldl (fun t q => t.hbSend q FT.HB_SYNC (syncBytes s.now 0 s.epoch s.ownNode 0
        (b2n (s.g F.TMB_CTL_ROLE == 2 && s.tmb.pps) + 2 * b2n (decide (s.tmb.sinceEpoch < 16))) s.tmb.syncSeq)) s.begun).modTmb
        fun x => { x with syncSeq := (x.syncSeq + 1) % 65536, sinceEpoch := Nat.min 16 (x.sinceEpoch + 1) }))) ∧
    (¬ named → exec (.hbSyncReceive p f frac res) s = .next (s.after (c.inc F.TMB_CNT_SYNCREJ_COUNT))) ∧
    (named → s.follower = false ∨ h.upstream ≠ some p.val → exec (.hbSyncReceive p f frac res) s = .next (s.after (h.inc F.TMB_CNT_SYNCREJ_COUNT))) ∧
    (s.g F.TMB_CTL_UPPORT = p.val → h.upstream = some p.val) ∧
    (named → s.follower = true → h.upstream = some p.val →
      let u := (((h.p F.TMB_OFFSET_PS (psOf theta)).p F.TMB_STS_SYNCSEEN 1).p F.TMB_STS_HOLDOVER 0).p F.TMB_STS_UPSEL p
      exec (.hbSyncReceive p f frac res) s = .next (s.after (((c.upPorts.filter fun q => q != p.val).foldl (fun t q => t.hbSend q FT.HB_SYNC
        (syncBytes (leAt f.payload 0 8) (sext 64 (leAt f.payload 8 8) + ((res.map BitVec.toNat).getD q 0 : Nat) + s.delayOf p) (leAt f.payload 16 2) (leAt f.payload 18 2)
          (byteAt f.payload 20 + 1) (byteAt f.payload 21) (leAt f.payload 22 2))) u).servo theta (leAt f.payload 16 2 == s.epoch) false))) ∧
    (s.follower = false → exec .hbPdreqSend s = .next (s.after s.begun)) ∧
    (s.follower = true → s.upPorts = [] → exec .hbPdreqSend s = .next (s.after { s.begun with tmb := { s.tmb with pdSeq := (s.tmb.pdSeq + 1) % 65536 } })) ∧
    (∀ q, s.follower = true → s.upPorts = [q] → exec .hbPdreqSend s = .next (s.after ((({ s.begun with tmb := { s.tmb with pdSeq := (s.tmb.pdSeq + 1) % 65536 } }).hbSend q FT.HB_PDREQ
      (leBytes 8 s.now ++ leBytes 8 0 ++ leBytes 6 0 ++ leBytes 2 s.tmb.pdSeq)).modTmb fun x => { x with pd := spSet none x.pd q (some ⟨s.tmb.pdSeq, s.now⟩) }))) ∧
    (∀ turn : BitVec 48, exec (.hbPdreqReceive p f frac turn) s = .next (s.after (c.hbSend p FT.HB_PDRESP
      (leBytes 8 rx ++ leBytes 8 (tAdd rx turn.toNat) ++ leBytes 6 0 ++ leBytes 2 (leAt f.payload 22 2))))) ∧
    (∀ r, spGet none s.tmb.pd p = some r → r.seq = leAt f.payload 22 2 →
      ∃ t, exec (.hbPdrespReceive p f frac) s = .next (s.after t) ∧ spGet none t.tmb.pd p = none ∧ t.tb = s.tb ∧
        spGet [] t.tmb.delays p = (((tdiff rx r.t1 - tdiff (leAt f.payload 8 8) (leAt f.payload 0 8)) / 2 + sext 16 (s.g (F.TMB_ASYM_PS p)) * 65536 / 1000) :: spGet [] s.tmb.delays p).take 16) ∧
    (∀ r, spGet none s.tmb.pd p = some r → r.seq ≠ leAt f.payload 22 2 → exec (.hbPdrespReceive p f frac) s = .next (s.after c)) ∧
    (spGet none s.tmb.pd p = none → exec (.hbPdrespReceive p f frac) s = .next (s.after c)) ∧
    exec (.pdrespTimeout p) s = .next (s.after { s.begun with tmb := { s.tmb with pd := spSet none s.tmb.pd p none } })

/-- R155 to R158, with no injection pending: a beacon sent, one received in each state of the follower, and the follower's triggers. -/
def Obligations.BeaconsAndFollower : Prop :=
  ∀ (s : State) (p : Fin 5) (f : Frame), s.err.inj = none →
    let c := s.begun.consume p f
    let pk : Int := sext 48 (leAt f.payload 8 6)
    let tc := leAt f.payload 16 4
    let seq := byteAt f.payload 23
    let flags := byteAt f.payload 22
    let stale := ∃ l, s.pos.fol.lastSeq = some l ∧ ((seq + 256 - l) % 256 = 0 ∨ 128 ≤ (seq + 256 - l) % 256)
    let usable := s.folSt ≠ .notFollower ∧ f.src = s.g F.POS_BCNCFG_SRCNODE ∧ leAt f.payload 20 2 = s.epoch ∧ ¬ stale
    let acqFrom (t : State) : State := if s.folSt = .acq then t.modFlw (fun y => { y with good := 0 }) else t
    let res : Rat := (pk : Rat) - s.estAt (leAt f.payload 0 8)
    let mx : Rat := ((s.g F.POS_BCNCFG_MAXRES : Nat) : Rat)
    let taken (z : Follower) : State := c.modFlw fun y =>
      { y with p := s.estAt (leAt f.payload 0 8) + 1 / ((2 ^ s.g F.POS_BCNCFG_ASH : Nat) : Rat) * res, v := y.v + 1 / ((2 ^ s.g F.POS_BCNCFG_BSH : Nat) : Rat) * res / ((nsU 10000 : Nat) : Rat)
               tref := leAt f.payload 0 8, good := y.good + 1, lastSeq := some seq, st := z.st, injd := z.injd }
    (devCode s.dev < 4 ∨ s.gb F.POS_CTL_BCNTX = false ∨ 2 ≤ s.g F.POS_CTL_SRC → exec .beaconSend s = .next (s.after s.begun)) ∧
    (4 ≤ devCode s.dev → s.gb F.POS_CTL_BCNTX = true → s.g F.POS_CTL_SRC < 2 → ∃ b : Bytes, exec .beaconSend s = .next (s.after ((List.range 8).foldl (fun t k =>
        if t.gb (F.POS_BCNDST_EN k) then t.send (t.mkFrame (t.g (F.POS_BCNDST_NODE k)) 0 FT.HB_BEACON b) else t)
        { s.begun with pos := { s.pos with bcnSeq := (s.pos.bcnSeq + 1) % 256, zSeen := false } })) ∧
      b.length = 32 ∧ leAt b 0 8 = ((s.enc (s.g F.POS_CTL_SRC)).lastEdge.getD 0) % 2 ^ 64 ∧ leAt b 8 6 = toBits 48 (s.enc (s.g F.POS_CTL_SRC)).count ∧ leAt b 20 2 = s.epoch ∧
      byteAt b 23 = s.pos.bcnSeq % 256 ∧ bitOf (byteAt b 22) 0 = s.isRev ∧ bitOf (byteAt b 22) 2 = s.pos.zSeen ∧
      (s.pos.stamp = none → leAt b 16 4 = 0xFFFFFFFF ∧ bitOf (byteAt b 22) 1 = true)) ∧
    (s.folSt = .notFollower ∨ f.src ≠ s.g F.POS_BCNCFG_SRCNODE → exec (.hbBeaconReceive p f) s = .next (s.after c)) ∧
    (s.folSt ≠ .notFollower → f.src = s.g F.POS_BCNCFG_SRCNODE →
      (leAt f.payload 20 2 ≠ s.epoch → exec (.hbBeaconReceive p f) s = .next (s.after (acqFrom (c.inc F.POS_CNT_BCNEPOCH_COUNT)))) ∧
      (leAt f.payload 20 2 = s.epoch → stale → exec (.hbBeaconReceive p f) s = .next (s.after (acqFrom c)))) ∧
    (usable → s.folSt = .acq → s.pos.fol.loaded = false → exec (.hbBeaconReceive p f) s = .next (s.after ((c.modFlw fun y =>
      { y with st := .acq, p := (pk : Rat), tref := leAt f.payload 0 8, good := 1, loaded := true, lastSeq := some seq, valid := true,
               v := if bitOf flags 1 = true ∨ tc = 0xFFFFFFFF ∨ tc = 0 then 0 else (if bitOf flags 0 then -1 else 1) / ((tc : Nat) : Rat) }).estJump (!s.pos.fol.valid)))) ∧
    (usable → s.folSt = .acq → s.pos.fol.loaded = true → -mx ≤ res → res ≤ mx → exec (.hbBeaconReceive p f) s =
      .next (s.after (taken { st := if s.pos.fol.good + 1 < 3 then .acq else .locked, injd := s.pos.fol.injd }))) ∧
    (usable → s.folSt = .extrap → -mx ≤ res → res ≤ mx → exec (.hbBeaconReceive p f) s = .next (s.after (taken { st := .locked, injd := s.pos.fol.injd }))) ∧
    (usable → s.folSt = .locked → -mx ≤ res → res ≤ mx → exec (.hbBeaconReceive p f) s =
      .next (s.after (taken { st := .locked, injd := s.pos.fol.injd && s.missed.isSome }))) ∧
    (usable → s.folSt = .hold → -mx ≤ res → res ≤ mx → exec (.hbBeaconReceive p f) s = .next (s.after ((taken { st := .locked, injd := s.pos.fol.injd }).estJump false))) ∧
    (∀ x : State, x.pos.fol.v = 0 → (x.estJump true).pos.p = (x.estAt x.now).floor ∧ (x.estJump true).pos.x = (x.estAt x.now).floor) ∧
    (usable → s.folSt = .locked → mx < res ∨ res < -mx →
      exec (.hbBeaconReceive p f) s = .next (s.after (c.record { c := E.POS_BCNJUMP, ctxType := 1, ctx := s.ctxGrid, handles := true }).toAcq)) ∧
    (s.folSt = .locked → exec .beaconExtrap s = .next (s.after { s.begun with pos := { s.pos with fol := { s.pos.fol with st := .extrap } } })) ∧
    (s.folSt ≠ .locked → exec .beaconExtrap s = .next (s.after s.begun)) ∧
    (s.folSt ≠ .notFollower → s.folSt ≠ .hold → exec .beaconHold s = .next (s.after
      ({ s.begun with pos := { s.pos with p := s.posNow, fol := { s.pos.fol with st := .hold } } }.record { c := E.POS_BCNLOST, ctxType := 1, ctx := s.ctxGrid, inj := s.pos.fol.injd, handles := true }))) ∧
    (s.estDrives = false → exec .followerTrigger s = .next (s.after s.begun)) ∧
    (s.estDrives = true → s.missed = none → exec .followerTrigger s = .next (s.after (State.followN (s.estCount - s.pos.p).natAbs (decide (s.pos.p < s.estCount)) s.begun))) ∧
    (s.estDrives = true → s.missed.isSome = true → exec .followerTrigger s = .next (s.after (if s.estCount = s.pos.p then s.begun else s.begun.jumpTo s.estCount))) ∧
    (s.running = true → s.g F.POS_CTL_SRC = 2 → s.folSt ≠ .hold → s.missed = none →
      exec .catchupTrigger s = .next (s.after { s.begun with pos := { s.pos with fol := { s.pos.fol with cu := false } } })) ∧
    (∀ g isCur, s.running = true → s.g F.POS_CTL_SRC = 2 → s.folSt ≠ .hold → s.missed = some (g, isCur) → s.pos.fol.cu = true →
      let b := g.b0 + s.dirI * g.next * (g.pitch : Int)
      let q : Int := if 0 < s.dirI then -((-b) / 65536) else b / 65536
      let u := ((s.begun.inc F.POS_CNT_CATCHUP_COUNT).issue g isCur q (tMax s.now (s.pos.lastTrig.map fun l => tAdd l (nsU s.tcfg : Nat))) (s.dirI * (q * 65536 - b)).toNat true).startsPassed
      exec .catchupTrigger s = .next (s.after (if u.missed = none then u.modFlw (fun x => { x with cu := false }) else u))) ∧
    (s.running = false ∨ s.g F.POS_CTL_SRC ≠ 2 ∨ s.folSt = .hold → exec .catchupTrigger s = .next (s.after s.begun))

/-- R168 and R169, lane m first coming up. -/
def Obligations.LaneBringUp : Prop :=
  ∀ (s : State) (m : Fin 32) (b : Bytes), (s.lane m).wait = false →
    ((s.lane m).stage = .detect → exec (.thlDetectProbe m true) s = .next (s.after (s.begun.setStage m .train 0))) ∧
    (exec (.thlDetectProbe m false) s = .next (s.after s.begun)) ∧
    ((s.lane m).stage = .train → ∃ t, exec (.thlBitLock m) s = .next (s.after (t.tsTx m)) ∧ t = (s.begun.modLane m fun x => { x with locked := false }).laneStep m .bitlock) ∧
    (∀ locked, ctlOk b = false → exec (.thlTsReceive m b locked) s = .next (s.after ((if locked then s.begun.modLane m fun x => { x with locked := true } else s.begun).ctlBad m))) ∧
    (ctlOk b = true → byteAt b 0 = 0x66 → 4 ≤ byteAt b 1 → byteAt b 1 ≤ 6 → (s.lane m).stage = .bitlock → (s.lane m).locked = true →
      exec (.thlTsReceive m b false) s = .next (s.after (((s.begun.modLane m fun x => { x with cpSeen := false, bad := false }).laneStep m .blocklock).tsTx m))) ∧
    (ctlOk b = true → byteAt b 0 = 0x99 → (s.lane m).stage = .blocklock → (s.lane m).cpSeen = false →
      let c := slice b 1 6 ++ slice b 8 24
      let t := ((s.begun.modLane m fun x => { x with cpSeen := true }).capReport m c).p (F.THL_LANESTS_PORTB m) (bitsOf (leAt c 14 1) 4 4)
      (t.capOk m c = false → exec (.thlCpReceive m b) s = .next (s.after (t.capex m))) ∧
      (t.capOk m c = true → ∃ u, u = ((t.modLane m fun x => { x with cap := some c }).p (F.THL_LANESTS_CAPOK m) 1).command m 1 0 ∧
        exec (.thlCpReceive m b) s = .next (s.after ((u.command m 2 (u.g F.FIR_FGCFG_SLOT)).command m 3 (u.g (F.THL_CFG_REFIRE m)))))) ∧
    ((s.lane m).stage = .train ∨ (s.lane m).stage = .bitlock ∨ (s.lane m).stage = .blocklock ∨ (s.lane m).stage = .recover → exec (.thlStageTimeout m) s = .next (s.after (s.begun.laneFail m))) ∧
    exec (.thlRetryDelayEnd m) s = .next (s.after s.begun) ∧
    (∀ u : State, (u.lane m).wait = true → exec (.thlRetryDelayEnd m) u = .next (u.after (u.begun.laneDetect m)) ∧ exec (.thlStageTimeout m) u = .next (u.after u.begun)) ∧
    ((s.laneDetect m).lane m).stage = .detect ∧ ((s.laneDetect m).lane m).wait = false ∧ ((s.laneDetect m).lane m).cmd = none

/-- R187, R193 to R196, with no injection pending. -/
def Obligations.LaneCommands : Prop :=
  ∀ (s : State) (m : Fin 32) (src : Src) (b : Bytes) (c : LCmd), s.err.inj = none →
    ((s.lane m).cmd = some c → c.code ≠ 4 → ctlOk b = true → byteAt b 0 = 0xAA → byteAt b 1 = c.code → byteAt b 2 = 0 →
      exec (.thlCrReceive m b) s = .next (s.after (s.begun.cmdEnd m true))) ∧
    (ctlOk b = false → exec (.thlCrReceive m b) s = .next (s.after (s.begun.ctlBad m))) ∧
    ((s.lane m).cmd = none → exec (.thlCmdTimeout m) s = .next (s.after s.begun)) ∧
    ((s.lane m).cmd = some c → c.tries < 3 → exec (.thlCmdTimeout m) s = .next (s.after
      ((s.begun.modLane m fun x => { x with cmd := some { c with tries := c.tries + 1 } }).cmdTx m c))) ∧
    ((s.lane m).cmd = some c → 3 ≤ c.tries → c.code ≠ 4 → exec (.thlCmdTimeout m) s = .next (s.after
      ((s.begun.record { c := E.THL_CMDTMO, inst := m, ctxType := 8, ctx := s.ctxOfLane m, inj := c.inj }).cmdEnd m false))) ∧
    (∀ i ∈ [Instr.thlLockLoss m, Instr.thlSyncErrorLimit m],
      ((s.lane m).stage ≠ .active → exec i s = .next (s.after s.begun)) ∧
      ((s.lane m).stage = .active → s.g (F.THL_RETCFG_RECMAX m) = 0 → ∃ t, exec i s = .next (s.after t) ∧ (t.lane m).stage = .recover ∧ (t.lane m).cmd = none ∧
        (t.lane m).recTimes = ((s.lane m).recTimes.filter fun t => decide (s.us < t + 1000000)) ++ [s.us] ∧ ∀ o, o ≠ m.val → t.lane o = s.lane o)) ∧
    (s.answers →
      (s.dev ≠ .standby → s.dev ≠ .hold → exec (.thlRetrain src m) s = .next (s.after (s.begun.thlCmdRec m src))) ∧
      (s.dev = .standby ∨ s.dev = .hold → (s.lane m).stage = .active → exec (.thlRetrain src m) s = .next (s.after (s.begun.laneRecover m false))) ∧
      (s.dev ≠ .standby → ∀ i ∈ [Instr.thlRestore src m, Instr.thlTest src m, Instr.thlTestexit src m], exec i s = .next (s.after (s.begun.thlCmdRec m src))) ∧
      (s.dev = .standby → (s.lane m).stage = .retired → ∃ t, exec (.thlRestore src m) s = .next (s.after t) ∧ (t.lane m).stage = .detect ∧ (t.lane m).recTimes = [] ∧ (t.lane m).resendK = []) ∧
      (s.dev = .standby → (s.lane m).stage = .active → ∃ t, exec (.thlTest src m) s = .next (s.after t) ∧ (t.lane m).stage = .test ∧ (t.lane m).prbs = {} ∧
        (t.lane m).cmd = some ⟨8, 1, 0, false⟩ ∧ t.out = [.thread m true (ctlBlock 0x55 [8, 1])]) ∧
      (s.dev = .standby → (s.lane m).stage = .test → ∃ t, exec (.thlTestexit src m) s = .next (s.after t) ∧ (t.lane m).stage = .train ∧ (t.lane m).locked = false ∧
        (t.lane m).cmd = some ⟨8, 0, 0, false⟩ ∧ t.out = [.thread m true (ctlBlock 0x55 [8])]))

/-- R166 and R178 to R180. -/
def Obligations.AckAndResend : Prop :=
  ∀ (s : State) (m : Fin 32) (b : Bytes) (lfn : BitVec 16) (g : Fin 16),
    (ctlOk b = false → exec (.thlAkReceive m b) s = .next (s.after (s.begun.ctlBad m))) ∧
    (ctlOk b = true → byteAt b 0 = 0x78 → (s.lane m).stage = .active → (s.lane m).injAck = false → ∀ x u, s.lineOfLfn m (leAt b 1 2) = some x →
      (x.ml m).open? (byteAt b 3 % 16) = some u →
      (bitsOf (byteAt b 3) 5 4 ≠ u.gen → exec (.thlAkReceive m b) s = .next (s.after s.begun)) ∧
      (bitsOf (byteAt b 3) 5 4 = u.gen → bitOf (byteAt b 3) 6 = false → exec (.thlAkReceive m b) s = .next (s.after (s.begun.modBund x.k m (byteAt b 3 % 16) fun u => { u with acked := true }))) ∧
      (bitsOf (byteAt b 3) 5 4 = u.gen → bitOf (byteAt b 3) 6 = true → exec (.thlAkReceive m b) s = .next (s.after ((s.begun.inc (F.THL_CNT_NAK_COUNT m)).askResend x.k m (byteAt b 3 % 16))))) ∧
    (ctlOk b = true → byteAt b 0 = 0x78 → (s.lane m).stage ≠ .active ∨ ((s.lane m).injAck = false ∧ s.lineOfLfn m (leAt b 1 2) = none) → exec (.thlAkReceive m b) s = .next (s.after s.begun)) ∧
    (∀ x u, s.lineOfLfn m lfn.toNat = some x → (x.ml m).open? g = some u →
      exec (.thlAckTimeout m lfn g) s = .next (s.after ((s.begun.inc (F.THL_CNT_ACKTMO_COUNT m)).askResend x.k m g))) ∧
    (s.lineOfLfn m lfn.toNat = none → exec (.thlAckTimeout m lfn g) s = .next (s.after s.begun)) ∧
    (∀ x u, s.lineK x.k = some x → (x.ml m).open? g = some u →
      s.mayResend x.k m g = (s.laneUp m && decide (u.resends < s.g (F.THL_RTCFG_NRS m)) && s.copyFits m (x.ml m) g && !s.replayBad x.k m g)) ∧
    (∀ k, s.mayResend k m g = false → s.askResend k m g = s) ∧
    (∀ k, s.mayResend k m g = true → (k, g.val) ∉ (s.lane m).brq → s.askResend k m g = (s.modLane m fun x => { x with brq := x.brq ++ [(k, g.val)] }).laneKick m) ∧
    (∀ x u, s.lineK x.k = some x → (x.ml m).open? g = some u →
      ∃ y, (s.resend x.k m g).lineK x.k = some y ∧ (y.ml m).bunds[g.val]? = some { u with gen := (u.gen + 1) % 4, resends := u.resends + 1 }) ∧
    ((s.lane m).blocks < 990 → exec (.thlIdleInsert m) s = .next (s.after s.begun)) ∧
    (s.laneSends m = true → 990 ≤ (s.lane m).blocks → (s.lane m).txBr = [] → 100 * s.ns < (s.lane m).txNext + s.blockCns m →
      exec (.thlIdleInsert m) s = .next (s.after ((s.begun.modLane m fun x => { x with blocks := 0, txNext := x.txNext + s.blockCns m }).emit (.thread m true (ctlBlock 0x1E [])))))

/-- Status frames and the module's temperature (R121, R122, R182, R183); lane injections and the pattern checker (R196, R197). -/
def Obligations.StatusAndInjections : Prop :=
  (∀ (s : State) (m : Fin 32) (b : Bytes), s.err.inj = none → (s.lane m).injScrc = false →
     (ctlOk b = false → exec (.thlStatusFrame m b) s = .next (s.after (s.begun.ctlBad m))) ∧
     (ctlOk b = true → byteAt b 0 = 0x87 → parseStatus b = none → exec (.thlStatusFrame m b) s = .next (s.after ((s.begun.inc (F.THL_CNT_STSCRC_COUNT m)).measLost m))) ∧
     (ctlOk b = true → byteAt b 0 = 0x87 → ∀ f, parseStatus b = some f → f.isLine = false → f.res = [] → exec (.thlStatusFrame m b) s = .next (s.after (s.begun.tempReport m f.lfn f.temp false))) ∧
     (ctlOk b = true → byteAt b 0 = 0x87 → ∀ f, parseStatus b = some f → f.isLine = true → f.res = [] → f.blank = 0 →
       let u := ((s.begun.tempReport m f.lfn f.temp false).lineStatus m f false).modFir fun x => { x with statK := spSet none x.statK m (some f.lfn) }
       exec (.thlStatusFrame m b) s = .next (s.after (((u.modFir fun x => { x with reps := spSet [] x.reps m (⟨f.lfn, f.temp, u.isHot m, false⟩ :: (spGet [] x.reps m).take 255) }).calTemp
         m f.temp).folStatus m f))) ∧
     (∀ lfn temp, s.g F.FIR_TLIM_HARD ≠ 0 → s.g F.FIR_TLIM_HARD ≤ temp → s.isHot m = false →
       ∃ t : State, s.tempReport m lfn temp false = t.goHot m lfn E.FIR_THARD false ∧ bitOf t.fir.hot m = true ∧ bitOf t.fir.lost m = false) ∧
     (bitOf s.fir.lost m = true → exec (.moduleStatusLost m) s = .next (s.after s.begun)) ∧
     (bitOf s.fir.lost m = false → s.isHot m = false → exec (.moduleStatusLost m) s = .next (s.after
       (({ s.begun with fir := { s.fir with lost := putBit s.fir.lost m true } }.p (F.FIR_TEMP_STALE m) 1).goHot m (s.lostK m) E.FIR_TLOST (bitOf s.fir.statInj m))))) ∧
  (∀ (s : State) (m : Fin 32) (src : Src) (bits : List Bool), s.answers →
     (exec (.thlInjBcrc src m) s = .next (s.after (s.begun.modLane m fun x => { x with injBcrc := true }))) ∧
     (exec (.thlInjHcrc src m) s = .next (s.after (s.begun.modLane m fun x => { x with injHcrc := true }))) ∧
     (exec (.thlInjAckdrop src m) s = .next (s.after (s.begun.modLane m fun x => { x with injAck := true }))) ∧
     (exec (.thlInjScrc src m) s = .next (s.after (s.begun.modLane m fun x => { x with injScrc := true }))) ∧
     ((s.lane m).stage = .active → s.g (F.THL_RETCFG_RECMAX m) = 0 → ∃ t, exec (.thlInjBlkloss src m) s = .next (s.after t) ∧ (t.lane m).stage = .recover ∧ (∀ o, o ≠ m.val → t.lane o = s.lane o) ∧
       t.g F.ERR_CNT_INJ_COUNT = satN (2 ^ (F.ERR_CNT_INJ_COUNT.hi + 1 - F.ERR_CNT_INJ_COUNT.lo) - 1) (s.g F.ERR_CNT_INJ_COUNT + 1)) ∧
     ((s.lane m).stage = .test → s.gb (F.THL_PRBS_GENEN m) = true → exec (.thlPrbsInj1 src m) s = .next (s.after
       ((s.begun.modLane m fun x => { x with injBits := x.injBits + 1 }).inc F.ERR_CNT_INJ_COUNT))) ∧
     ((s.lane m).stage ≠ .test → exec (.thlPrbsInj1 src m) s = .next (s.after s.begun) ∧ exec (.thlPrbsCheck m bits) s = .next (s.after s.begun)) ∧
     ((s.lane m).stage = .test → s.gb (F.THL_PRBS_GENEN m) = false → s.gb (F.THL_PRBS_CHKEN m) = true →
       let r := prbsRun (s.g (F.THL_PRBS_POLY m)) (s.gb (F.THL_PRBS_INV m)) (s.lane m).prbs bits
       exec (.thlPrbsCheck m bits) s = .next (s.after (((s.begun.modLane m fun y => { y with prbs := r.1 }).p (F.THL_PRBS_LOCK m) (b2n r.1.lock)).incBy (F.THL_PRBSERR_COUNT m) r.2))) ∧
     ((s.lane m).stage = .test → s.gb (F.THL_PRBS_GENEN m) = true → s.gb (F.THL_PRBS_CHKEN m) = false →
       let r := genRun (s.g (F.THL_PRBS_POLY m)) (s.gb (F.THL_PRBS_INV m)) (s.g (F.THL_PRBS_INJRATE m)) bits.length (s.lane m).gen (s.lane m).injBits
       exec (.thlPrbsCheck m bits) s = .next (s.after (((s.begun.modLane m fun y => { y with gen := r.1, injBits := (s.lane m).injBits - bits.length }).incBy F.ERR_CNT_INJ_COUNT r.2.2).emit
         (.threadBits m r.2.1)))))

/-- R202 to R205 for software writes, with no SRAM word poisoned and no injection pending. -/
def Obligations.MapWrites : Prop :=
  ∀ (s : State) (src : Src) (i : Fin 131072) (w : Word) (m : Fin 32), s.answers → s.sram.poisoned = [] → s.err.inj = none → src ≠ .loader →
    let mask := nzMask (s.g F.NZH_MAPCFG_WRMASK)
    let x : MapW := { m := i.val / 4096, q := i.val % 4096, e := none, src := 1, mask, val := w.toNat, cond := 0, from' := 0 }
    (mask = 0 → ¬ (s.running = true ∧ s.standby = true) → exec (.nozzleMapWindowWrite src i w) s = .next (s.after s.begun)) ∧
    (mask ≠ 0 → s.running = false → exec (.nozzleMapWindowWrite src i w) s = .next (s.after (s.begun.applyMap x))) ∧
    (mask ≠ 0 → s.running = true → s.member = false → exec (.nozzleMapWindowWrite src i w) s = .next (s.after { s.begun with nzh := { s.nzh with queue := s.nzh.queue ++ [x] } })) ∧
    (mask ≠ 0 → s.running = true → s.primary = true → exec (.nozzleMapWindowWrite src i w) s =
      .next (s.after (s.begun.stage { x with e := some ((s.kNow + s.g F.NZH_MAPCFG_ADLY) % 65536) }))) ∧
    (s.running = true → s.standby = true → exec (.nozzleMapWindowWrite src i w) s = .next (s.after (s.begun.recReg E.NZH_MAPWR (0x400000 + 4 * i) src))) ∧
    (nzState (s.nz x.m x.q) = nzState (maskIn (s.nz x.m x.q) mask w.toNat) →
      (s.applyMap x).nz x.m x.q = maskIn (s.nz x.m x.q) mask w.toNat ∧ (∀ b, b ≠ (F.NZH_MODSTS_DEAD x.m).addr → (s.applyMap x).reg b = s.reg b) ∧
      ∀ (n : Fin 32) (q : Fin 4096), ¬ (n.val = x.m ∧ q.val = x.q) → (s.applyMap x).nz n q = s.nz n q) ∧
    (∀ y : MapW, (y.cond = 1 ∧ nzState (s.nz y.m y.q) ≠ y.from') ∨ (y.cond = 2 ∧ nzUsable (s.nz y.m y.q) = false) ∨
      (y.cond = 3 ∧ maybeFrom (nzState (s.nz y.m y.q)) (nzState y.val) = false) → s.applyMap y = s.inc F.NZH_CNT_STALEWR_COUNT) ∧
    ((s.nzh.waiting.find? fun y => y.m == m.val) = none ∨ 1024 ≤ (s.stagedOf m).length → exec (.mapWriteStage m) s = .next (s.after s.begun)) ∧
    (∀ y, (s.nzh.waiting.find? fun y => y.m == m.val) = some y → (s.stagedOf m).length < 1024 →
      exec (.mapWriteStage m) s = .next (s.after ({ s.begun with nzh := { s.nzh with waiting := s.nzh.waiting.erase y } }.stageEnter y)))

/-- R206, R207, R209, R218 and R220. -/
def Obligations.MeasureAndDump : Prop :=
  ∀ (s : State) (src : Src) (m : Fin 32) (code : BitVec 10),
    (s.measOf m = none → s.measAllowed m = false → exec (.measSend m) s = .next (s.after s.begun)) ∧
    (∀ x, s.measOf m = some x → x.lost = false → exec (.measSend m) s = .next (s.after s.begun)) ∧
    (∀ c rest, s.measOf m = none → s.measAllowed m = true → s.candsOf m = c :: rest →
      exec (.measSend m) s = .next (s.after ((s.begun.setMeas m (some ⟨c.q, 1, true, false⟩)).command m 4 (c.q + 4096)))) ∧
    (s.answers →
      (s.dev = .standby → exec (.nozzleSweep src) s = .next (s.after s.begun.sweepStart)) ∧
      (s.dev ≠ .standby → exec (.nozzleSweep src) s = .next (s.after (s.begun.recReg E.NZH_CMD 0x100008 src))) ∧
      (s.gb F.NZH_STS_DUMPBUSY = true → ∀ c ∈ [Instr.nozzleMapDump src, Instr.nozzleMapDumpDirty src], exec c s = .next (s.after (s.begun.recReg E.NZH_CMD 0x100008 src))) ∧
      (s.gb F.NZH_STS_DUMPBUSY = false → exec (.nozzleMapDump src) s = .next (s.after (s.begun.dumpStart (List.range 32))) ∧
        exec (.nozzleMapDumpDirty src) s = .next (s.after (s.begun.dumpStart ((List.range 32).filter fun m => bitOf s.nzh.dirty m)))) ∧
      (∃ t, exec (.nzhInjArm src m code) s = .next (s.after t) ∧ t.nzh = { s.nzh with inj := true } ∧ t.g F.NZH_INJ_MOD = m ∧ t.g F.NZH_INJ_CODE = code.toNat ∧
        ∀ b, b ≠ 0x100040 → t.reg b = s.reg b)) ∧
    (∀ ms, ms ≠ [] → s.running = true → (s.dumpStart ms).gb F.NZH_STS_DUMPBUSY = true ∧ (s.dumpStart ms).nzh.dump = some (ms, []) ∧ (s.dumpStart ms).nzh.dirty = s.nzh.dirty) ∧
    (∀ ms, s.running = false → ∀ k ∈ ms, bitOf (s.dumpStart ms).nzh.dirty k = false)

/-- R223 and R224. -/
def Obligations.CameraTriggers : Prop :=
  ∀ (s : State) (k : Fin 4),
    ((s.ctrig k).waiting = [] → exec (.ctrigRise k) s = .next (s.after s.begun)) ∧
    (∀ x r, (s.ctrig k).waiting = x :: r → (s.ctrig k).stillHigh x.t = true → exec (.ctrigRise k) s = .next (s.after ((s.begun.modCtrig k fun y => { y with waiting := r }).inc F.INS_CNT_TRIGSKIP_COUNT))) ∧
    (∀ x r, (s.ctrig k).waiting = x :: r → (s.ctrig k).stillHigh x.t = false → ∃ t, exec (.ctrigRise k) s = .next (s.after t) ∧
      t.ctrig k = { high := true, fall := tAdd x.t (nsU x.wid), waiting := r } ∧ (∀ o, o ≠ k.val → t.ctrig o = s.ctrig o) ∧ t.lstb k = s.lstb k ∧
      ∀ n < 8, (n ∉ (s.camCtxs k).filter (fun n => dirAdmits (s.g (F.INS_CTX_CFG_DIRSEL n)) x.rev) → t.anchorsOf n = s.anchorsOf n) ∧
        (n ∈ (s.camCtxs k).filter (fun n => dirAdmits (s.g (F.INS_CTX_CFG_DIRSEL n)) x.rev) → (s.anchorsOf n).length < 4 → t.anchorsOf n = s.anchorsOf n ++ [⟨s.ns, x.sig, x.rev, x.px, x.phi⟩])) ∧
    ((s.ctrig k).stillHigh s.now = true → exec (.ctrigFall k) s = .next (s.after s.begun)) ∧
    ((s.ctrig k).stillHigh s.now = false → exec (.ctrigFall k) s = .next (s.after (s.begun.modCtrig k fun x => { x with high := false }))) ∧
    ((s.lstb k).waiting = [] → exec (.lstbRise k) s = .next (s.after s.begun)) ∧
    (∀ x r, (s.lstb k).waiting = x :: r → (s.lstb k).stillHigh x.t = true → exec (.lstbRise k) s = .next (s.after ((s.begun.modLstb k fun y => { y with waiting := r }).inc F.INS_CNT_TRIGSKIP_COUNT))) ∧
    (∀ x r, (s.lstb k).waiting = x :: r → (s.lstb k).stillHigh x.t = false → exec (.lstbRise k) s = .next (s.after (s.begun.modLstb k fun _ => { high := true, fall := tAdd x.t (nsU x.wid), waiting := r }))) ∧
    ((s.lstb k).stillHigh s.now = true → exec (.lstbFall k) s = .next (s.after s.begun)) ∧
    ((s.lstb k).stillHigh s.now = false → exec (.lstbFall k) s = .next (s.after (s.begun.modLstb k fun x => { x with high := false })))

/-- R221, R222, R225 and R226 with no injection armed on the port. -/
def Obligations.CameraPackets : Prop :=
  ∀ (s : State) (p : Fin 4) (h : CsiHdr) (num : BitVec 16) (dt : BitVec 6) (b : Bytes) (hs ulps : Bool), (s.camPort p).inj = 0 → s.err.inj = none →
    let on := s.gb (F.INS_PORTCFG_EN p) = true ∧ s.gb (F.INS_PORTSTS_RETIRED p) = false
    let good := h.bad = false ∧ h.cor = false ∧ h.vcx = false
    (¬ on → ∀ c ∈ [Instr.csiFrameStart p h num, Instr.csiFrameEnd p h, Instr.csiLongPacket p h dt b true, Instr.csiShortPacket p h dt], exec c s = .next (s.after s.begun)) ∧
    (on → h.bad = true → ∀ c ∈ [Instr.csiFrameStart p h num, Instr.csiFrameEnd p h, Instr.csiLongPacket p h dt b true, Instr.csiShortPacket p h dt],
      exec c s = .next (s.after ((s.begun.inc F.INS_CNT_HDRERR_COUNT).camFault p false))) ∧
    (on → good → ∀ n, s.camCtx p h.vc.toNat = some n → s.openFrame n = none → s.ins.frames = [] → s.ins.proc = none → s.anchorsOf n = [] → s.err.opened = [] →
      ∃ (t : State) (f : CamFrame), exec (.csiFrameStart p h num) s = .next (s.after t) ∧ t.ins.frames = [f] ∧ f.ctx = n ∧ f.num = num.toNat ∧ f.anchor = none ∧ f.ended = false ∧ f.rows = []) ∧
    (on → good → ∀ n a r, s.camCtx p h.vc.toNat = some n → s.openFrame n = none → s.ins.frames = [] → s.ins.proc = none → s.anchorsOf n = a :: r → s.ns ≤ a.ns + 1000 * s.g F.INS_CTL_FSWIN →
      ∃ (t : State) (f : CamFrame), exec (.csiFrameStart p h num) s = .next (s.after t) ∧ t.ins.frames = [f] ∧ f.ctx = n ∧ f.num = num.toNat ∧ f.anchor = some a ∧ f.ended = false ∧ f.rows = []) ∧
    (on → good → s.camCtx p h.vc.toNat = none → exec (.csiFrameStart p h num) s = .next (s.after s.begun) ∧ exec (.csiFrameEnd p h) s = .next (s.after s.begun)) ∧
    (on → good → ∀ n, s.camCtx p h.vc.toNat = some n → exec (.csiFrameEnd p h) s = .next (s.after ((s.begun.endOpen n false).modIns fun x => { x with dropping := putBit x.dropping n false })) ∧
      ∀ f, s.openFrame n = some f → s.g (F.INS_CTX_SIZE_HEIGHT n) ≤ f.rows.length → (s.endOpen n false).openFrame n = none) ∧
    (on → good → 3 < dt.toNat → exec (.csiShortPacket p h dt) s = .next (s.after (s.begun.inc F.INS_CNT_OTHERDT_COUNT))) ∧
    (on → good → dt.toNat = 2 ∨ dt.toNat = 3 → exec (.csiShortPacket p h dt) s = .next (s.after s.begun)) ∧
    (on → good → dt ≠ 0x2B → dt ≠ 0x2C → exec (.csiLongPacket p h dt b true) s = .next (s.after (s.begun.inc F.INS_CNT_OTHERDT_COUNT))) ∧
    (on → good → ∀ n, s.camCtx p h.vc.toNat = some n → s.gb (F.INS_CTX_CFG_RAW12 n) = true → exec (.csiLongPacket p h 0x2C b true) s = .next (s.after (s.begun.rowIn p n 0x2C b true false))) ∧
    (∃ t, exec (.dphyStateChange p hs ulps false) s = .next (s.after t) ∧ (t.camPort p).hs = hs ∧ (t.camPort p).ulps = ulps ∧ t.ins.frames = s.ins.frames)

/-- R227, R228, R242, R245 and R246. -/
def Obligations.CameraPipeline : Prop :=
  ∀ (s : State) (src : Src) (p : Fin 4) (ports : BitVec 4),
    (∀ f r, s.ins.proc = none → s.ins.frames = f :: r → s.gb F.INS_CTL_EN = true → ∃ t, exec .pipelineFrameTake s = .next (s.after t) ∧
      t.ins.proc = some { f with params := s.camParams f.ctx } ∧ t.ins.frames = r ∧ t.g F.INS_STS_BUSY = 1 ∧ t.win = s.win) ∧
    (s.ins.proc.isSome = true ∨ s.ins.frames = [] ∨ s.gb F.INS_CTL_EN = false → exec .pipelineFrameTake s = .next (s.after s.begun)) ∧
    (∀ f, s.ins.proc = some f → f.ended = true → f.anchor = none → exec .pipelineFrameDone s = .next (s.after
      ({ s.begun with ins := { s.ins with proc := none } }.frameFlags f f.injReg true).insStatus)) ∧
    (∀ f, s.ins.proc = some f → f.ended = true → ∃ t, exec .pipelineFrameDone s = .next (s.after t) ∧ t.ins.proc = none ∧ t.ins.frames = s.ins.frames ∧ t.nzh = s.nzh) ∧
    (∀ f, s.ins.proc = some f → f.ended = false → exec .pipelineFrameDone s = .next (s.after s.begun)) ∧
    (s.answers →
      (s.dev = .standby → ∃ t, exec (.insClrstat src) s = .next (s.after t) ∧ (∀ a, 0x800000 ≤ a → a < 0xB00000 → t.winWord a = 0) ∧
        (∀ a, a < 0x800000 ∨ 0xB00000 ≤ a → t.winWord a = s.winWord a) ∧ t.regs = s.regs) ∧
      (s.dev ≠ .standby → exec (.insClrstat src) s = .next (s.after (s.begun.recReg E.INS_CMD 0x110008 src)) ∧
        (ports ≠ 0 → exec (.insRestore src ports) s = .next (s.after (s.begun.recReg E.INS_CMD 0x110008 src)))) ∧
      (s.dev = .standby → ∃ t, exec (.insRestore src ports) s = .next (s.after t) ∧ ∀ q : Fin 4, (bitOf ports.toNat q = true → t.gb (F.INS_PORTSTS_RETIRED q) = false ∧
        bitOf (t.g F.INS_STS_RETIRED) q = false ∧ (t.camPort q).faults = []) ∧ (bitOf ports.toNat q = false → t.gb (F.INS_PORTSTS_RETIRED q) = s.gb (F.INS_PORTSTS_RETIRED q) ∧
        (t.camPort q).faults = (s.camPort q).faults)) ∧
      (∀ c b, (c, b) ∈ [(Instr.insInjHdrecc src p, 0), (Instr.insInjPcrc src p, 1), (Instr.insInjOvf src p, 2), (Instr.insInjRegfail src p, 3)] →
        ∃ t, exec c s = .next (s.after t) ∧ bitOf (t.camPort p).inj b = true ∧ (∀ o, o ≠ b → bitOf (t.camPort p).inj o = bitOf (s.camPort p).inj o) ∧ t.g F.INS_INJ_PORT = p))

/-- R249, R254 to R256; R261 to R263 and R265. -/
def Obligations.Uniformity : Prop :=
  (∀ (s : State) (m : Fin 32) (src : Src),
     (∀ k, spGet none s.cal.since m = some k → s.dev = .run → s.gb (F.CAL_MODSTS_QUIET m) = false → k + s.settle ≤ s.gth.k → ∃ t, exec (.quietOnset m) s = .next (s.after t) ∧
       t.gb (F.CAL_MODSTS_QUIET m) = true ∧ ∀ i : Fin 131072, ∀ w < 6, t.winWord (statAddr i w) = if i.val / 4096 = m.val then 0 else s.winWord (statAddr i w)) ∧
     (∀ k, spGet none s.cal.since m = some k → s.gth.k < k + s.settle → exec (.quietOnset m) s = .next (s.after s.begun)) ∧
     (spGet none s.cal.since m = none ∨ s.dev ≠ .run ∨ s.gb (F.CAL_MODSTS_QUIET m) = true → exec (.quietOnset m) s = .next (s.after s.begun)) ∧
     (s.publishes = true → (s.member = true → s.camOn = true) → s.running = true → s.g F.CAL_PUBCFG_INTLG ≠ 0 → spGet 0 s.cal.lastPub m + 2 ^ s.g F.CAL_PUBCFG_INTLG ≤ s.cal.lines →
       exec (.publicationInterval m) s = .next (s.after (s.begun.p (F.CAL_MODSTS_PEND m) 1))) ∧
     (s.g F.CAL_PUBCFG_INTLG = 0 ∨ s.running = false ∨ s.cal.lines < spGet 0 s.cal.lastPub m + 2 ^ s.g F.CAL_PUBCFG_INTLG → exec (.publicationInterval m) s = .next (s.after s.begun)) ∧
     (s.answers → s.dev = .run → s.publishes = true → (s.member = true → s.camOn = true) → exec (.calPublishCmd src m false) s = .next (s.after (s.begun.p (F.CAL_MODSTS_PEND m) 1))) ∧
     (s.answers → s.dev ≠ .run → ∀ all, exec (.calPublishCmd src m all) s = .next (s.after (s.begun.recReg E.CAL_CMD 0x120008 src))) ∧
     (s.cal.job = none ∨ (∃ j, s.cal.job = some j ∧ j.m ≠ m.val) ∨ s.standby = true → exec (.publicationDone m) s = .next (s.after s.begun)) ∧
     (∀ mean, s.cal.job = some ⟨m, mean, []⟩ → s.standby = false → mean < 4096 → ∃ t, exec (.publicationDone m) s = .next (s.after t) ∧ t.cal.job = none ∧ t.win = s.win ∧
       (s.gb F.NZH_RPTCFG_AUTODUMP = false → t.nzh = s.nzh) ∧ (s.gb F.NZH_RPTCFG_AUTODUMP = true → s.gb F.NZH_STS_DUMPBUSY = true → t.nzh = { s.nzh with autoNext := true }) ∧
       t.g (F.CAL_TREF_TEMP m) = mean ∧ t.gb F.CAL_STS_BUSY = false ∧ spGet 0 t.cal.lastPub m = s.cal.lines)) ∧
  (∀ (s : State) (src : Src) (c : Fin 8) (i : Fin 131072) (m : Fin 32) (q : BitVec 12),
     (s.answers → s.dev ≠ .run → exec (.calFfCmd src c) s = .next (s.after (s.begun.recReg E.CAL_CMD 0x120008 src))) ∧
     (s.answers → s.dev = .run → s.standby = false → c.val ∉ s.cal.ff → exec (.calFfCmd src c) s = .next (s.after ({ s.begun with cal := { s.cal with ff := s.cal.ff ++ [c.val] } }.p F.CAL_STS_FFBUSY 1))) ∧
     (s.dev ≠ .fault → s.standby = false → s.gb F.CAL_CTL_FFAUTO = true → s.g F.CAL_FFCFG_FFPER ≠ 0 → c.val ∉ s.cal.ff →
       exec (.flatfieldPeriodic c) s = .next (s.after ({ s.begun with cal := { s.cal with ff := s.cal.ff ++ [c.val] } }.p F.CAL_STS_FFBUSY 1))) ∧
     (s.dev = .fault ∨ s.gb F.CAL_CTL_FFAUTO = false ∨ s.g F.CAL_FFCFG_FFPER = 0 → exec (.flatfieldPeriodic c) s = .next (s.after s.begun)) ∧
     (c.val ∉ s.cal.ff → exec (.flatfieldPublicationDone c) s = .next (s.after s.begun)) ∧
     (s.cal.ff = [c.val] → s.standby = true ∨ s.wroteNow (F.INS_CTX_CFG_FFBANK c).addr = true → exec (.flatfieldPublicationDone c) s =
       .next (s.after ({ s.begun with cal := { s.cal with ff := [] } }.p F.CAL_STS_FFBUSY 0))) ∧
     (s.cal.ff = [c.val] → s.standby = false → s.wroteNow (F.INS_CTX_CFG_FFBANK c).addr = false → ∃ t, exec (.flatfieldPublicationDone c) s = .next (s.after t) ∧ t.cal.ff = [] ∧ t.g (F.INS_CTX_CFG_FFBANK c) = 1 - s.g (F.INS_CTX_CFG_FFBANK c) ∧ t.gb F.CAL_STS_FFBUSY = false) ∧
     (s.gb F.CAL_CTL_STRKEN = false ∨ s.publishes = false → exec (.streakVisit i) s = .next (s.after s.begun)) ∧
     (s.gb F.CAL_CTL_STRKEN = true → s.publishes = true → s.cal.inj = false → nzUsable (s.nz (i.val / 4096) (i.val % 4096)) = false → exec (.streakVisit i) s = .next (s.after s.begun)) ∧
     (s.gb F.CAL_CTL_STRKEN = true → s.publishes = true → s.cal.inj = false → nzUsable (s.nz (i.val / 4096) (i.val % 4096)) = true → s.gb (F.CAL_MODSTS_QUIET (i.val / 4096)) = true →
       2 ^ s.g F.CAL_STRKCFG_DEADNLG ≤ (statOf (s.stat i)).scaled.n → s.streakDead (statOf (s.stat i)) = true → exec (.streakVisit i) s = .next (s.after
         (((s.begun.stage { m := i.val / 4096, q := i.val % 4096, e := none, src := 3, mask := stateMask, val := 4 * 2 ^ 29, cond := 2, from' := 0 }).setStat i 0).inc F.CAL_CNT_DEAD_COUNT))) ∧
     (s.answers → ∃ t, exec (.calInjArm src m q) s = .next (s.after t) ∧ t.cal = { s.cal with inj := true } ∧ t.g F.CAL_INJ_MOD = m ∧ t.g F.CAL_INJ_Q = q.toNat ∧ ∀ b, b ≠ 0x12001C → t.reg b = s.reg b))

/-- R267 to R273 and R282, by frame, whose credits go back as the endpoint takes it; the layouts of these frames' bytes are the model's own where the spec gives
none (log 30). A frame that its port or the state QUARANTINE refuses is filtered; each of the six else completes with its own effect at a member whose peer was not isolated. -/
def Obligations.FolioFrames : Prop :=
  ∀ (s : State) (p : Fin 5) (f : Frame),
    (s.refuses p f = true → ∀ c ∈ [Instr.folLineReceive p f, Instr.folFwdReceive p f, Instr.folStartReceive p f, Instr.folStateReceive p f, Instr.folDigestReceive p f, Instr.folJoinReceive p f],
      exec c s = .next (s.after (s.begun.filtered p f))) ∧
    (s.refuses p f = false →
    let h := (s.begun.consume p f).p F.FOL_STS_PEERUP 1
    let v := leAt f.payload 8 4
    let k := leAt f.payload 4 4
    (s.member = false → ∀ c ∈ [Instr.folLineReceive p f, Instr.folFwdReceive p f, Instr.folStartReceive p f, Instr.folStateReceive p f, Instr.folDigestReceive p f, Instr.folJoinReceive p f],
      exec c s = .next (s.after (s.begun.consume p f))) ∧
    (s.primary = true → s.gb F.FOL_STS_ISOLATED = true → exec (.folFwdReceive p f) s = .next (s.after (h.p F.FOL_STS_ISOLATED 0))) ∧
    (s.member = true → s.gb F.FOL_STS_ISOLATED = false →
      (s.fol.rejoin = false → (∀ o ∈ s.fol.own, o.k % 65536 ≠ (digOf f.payload).k) →
        exec (.folLineReceive p f) s = .next (s.after (h.modFol fun x => { x with peer := digOf f.payload :: x.peer.take 63 }))) ∧
      (s.fol.rejoin = false → ∀ o r, s.fol.own = o :: r → o.k % 65536 = (digOf f.payload).k → exec (.folLineReceive p f) s = .next (s.after (h.folCompare o.k o (digOf f.payload)))) ∧
      (s.fol.rejoin = true → s.standby = true → s.fol.own = [] → ∃ t, exec (.folLineReceive p f) s = .next (s.after t) ∧ t.fol.rejoin = false ∧
        t.fol.joinSig = some (((digOf f.payload).sig + 2) % 2 ^ 32) ∧ t.fol.peer = digOf f.payload :: s.fol.peer.take 63) ∧
      (s.primary = true → exec (.folFwdReceive p f) s = .next (s.after h)) ∧
      (s.standby = true → exec (.folFwdReceive p f) s = .next (s.after (State.fwdAll 16 f.payload h))) ∧
      (s.primary = true → ∃ t, exec (.folStartReceive p f) s = .next (s.after t) ∧ t.fol.lastStart = some (leAt f.payload 0 4, sext 64 (leAt f.payload 4 8), bitOf (byteAt f.payload 12) 0) ∧ t.pos = s.pos) ∧
      (s.standby = true → s.running = true → bitOf (byteAt f.payload 12) 0 = false → let ps := sext 64 (leAt f.payload 4 8)
        s.pos.x * 65536 < (ps + s.g F.POS_SIGCFG_DLY) * 65536 - (s.g F.GTH_CFG_LEAD * s.g F.POS_PITCH_COUNTS : Nat) → exec (.folStartReceive p f) s = .next (s.after
          ((h.modFol fun x => { x with lastStart := some (leAt f.payload 0 4, ps, false) }).startGrid (leAt f.payload 0 4) ps (ps + s.g F.POS_SIGCFG_DLY) false))) ∧
      (s.primary = true → byteAt f.payload 0 ≠ 8 → byteAt f.payload 0 ≠ 10 → bitOf (byteAt f.payload 3) 3 = false → byteAt f.payload 4 = 0 → ∃ t, exec (.folStateReceive p f) s = .next (s.after t) ∧
        t.fol.peerDev = byteAt f.payload 0 ∧ t.fol.peerStandby = bitOf (byteAt f.payload 1) 0 ∧ t.fol.peerSusp = bitOf (byteAt f.payload 2) 0 ∧ t.fol.peerLanes = leAt f.payload 16 4 ∧ t.dev = s.dev) ∧
      (s.standby = true → s.running = true → byteAt f.payload 0 ≠ 8 → byteAt f.payload 0 ≠ 10 → bitOf (byteAt f.payload 3) 0 = true → bitOf (byteAt f.payload 3) 2 = false →
        ∃ t, exec (.folStateReceive p f) s = .next (s.after t) ∧ t.fol.kh = some (v, bitOf (byteAt f.payload 3) 1) ∧ t.fol.khStop = bitOf (byteAt f.payload 3) 4 ∧ t.regs = h.regs) ∧
      (byteAt f.payload 0 = 1 → s.dev ≠ .standby → exec (.folDigestReceive p f) s = .next (s.after h)) ∧
      (byteAt f.payload 0 = 1 → s.dev = .standby → s.primary = true → s.fol.runReq = true → ∀ d, s.fol.digs = [d] → d.1 = 1 → exec (.folDigestReceive p f) s = .next (s.after
        (((h.p F.FOL_PEERDIG_CRC v).modFol fun x => { x with digs := [] }).shakeDone d.2.2 v))) ∧
      (byteAt f.payload 0 = 3 → s.fol.digs = [] → exec (.folDigestReceive p f) s = .next (s.after (h.modFol fun x => { x with peerDigs := (3, k, v) :: x.peerDigs.take 63 }))) ∧
      (byteAt f.payload 0 = 2 → s.fol.digs = [] → exec (.folDigestReceive p f) s = .next (s.after
        ((h.p F.FOL_PEERDIG_CRC v).modFol fun x => { x with peerDigs := (2, k, v) :: x.peerDigs.take 63 }))) ∧
      (byteAt f.payload 0 = 3 → ∀ d c, s.fol.digs = [d] → d.1 = 3 → d.2.1 = k → d.2.2 = v → s.fol.chk = some c → c.agreed < 32 → exec (.folDigestReceive p f) s = .next (s.after
        (h.modFol fun x => { x with digs := [], chk := some { c with agreed := c.agreed + 1 } }))) ∧
      (byteAt f.payload 0 = 3 → ∀ d c, s.fol.digs = [d] → d.1 = 3 → d.2.1 = k → d.2.2 ≠ v → s.fol.chk = some c → exec (.folDigestReceive p f) s = .next (s.after
        (h.modFol fun x => { x with digs := [] }).selfFail)) ∧
      (s.primary = true → s.running = true → byteAt f.payload 0 = 1 → sigDiff (leAt f.payload 1 4) s.pos.nextSig ≥ 0 →
        let maps := (List.range 32).flatMap fun m => (s.stagedOf m).map fun w => fwdBytes (w.e.getD 0) 1 w.src (nzAddr w.m w.q) w.mask w.val
        let regs := s.fol.regs.map fun w => fwdBytes w.e (if w.addr < 0x400000 then 2 else 3) 1 w.addr w.mask w.val
        exec (.folJoinReceive p f) s = .next (s.after ((State.folFwd 4096 (maps ++ regs) h.chkStop).modFol fun x => { x with grant := some (leAt f.payload 1 4, s.gth.k, 0) }))) ∧
      (s.standby = true ∨ s.running = false → byteAt f.payload 0 = 1 → exec (.folJoinReceive p f) s = .next (s.after h)) ∧
      (s.fol.joinSig = none ∨ s.primary = true → byteAt f.payload 0 = 2 → exec (.folJoinReceive p f) s = .next (s.after h)) ∧
      (s.running = true → byteAt f.payload 0 = 3 → exec (.folJoinReceive p f) s = .next (s.after (h.moveLanes (leAt f.payload 1 4) (leAt f.payload 5 4) (bitOf (byteAt f.payload 9) 0))))))

/-- R275 to R277, R279, R280 and R283; R276, R281, R284 and R287 as commands. -/
def Obligations.PeerAndCommands : Prop :=
  (∀ s : State,
     (s.member = false → exec .folPeerTimeout s = .next (s.after s.begun) ∧ exec .folLineTimeout s = .next (s.after s.begun)) ∧
     (let u := (s.begun.p F.FOL_STS_PEERUP 0).chkStop
      (s.member = true → s.running = false → s.dev ≠ .standby → exec .folPeerTimeout s = .next (s.after u)) ∧
      (s.running = true ∨ s.dev = .standby →
       (s.standby = true → s.ownsAll = false → exec .folPeerTimeout s = .next (s.after (u.p F.FOL_STS_ISOLATED 1))) ∧
       (s.standby = true → s.ownsAll = true → exec .folPeerTimeout s = .next (s.after (u.p F.FOL_STS_ISOLATED 0).promote)) ∧
       (s.primary = true → (∃ m ∈ s.mods, s.owns m = true) ∨ s.mods = [] → exec .folPeerTimeout s = .next (s.after (u.p F.FOL_STS_ISOLATED 1))) ∧
       (s.primary = true → s.mods ≠ [] → (∀ m ∈ s.mods, s.owns m = false) → exec .folPeerTimeout s =
         .next (s.after ((u.p F.FOL_STS_ISOLATED 1).p F.FOL_STS_ACTROLE 1))))) ∧
     (∀ t, s.member = true → s.fol.missNs = some t → s.ns - t ≤ s.g F.FOL_CFG_PTMO * 1000 → exec .folLineTimeout s = .next (s.after (s.begun.inc F.FOL_CNT_PEERMISS_COUNT))) ∧
     (∀ t, s.member = true → s.fol.missNs = some t → s.g F.FOL_CFG_PTMO * 1000 < s.ns - t → s.err.opened = [] → ∃ ctx, exec .folLineTimeout s = .next (s.after
       (((s.begun.inc F.FOL_CNT_PEERMISS_COUNT).record { c := E.FOL_PEERLOST, ctxType := 1, ctx, stays := true, byGap := false, handles := true }).raise SEv.FOLIO_PEERLOST 0))) ∧
     (s.member = true → s.fol.missNs = none → exec .folLineTimeout s = .next (s.after ((s.begun.inc F.FOL_CNT_PEERMISS_COUNT).modFol fun x => { x with missNs := some s.ns }))) ∧
     (s.fol.chk = none ∨ s.standby = false → exec .selfcheckScrubDone s = .next (s.after s.begun)) ∧
     (∀ c, s.fol.chk = some c → s.standby = true → s.sram.poisoned = [] → s.sram.flips = [] → c.agreed < 33 → exec .selfcheckScrubDone s = .next (s.after (s.begun.modFol fun x => { x with chk := some { c with scrubbed := true } }))) ∧
     (∀ c, s.fol.chk = some c → s.standby = true → s.sram.poisoned = [] → s.sram.flips = [] → 33 ≤ c.agreed → exec .selfcheckScrubDone s = .next (s.after
       ((s.begun.modFol fun x => { x with chk := none, askChk := false, rejoin := true }).p F.FOL_STS_SELFCHK 0))) ∧
     (∀ c, s.fol.chk = some c → s.standby = true → s.sram.poisoned ≠ [] → s.sram.flips = [] → exec .selfcheckScrubDone s = .next (s.after s.begun.selfFail)) ∧
     (s.gb F.FOL_STS_SUSPECT = true → s.fol.chk = none → s.fol.askChk = false → 2 ^ s.g F.FOL_CFG_CLEARN ≤ s.fol.clean →
       exec .suspectClear s = .next (s.after ((s.begun.p F.FOL_STS_SUSPECT 0).folState 0))) ∧
     (s.gb F.FOL_STS_SUSPECT = false ∨ s.fol.chk.isSome = true ∨ s.fol.askChk = true ∨ s.fol.clean < 2 ^ s.g F.FOL_CFG_CLEARN → exec .suspectClear s = .next (s.after s.begun)) ∧
     (s.gb F.FOL_STS_JOINING = true → s.fol.joinEnd ≤ s.gth.k → exec .joinSpanEnd s = .next (s.after ((s.begun.p F.FOL_STS_JOINING 0).inc F.FOL_CNT_JOIN_COUNT))) ∧
     (s.gb F.FOL_STS_JOINING = false ∨ s.gth.k < s.fol.joinEnd → exec .joinSpanEnd s = .next (s.after s.begun)) ∧
     ((s.member = false ∨ (s.port 3).stage ≠ .active) → exec .folStateSend s = .next (s.after s.begun)) ∧
     (s.member = true → (s.port 3).stage = .active → ∃ b, let f := s.mkFrame (s.g F.FOL_PEER_NODE) 1 FT.FOL_STATE b
       ((s.port 3).mgmtOnly = false → s.gb (F.SPN_PCTL_MGMT 3) = false → exec .folStateSend s = .next (s.after (s.begun.queueOn 3 f))) ∧
       ((s.port 3).mgmtOnly = true ∨ s.gb (F.SPN_PCTL_MGMT 3) = true → exec .folStateSend s = .next (s.after (s.begun.dropped 4 f F.SPN_CNT_FILTER_COUNT E.SPN_FILTER))) ∧
       byteAt b 0 = devCode s.dev ∧ byteAt b 1 = s.g F.FOL_STS_ACTROLE ∧ byteAt b 2 = s.g F.FOL_STS_SUSPECT ∧ b.drop 16 = leBytes 4 s.lanesMap)) ∧
  (∀ (s : State) (src : Src) (m : Fin 32), s.answers →
     (s.member = true → s.dev = .run → exec (.folSelfchkCmd src) s = .next (s.after s.begun.startChk)) ∧
     (s.member = false ∨ s.dev ≠ .run → exec (.folSelfchkCmd src) s = .next (s.after (s.begun.recReg E.FOL_CMD 0x130008 src))) ∧
     (s.member = true → s.dev = .standby → s.mayJoin = true → exec (.folJoinCmd src) s = .next (s.after (s.begun.joinAsk (s.g F.FOL_JOINSIG_NUM)))) ∧
     (s.member = false ∨ s.dev ≠ .standby ∨ s.mayJoin = false → exec (.folJoinCmd src) s = .next (s.after (s.begun.recReg E.FOL_CMD 0x130008 src))) ∧
     (s.primary = true → s.dev = .run → exec (.folSwapCmd src) s = .next (s.after { s.begun with fol := { s.fol with revert := some (none, sumL (s.mods.map fun m => 2 ^ m), true) } })) ∧
     (s.primary = false ∨ s.dev ≠ .run → exec (.folSwapCmd src) s = .next (s.after (s.begun.recReg E.FOL_CMD 0x130008 src))) ∧
     (exec (.folInjCfgdig src) s = .next (s.after { s.begun with fol := { s.fol with injCfg := true } })) ∧
     (exec (.folInjDrop src) s = .next (s.after { s.begun with fol := { s.fol with injDrop := true } })) ∧
     (∃ t, exec (.folInjDigest src m) s = .next (s.after t) ∧ t.fol = { s.fol with injDig := true } ∧ t.g F.FOL_INJ_MOD = m ∧ ∀ b, b ≠ 0x130024 → t.reg b = s.reg b))

/-- R29, R292, R295, R300, R304, R306, R309 and R311, one codeword at a time, no request held, no refresh in front and no injection armed. -/
def Obligations.DramRequests : Prop :=
  ∀ (s : State) (master : Fin 10) (a : BitVec 40) (b : Bytes) (len : Fin 65) (node : BitVec 16) (sc : Fin 4),
    let i := cfgScOf s.mem.cfg a.toNat
    (s.memOk a.toNat = false → s.memRetired a.toNat = false → 0 < len.val → a.toNat % 64 + len.val ≤ 64 →
      exec (.dramRequest master a false b len node) s = .next (s.after (s.begun.emit (.dram master a.toNat none)))) ∧
    (s.memRetired a.toNat = true → 0 < len.val → a.toNat % 64 + len.val ≤ 64 →
      exec (.dramRequest master a false b len node) s = .next (s.after ((s.begun.inc F.MEM_CNT_RETRD_COUNT).emit (.dram master a.toNat none)))) ∧
    (s.memOk a.toNat = true → a.toNat % 64 = 0 → b.length = 64 → (s.sc i).wq.length = 64 → ∃ (t : State) (r : MReq), exec (.dramRequest master a true b len node) s = .next (s.after t) ∧
      t.mem = { s.mem with held := s.mem.held ++ [r] } ∧ r.a = a.toNat ∧ r.data = b ∧ r.master = master ∧ t.dram = s.dram ∧ t.out = []) ∧
    (s.memOk a.toNat = true → a.toNat % 64 = 0 → b.length = 64 → (s.sc i).wq = [] → (s.sc i).tracker = [] → s.mem.held = [] →
      ∃ (t : State) (r : MReq), exec (.dramRequest master a true b len node) s = .next (s.after t) ∧ (t.sc i).wq = [r] ∧ (t.sc i).rq = (s.sc i).rq ∧ r.a = a.toNat ∧ r.data = b ∧ r.mask.all id = true ∧
        r.master = master ∧ r.cls = s.clsOf master a.toNat true ∧ t.dram = s.dram ∧ t.out = []) ∧
    (s.memOk a.toNat = true → 0 < len.val → a.toNat % 64 + len.val ≤ 64 → (s.sc i).rq.length < 64 → ∀ w, (s.sc i).wq = [w] → w.a / 64 = a.toNat / 64 → s.mem.ordMode = 1 → w.mask.all id = true →
      w.rmw = false → w.poison = false → s.mem.held = [] → s.gb F.MEM_TEST_BYPASS = false → exec (.dramRequest master a false b len node) s = .next (s.after ((s.begun.inc F.MEM_CNT_FWD_COUNT).emit
        (.dram master a.toNat (some (slice w.data (a.toNat % 64) len)))))) ∧
    (s.memOk a.toNat = true → 0 < len.val → a.toNat % 64 + len.val ≤ 64 → (s.sc i).rq.length < 64 → (s.sc i).wq = [] → s.mem.held = [] →
      ∃ (t : State) (r : MReq), exec (.dramRequest master a false b len node) s = .next (s.after t) ∧ (t.sc i).rq = (s.sc i).rq ++ [r] ∧ r.a = a.toNat ∧ r.len = len ∧ r.master = master ∧
        r.cls = s.clsOf master a.toNat false ∧ t.dram = s.dram ∧ t.out = []) ∧
    ((s.sc sc).wq = [] → ∃ t, exec (.dramWriteIssue sc) s = .next (s.after t) ∧ t.dram = s.dram ∧ t.out = []) ∧
    ((s.sc sc).rq = [] → ∃ t, exec (.dramReadDone sc [] []) s = .next (s.after t) ∧ t.dram = s.dram ∧ t.out = []) ∧
    (∀ w, (s.sc sc).wq = [w] → (s.sc sc).rq = [] → cfgScOf s.mem.cfg w.a = sc.val → w.mask.all id = true → w.wb = false → w.rmw = false → w.poison = false → w.a % 64 = 0 → w.data.length = 64 →
      w.quiet = false → w.more = [] → s.mem.held = [] → s.refFirst sc w = false →
      (s.sc sc).injArm = none → (s.sc sc).injCrc = false → s.gb F.MEM_TEST_BYPASS = false → ∃ t, exec (.dramWriteIssue sc) s = .next (s.after t) ∧ (t.sc sc).wq = [] ∧
        t.rawCw (w.a / 64) = w.data ++ (rsCheck (w.a / 64) w.data [0, 0, 0, 0]).map (BitVec.ofNat 8) ∧ (∀ c, c ≠ w.a / 64 → t.rawCw c = s.rawCw c) ∧ t.out = [.dram w.master w.a (some [])]) ∧
    (∀ r, (s.sc sc).rq = [r] → (s.sc sc).wq = [] → r.rmw = false → r.quiet = false → s.mem.held = [] → s.refFirst sc r = false → s.gb F.MEM_TEST_BYPASS = false → rsDecode (r.a / 64) (s.rawCw (r.a / 64)) = .clean →
      ∃ t, exec (.dramReadDone sc [] []) s = .next (s.after t) ∧ (t.sc sc).rq = [] ∧ t.dram = s.dram ∧ t.regs = s.regs ∧
        t.out = [.dram r.master r.a (some (slice ((s.rawCw (r.a / 64)).take 64) (r.a % 64) r.len))])

/-- R299 to R302, R317 and R318, with no injection pending; R317 and R320 to R322. -/
def Obligations.RefreshAndCommands : Prop :=
  (∀ (s : State) (sc : Fin 4) (rank : Fin 2) (moved : BitVec 16) (readErr : Bool), s.err.inj = none → (s.sc sc).owed.length = 2 → (s.sc sc).rate.length = 2 →
     let max := Nat.min 4 (Nat.max 1 (s.g F.MEM_RFCFG_POSTMAX))
     (s.scLive sc = true → s.hasRank rank = true → s.owed sc rank + 1 < max → ∃ t : State, exec (.refreshTick sc rank) s = .next (s.after t) ∧ t.owed sc rank = s.owed sc rank + 1 ∧ t.regs = s.regs ∧
       ∀ k : Fin 2, k ≠ rank → t.owed sc k = s.owed sc k) ∧
     (s.scLive sc = true → s.hasRank rank = true → max ≤ s.owed sc rank + 1 → ∃ t : State, exec (.refreshTick sc rank) s = .next (s.after (t.inc F.MEM_CNT_REFFORCE_COUNT)) ∧ t.owed sc rank = 0 ∧ t.regs = s.regs) ∧
     (s.scLive sc = false ∨ s.hasRank rank = false → exec (.refreshTick sc rank) s = .next (s.after s.begun) ∧ ∀ r, exec (.mr4Poll sc rank r) s = .next (s.after s.begun)) ∧
     (s.scLive sc = true → 0 < s.owed sc rank → s.urgent sc (some rank) = false → ∃ t : State, exec (.refreshIssue sc rank) s = .next (s.after t) ∧ t.owed sc rank = s.owed sc rank - 1 ∧
       (∀ x ∈ (t.sc sc).openRow, x.1 / 64 ≠ rank.val) ∧ t.regs = s.regs) ∧
     (s.urgent sc (some rank) = true ∨ s.owed sc rank = 0 → exec (.refreshIssue sc rank) s = .next (s.after s.begun)) ∧
     (s.scLive sc = true → s.hasRank rank = true → (s.sc sc).rate.getD rank 1 = 1 → 2 * s.owed sc rank < max → ∃ t, exec (.mr4Poll sc rank 1) s = .next (s.after t) ∧
       (t.sc sc).rate.getD rank 1 = 2 ∧ t.owed sc rank = 2 * s.owed sc rank) ∧
     (s.scLive sc = true → s.hasRank rank = true → (s.sc sc).rate.getD rank 1 = 2 → s.gb F.MEM_RFCFG_FORCE2X = false → (s.sc sc).lower.getD rank false = false → (s.sc sc).lower.length = 2 →
       ∃ t, exec (.mr4Poll sc rank 0) s = .next (s.after t) ∧ (t.sc sc).rate.getD rank 1 = 2 ∧ (t.sc sc).lower.getD rank false = true ∧ t.owed sc rank = s.owed sc rank) ∧
     (s.gb F.MEM_CTL_PTEN = false ∨ (s.sc sc).st ≠ .active → exec (.periodicRetrainStep sc moved readErr) s = .next (s.after s.begun)) ∧
     (s.gb F.MEM_CTL_PTEN = true → (s.sc sc).st = .active → s.urgent sc none = false → s.owed sc 0 < 2 → s.owed sc 1 < 2 → (s.sc sc).ptWrite = true → moved.toNat ≤ s.g F.MEM_PTCFG_DRIFT →
       exec (.periodicRetrainStep sc moved readErr) s = .next (s.after ((s.begun.modSc sc fun q => { q with ptWrite := false, ptDue := none }).inc F.MEM_CNT_PAUSE_COUNT))) ∧
     (s.gb F.MEM_CTL_PTEN = true → (s.sc sc).st = .active → s.retrainWaits sc = true → exec (.periodicRetrainStep sc moved readErr) s = .next (s.after
       (s.begun.modSc sc fun q => { q with ptDue := some (q.ptDue.getD s.ns) }))) ∧
     (s.gb F.MEM_CTL_PATROL = false → (s.sc sc).passing = false → (∀ r ∈ (s.sc sc).rq, r.master ≠ 7) → exec (.patrolRead sc [] []) s = .next (s.after (s.begun.drainUpdate sc))) ∧
     (s.gb F.MEM_CTL_PATROL = true → (s.sc sc).st = .active → s.gb F.MEM_TEST_BYPASS = false → s.scCws ≠ 0 → (s.sc sc).rq = [] → (s.sc sc).wq = [] → s.mem.held = [] → (∀ k, s.owed sc k = 0) →
       rsDecode (s.scAddr sc (s.sc sc).patrol / 64) (s.rawCw (s.scAddr sc (s.sc sc).patrol / 64)) = .clean →
       let n := ((s.sc sc).patrol + 1) % s.scCws
       ∃ t, exec (.patrolRead sc [] []) s = .next (s.after t) ∧ (t.sc sc).patrol = n ∧ (t.sc sc).patrolAt = (if n = 0 then s.ns else (s.sc sc).patrolAt) ∧
         ((t.sc sc).passing = true ↔ (s.sc sc).passing = true ∧ n ≠ 0) ∧ (t.sc sc).rq = [] ∧ (t.sc sc).wq = [] ∧ t.dram = s.dram ∧ t.regs = s.regs ∧ t.out = []) ∧
     exec (.writeCrcAlert sc) s = .next (s.after ((s.begun.inc F.MEM_CNT_WCRC_COUNT).scRetry sc))) ∧
  (∀ (s : State) (src : Src) (scs : BitVec 4) (sc : Fin 4) (on dev : Bool) (val : Byte) (s2 s1 : BitVec 7), s.answers →
     (s.dev ≠ .standby → scs ≠ 0 → exec (.memRestore src scs) s = .next (s.after (s.begun.recReg E.MEM_CMD 0x140024 src))) ∧
     (s.dev = .standby → cfgLegal (s.reg 0x140004) = true → ∃ t, exec (.memRestore src scs) s = .next (s.after t) ∧ ∀ i < cfgSubs s.mem.cfg, ((t.sc i).st = if bitOf scs.toNat i then .init else (s.sc i).st) ∧
       (bitOf scs.toNat i = true → (t.sc i).rq = [] ∧ (t.sc i).wq = [] ∧ (t.sc i).tracker = [])) ∧
     (∃ t, exec (.memPass src) s = .next (s.after t) ∧ t.regs = s.regs ∧ ∀ i : Fin 4, (t.sc i) = if (s.sc i).st = .active then { s.sc i with passing := true, patrol := 0, patrolAt := s.ns } else s.sc i) ∧
     (s.dev ≠ .standby → exec (.memBypassWrite src on) s = .next (s.after (s.begun.recReg E.MEM_CMD 0x140028 src))) ∧
     (s.dev = .standby → ∃ t, exec (.memBypassWrite src on) s = .next (s.after t) ∧ t.gb F.MEM_TEST_BYPASS = on ∧ t.gb F.MEM_STS_BYPASSED = on ∧ t.dram = s.dram) ∧
     (∃ t, exec (.memInjArm src sc dev val s2 s1) s = .next (s.after t) ∧ t.sc sc = { s.sc sc with injArm := some (2 ^ 31 + 2 ^ 29 * b2n dev + 2 ^ 27 * sc.val + 2 ^ 16 * val.toNat + 2 ^ 8 * s2.toNat + s1.toNat) } ∧
       ∀ i : Fin 4, i ≠ sc → t.sc i = s.sc i) ∧
     (∃ t, exec (.memInjWcrc src sc) s = .next (s.after t) ∧ t.sc sc = { s.sc sc with injCrc := true } ∧ ∀ i : Fin 4, i ≠ sc → t.sc i = s.sc i))

/-- R327, R330, R332 and R354 on port p, with no injection pending and THR and RECMAX 0 where lanes and ports might retire. -/
def Obligations.SpineBringUp : Prop :=
  ∀ (s : State) (p l : Fin 4) (lanes : BitVec 4) (m : Cfg) (rx : AmRx) (far w la : Nat) (desk : Bool), s.err.inj = none →
    let q := s.port p
    let am := leBytes 8 rx.am.toNat
    let isAm : Prop := crc8 (am.take 7) = byteAt am 7 ∧ byteAt am 0 = 0x99
    let parity := rx.blocks.foldl (fun v x => Nat.xor v (bip8 (leBytes 8 x.toNat))) 0
    (q.stage = .detect → q.waitRetry = false → chooseWidth (lanesFree q lanes.toNat) (s.g (F.SPN_PCTL_WMAX p)) 7 = some (w, la) →
      exec (.spnDetectProbe p lanes) s = .next (s.after (s.begun.modPort p fun q => { q with stage := .train, lanesAct := la, found := lanes.toNat }))) ∧
    ((∀ i < 4, bitOf q.lanesAct i = true → bitOf q.laneRet i = false → bitOf lanes.toNat i = true) →
      (q.stage = .train → q.waitRetry = false →
        exec (.spnBitLock p lanes) s = .next (s.after (((s.begun.modPort p fun q => { q with stage := .align, locked := lanes.toNat }).sendCfg p false).laneErrOut p))) ∧
      (q.stage = .recover → q.phase = .train →
        exec (.spnBitLock p lanes) s = .next (s.after (((s.begun.modPort p fun q => { q with phase := .align, locked := lanes.toNat }).sendCfg p false).laneErrOut p)))) ∧
    (q.stage = .align → q.waitRetry = false → isAm → byteAt am 2 = parity → 3 ≤ far → far ≤ 6 →
      exec (.spnAmReceive p l rx true far) s = .next (s.after ((s.begun.modPort p fun q => { q with stage := .config }).sendCfg p false))) ∧
    (aligned q = true → ¬ isAm → exec (.spnAmReceive p l rx desk far) s = .next (s.after (s.begun.inc (F.SPN_CNT_HCRC_COUNT p)))) ∧
    (q.stage = .active → isAm → byteAt am 2 = parity → exec (.spnAmReceive p l rx desk far) s = .next (s.after s.begun)) ∧
    (q.stage = .active → s.g (F.SPN_RETCFG_THR p) = 0 → ∀ i, (i = Instr.spnAmReceive p l rx desk far ∧ isAm ∧ byteAt am 2 ≠ parity) ∨ (i = Instr.spnInvalidSyncHeader p l ∧ bitOf q.lanesAct l = true) →
      ∃ t, exec i s = .next (s.after t) ∧ t.g (F.SPN_CNT_BLKERR_COUNT p l) = satN (2 ^ 32 - 1) (s.g (F.SPN_CNT_BLKERR_COUNT p l) + 1) ∧ (t.port p).stage = .active ∧ t.out = []) ∧
    (q.stage = .config → q.waitRetry = false → q.txq = [] → q.inj.blkLoss = false → chooseWidth ((lanesUp q).filter (bitOf m.lanes)) (s.g (F.SPN_PCTL_WMAX p)) m.widths = some (w, la) → m.complete = true → (q.lastW = none ∨ q.lastW = some w) →
      s.nbrFits p (slice m.uid 0 16) = true → ∃ t, exec (.spnCfgReceive p (some m)) s = .next (s.after t) ∧ (∃ c, t.out = [.spineCfg p c] ∧ c.complete = true) ∧ (t.port p).stage = .active ∧ (t.port p).width = w ∧ (t.port p).lanesAct = la ∧
        (t.port p).granted = (List.range 4).map (fun v => m.credits.getD v 0 % 2 ^ 16) ∧ (t.port p).mgmtOnly = false ∧ (∀ o : Fin 4, o ≠ p → t.port o = s.port o) ∧ t.err = s.begun.err) ∧
    (aligned q = true → exec (.spnCfgReceive p none) s = .next (s.after (s.begun.inc (F.SPN_CNT_HCRC_COUNT p)))) ∧
    (q.stage = .train ∨ q.stage = .align ∨ q.stage = .config → q.waitRetry = false → q.fails + 1 ≠ 3 →
      exec (.spnStageTimeout p) s = .next (s.after (s.begun.modPort p fun q => { q with waitRetry := true, fails := q.fails + 1 }))) ∧
    (q.waitRetry = true → q.txq = [] → ∃ t, exec (.spnRetryDelayEnd p) s = .next (s.after t) ∧ (t.port p).stage = .detect ∧ (t.port p).waitRetry = false ∧ (t.port p).replay = [] ∧
      (t.port p).txSeq = 0 ∧ (t.port p).rxSeq = 0 ∧ t.regs = s.regs ∧ t.out = []) ∧
    (q.waitRetry = false → exec (.spnRetryDelayEnd p) s = .next (s.after s.begun)) ∧
    (∀ i ∈ [Instr.spnLockLoss p l, Instr.spnSyncErrorLimit p l],
      (q.stage ≠ .active ∨ bitOf q.lanesAct l = false → exec i s = .next (s.after s.begun)) ∧
      (q.stage = .active → bitOf q.lanesAct l = true → s.g (F.SPN_RETCFG_RECMAX p) = 0 → q.laneRet ≠ 15 → ∃ t, exec i s = .next (s.after t) ∧ (t.port p).stage = .recover ∧
        t.g (F.SPN_CNT_RECOVER_COUNT p) = satN (2 ^ 32 - 1) (s.g (F.SPN_CNT_RECOVER_COUNT p) + 1) ∧ (t.port p).replay = q.replay ∧ (t.port p).txq = q.txq)) ∧
    (aligned q = false → exec (.spnAmSend p) s = .next (s.after s.begun)) ∧
    (aligned q = true → ∃ v t, exec (.spnAmSend p) s = .next (s.after t) ∧ t.regs = s.regs ∧ (t.port p).bip = [] ∧ (t.port p).sent = [] ∧ (t.port p).txLane = 0 ∧ (t.port p).stage = q.stage ∧
      t.out = (logicalLanes q).map fun l => .spineCtl p l 0x99 (spnBlock 0x99 (leBytes 1 l ++ leBytes 1 (if q.bipOpen then v else bipOf q l))))

/-- R326 and R333 to R336 on port p. -/
def Obligations.SpineFrames : Prop :=
  ∀ (s : State) (p : Fin 4) (b : Bytes) (res : BitVec 48) (blk : BitVec 64),
    let q := s.port p
    let r := parseFrame b
    (q.stage ≠ .active → ∀ i ∈ [Instr.spineFrameReceive p b res, Instr.spnAckSend p, Instr.spnCreditRepeat p, Instr.spnReplayTimeout p], exec i s = .next (s.after s.begun)) ∧
    (aligned q = false → ∀ i ∈ [Instr.spnAckReceive p blk, Instr.spnNakReceive p blk, Instr.spnCreditReceive p blk], exec i s = .next (s.after s.begun)) ∧
    (q.stage = .active → r.hdrOk = false → q.nakSent = false → exec (.spineFrameReceive p b res) s = .next (s.after
      ((((s.begun.inc (F.SPN_CNT_HCRC_COUNT p)).modPort p fun q => { q with nakSent := true }).inc (F.SPN_CNT_NAKTX_COUNT p)).sendCtl p 0x55 (leBytes 2 q.rxSeq)))) ∧
    (q.stage = .active → r.hdrOk = true → r.crcOk = true → r.seq ≠ q.rxSeq → (r.seq + 4096 - q.rxSeq) % 4096 < 2048 → exec (.spineFrameReceive p b res) s = .next (s.after (s.begun.spnNak p))) ∧
    (q.stage = .active → r.hdrOk = true → r.crcOk = true → r.seq ≠ q.rxSeq → 2048 ≤ (r.seq + 4096 - q.rxSeq) % 4096 → exec (.spineFrameReceive p b res) s = .next (s.after
      ((s.begun.modPort p fun q => { q with sinceAck := 0 }).sendCtl p 0x4B (leBytes 2 ((q.rxSeq + 4095) % 4096))))) ∧
    (q.stage = .active → r.hdrOk = true → r.crcOk = true → r.seq = q.rxSeq → q.sinceAck < 7 → r.frame.ll = true → vlFits r.frame = true → s.portFilters p r.frame = false →
      exec (.spineFrameReceive p b res) s = .next (s.after
        ((s.begun.modPort p fun q => { q with rxSeq := (q.rxSeq + 1) % 4096, nakSent := false, sinceAck := q.sinceAck + 1 }).deliver p r.frame))) ∧
    (aligned q = true → readBlock blk.toNat = none → ∀ i ∈ [Instr.spnAckReceive p blk, Instr.spnNakReceive p blk, Instr.spnCreditReceive p blk], exec i s = .next (s.after (s.begun.inc (F.SPN_CNT_HCRC_COUNT p)))) ∧
    (∀ c, q.stage = .active → readBlock blk.toNat = some c →
      (byteAt c 0 = 0x4B → q.inj.ackDrop = false → q.txq = [] → exec (.spnAckReceive p blk) s = .next (s.after
        (s.begun.modPort p fun q => { q with replay := q.replay.filter fun k => !decide ((leAt c 1 2 % 4096 + 4096 - k.seq) % 4096 < 2048), injd := false }))) ∧
      (byteAt c 0 = 0x55 → ∀ k, q.replay = [k] → leAt c 1 2 % 4096 = k.seq → k.stomped = false → k.replays < 4 → q.inj.hcrc = false → q.inj.fcrc = false → ∃ t, exec (.spnNakReceive p blk) s = .next (s.after t) ∧
        (t.port p).replay = [{ k with replays := k.replays + 1 }] ∧ t.out = [.spine p (frameBlocks (logicalLanes q) q.txLane (frameBytes (frameTimed k.w.frame s.ownNode (tdiff s.now k.w.since)) k.seq 0 0))] ∧ (t.port p).stage = .active) ∧
      (byteAt c 0 = 0x66 → byteAt c 1 < 4 → q.txq = [] → exec (.spnCreditReceive p blk) s = .next (s.after
        (s.begun.modPort p fun q => { q with granted := q.granted.set (byteAt c 1) ((q.limits.getD (byteAt c 1) 0 + leAt c 2 2) % 2 ^ 16) })))) ∧
    (q.stage = .active → exec (.spnAckSend p) s = .next (s.after
      ((s.begun.modPort p fun q => { q with sinceAck := 0 }).sendCtl p 0x4B (leBytes 2 ((q.rxSeq + 4095) % 4096))))) ∧
    (q.stage = .active → let ls := logicalLanes q
      q.txLane < ls.length → ∃ t, exec (.spnCreditRepeat p) s = .next (s.after t) ∧ t.regs = s.regs ∧ (t.port p).freed = q.freed ∧
        t.out = (List.range 4).map fun v => .spineCtl p (laneAt ls ((q.txLane + v) % ls.length)) 0x66 (spnBlock 0x66 (leBytes 1 v ++ leBytes 2 (q.freed.getD v 0)))) ∧
    (∀ k, q.stage = .active → q.replay = [k] → k.stomped = false → k.replays < 4 → q.inj.hcrc = false → q.inj.fcrc = false → ∃ t, exec (.spnReplayTimeout p) s = .next (s.after t) ∧
      (t.port p).replay = [{ k with replays := k.replays + 1 }] ∧ t.out = [.spine p (frameBlocks (logicalLanes q) q.txLane (frameBytes (frameTimed k.w.frame s.ownNode (tdiff s.now k.w.since)) k.seq 0 0))])

/-- R342, R344, R346, R347 and R349: a frame that the endpoint takes leaves its queue, where it stood there, and its credits go back; a request that its port or the state
QUARANTINE refuses is filtered, and one that must wait for an earlier one joins the queue. A request of the device's own takes a free tag, or waits for one. -/
def Obligations.SpineEndpoint : Prop :=
  ∀ (s : State) (p : Fin 5) (i : Fin 4) (f : Frame) (r : Nat) (tag : Fin 1024), s.answers → s.err.inj = none →
    let c := s.begun.consume p f
    let data := (txnBody f).drop 8
    (s.refuses p f = true → ∀ i ∈ [Instr.rdReqReceive p f, Instr.wrReqReceive p f, Instr.wrPostReceive p f, Instr.attestReqReceive p f], exec i s = .next (s.after (s.begun.filtered p f))) ∧
    (s.refuses p f = false → s.reqBehind p f = true → (p.val, f) ∉ s.spn.inbox → ∀ i ∈ [Instr.rdReqReceive p f, Instr.wrReqReceive p f, Instr.wrPostReceive p f, Instr.attestReqReceive p f],
      exec i s = .next (s.after (s.begun.deliver p f))) ∧
    (s.refuses p f = false → s.reqBehind p f = false →
      (targetOf (leAt (txnBody f) 0 8) = .regs r → f.vl = 1 →
        (leAt (txnBody f) 8 2 = 4 → (c.busRead (.spine f.src) r).1 = .ok → exec (.rdReqReceive p f) s = .next (s.after
          ((c.busRead (.spine f.src) r).2.2.respond p f .ok (leBytes 4 (c.busRead (.spine f.src) r).2.1)))) ∧
        (data.length = 4 → let w := c.busWrite (.spine f.src) (viaPort p) r (leAt data 0 4)
          exec (.wrPostReceive p f) s = .next (s.after w.2) ∧ exec (.wrReqReceive p f) s = .next (s.after (w.2.respond p f w.1 [])))) ∧
      (∀ a, targetOf (leAt (txnBody f) 0 8) = .dram a → s.dev ≠ .retired →
        (leAt (txnBody f) 8 2 ≤ 1024 → windowFits a (leAt (txnBody f) 8 2) = true → ∀ d t, c.dramRead a (leAt (txnBody f) 8 2) 4 f.src = (some d, t) →
          exec (.rdReqReceive p f) s = .next (s.after (t.respond p f .ok d))) ∧
        (windowFits a data.length = true → let w := c.dramWrite a data 4 f.src
          exec (.wrPostReceive p f) s = .next (s.after w.2) ∧ exec (.wrReqReceive p f) s = .next (s.after (w.2.respond p f (if w.1 then .ok else .ue) [])))) ∧
      (targetOf (leAt (txnBody f) 0 8) = .none → exec (.rdReqReceive p f) s = .next (s.after (c.respond p f .unsup [])) ∧ exec (.wrReqReceive p f) s = .next (s.after (c.respond p f .unsup []))) ∧
      (s.spn.attest = none → exec (.attestReqReceive p f) s = .next (s.after (({ s.begun with spn := { s.spn with attest := some (p.val, f) } } : State).consume p f))) ∧
      (∀ x, s.spn.attest = some x → exec (.attestReqReceive p f) s = .next (s.after (c.respond p f .busy [])))) ∧
    ((f.tag, f.gen) ∈ s.spn.tags → exec (.respReceive p f) s = .next (s.after (c.tagFree f.tag (some f)))) ∧
    ((f.tag, f.gen) ∉ s.spn.tags → exec (.respReceive p f) s = .next (s.after (c.inc F.SPN_CNT_LATERESP_COUNT))) ∧
    ((∃ g, (tag.val, g) ∈ s.spn.tags) → exec (.completionTimeout tag) s = .next (s.after
      ((({ s.begun with spn := { s.spn with gens := spSet 0 s.spn.gens tag ((spGet 0 s.spn.gens tag + 1) % 4) } } : State).inc F.SPN_CNT_CTO_COUNT).tagFree tag none))) ∧
    (∀ x : Option Frame, let t : State := ({ s with spn := { s.spn with tags := s.spn.tags.filter fun y => y.1 != tag.val } } : State).emit (.completed tag x)
      (s.spn.waits = [] → s.tagFree tag x = t) ∧
      ∀ g gs, s.spn.waits = g :: gs → s.tagFree tag x = ({ t with spn := { t.spn with waits := gs } } : State).originate g) ∧
    ((∀ k < tag.val, ∃ g, (k, g) ∈ s.spn.tags) → (∀ g, (tag.val, g) ∉ s.spn.tags) → let g := spGet 0 s.spn.gens tag
      s.originate f = ({ s with spn := { s.spn with tags := s.spn.tags ++ [(tag.val, g)] } } : State).send { f with tag, gen := g }) ∧
    ((∀ k < 1024, ∃ g, (k, g) ∈ s.spn.tags) → s.originate f = { s with spn := { s.spn with waits := s.spn.waits ++ [f] } }) ∧
    ((∀ g, (tag.val, g) ∉ s.spn.tags) → exec (.completionTimeout tag) s = .next (s.after s.begun)) ∧
    exec (.discRespReceive p f) s = .next (s.after c) ∧
    (s.spn.attest = none → exec .attestSignDone s = .next (s.after s.begun)) ∧
    (s.spn.attest = some (p.val, f) → let b := s.attestBody (txnBody f)
      exec .attestSignDone s = .next (s.after (({ s.begun with free := s.free + 1, spn := { s.spn with attest := none } } : State).freeWithheld.send
        (s.answer p f FT.ATTEST_RESP 0 (b ++ ecSign Config.attestKey (Config.attestNonce s.free) (sha256 b)))))) ∧
    (s.gb (F.SPN_ROOT_VALID 0) = true → s.g (F.SPN_ROOT_NODE 0) = leAt f.payload 0 2 → leAt f.payload 2 2 = spGet 0 s.spn.rootSeq 0 → s.g (F.SPN_ROOT_HOPS 0) ≤ byteAt f.payload 4 + 1 →
      exec (.discReceive i f) s = .next (s.after (s.begun.consume i f))) ∧
    (s.gb (F.SPN_ROOT_VALID 0) = true → s.gb (F.SPN_ROOT_VALID 1) = true → s.g (F.SPN_ROOT_NODE 0) ≠ leAt f.payload 0 2 → s.g (F.SPN_ROOT_NODE 1) ≠ leAt f.payload 0 2 →
      exec (.discReceive i f) s = .next (s.after (s.begun.consume i f))) ∧
    (s.gb F.SPN_CTL_ROOT = true → leAt f.payload 0 2 = s.ownNode → exec (.discReceive i f) s = .next (s.after (s.begun.consume i f))) ∧
    (s.gb (F.SPN_ROOT_VALID 0) = false → s.gb (F.SPN_ROOT_VALID 1) = false → byteAt f.payload 4 < 16 → (s.gb F.SPN_CTL_ROOT = false ∨ leAt f.payload 0 2 ≠ s.ownNode) → s.gb F.SPN_CTL_DISCFWD = false →
      ∃ (t : State) (a : Frame), exec (.discReceive i f) s = .next (s.after (t.send a)) ∧ t.g (F.SPN_ROOT_NODE 0) = leAt f.payload 0 2 ∧ t.gb (F.SPN_ROOT_VALID 0) = true ∧ t.g (F.SPN_ROOT_UPPORT 0) = i ∧
        t.g (F.SPN_ROOT_HOPS 0) = byteAt f.payload 4 + 1 ∧ t.spn.ports = (s.begun.consume i f).spn.ports ∧ a.ty = FT.DISC_RESP ∧ a.dr = true) ∧
    exec .discFloodWindowEnd s = .next (s.after { s.begun with spn := { s.spn with discBusy := false } })

/-- R342 and R352 to R356 as register writes, with no injection pending. -/
def Obligations.SpinePortCommands : Prop :=
  ∀ (s : State) (src : Src) (via : Option (Fin 4)) (p l : Fin 4) (check : BitVec 16) (bits : List Bool), s.answers → s.err.inj = none →
    let q := s.port p
    let cmd : State := s.begun.recReg E.SPN_CMD (0x180028 + 0x4000 * p) src
    (s.gb F.SPN_CTL_ROOT = false → exec (.spnDiscgo src) s = .next (s.after s.begun)) ∧
    (s.gb F.SPN_CTL_ROOT = true → s.upPorts = [] → exec (.spnDiscgo src) s = .next (s.after { s.begun with spn := { s.spn with floodSeq := (s.spn.floodSeq + 1) % 65536, discBusy := true } })) ∧
    (s.dev ≠ .quarantine ∨ check.toNat ≠ crc32c (slice s.fuses.uid 0 16) % 65536 → exec (.spnQcmdAdmit src check) s = .next (s.after (s.begun.recReg E.SPN_CMD 0x181014 src))) ∧
    (s.dev = .quarantine → check.toNat = crc32c (slice s.fuses.uid 0 16) % 65536 → ∃ t : State, exec (.spnQcmdAdmit src check) s = .next (s.after t.firstStandby) ∧ t.spn.quarOwn = false ∧ t.dev = .quarantine) ∧
    (q.mgmtOnly = false ∨ check.toNat ≠ crc32c (s.nbrId p) % 65536 → exec (.spnPcmdAdmit src p check) s = .next (s.after cmd)) ∧
    (q.mgmtOnly = true → check.toNat = crc32c (s.nbrId p) % 65536 → ∃ t : State, exec (.spnPcmdAdmit src p check) s = .next (s.after t) ∧ (t.port p).mgmtOnly = false ∧ (t.port p).admitted = some (s.nbrId p)) ∧
    (s.dev ≠ .standby ∨ via = some p ∨ q.stage = .disabled ∨ q.stage = .retired → exec (.spnPcmdTest src via p) s = .next (s.after cmd)) ∧
    (s.dev = .standby → via ≠ some p → q.stage = .active → q.txq = [] → ∃ t : State, exec (.spnPcmdTest src via p) s = .next (s.after t) ∧ (t.port p).stage = .test ∧ (t.port p).prbs = [] ∧ (t.port p).replay = []) ∧
    (q.stage ≠ .test → exec (.spnPcmdTestexit src p) s = .next (s.after cmd)) ∧
    (q.stage = .test → exec (.spnPcmdTestexit src p) s = .next (s.after (s.begun.modPort p fun q => { q with stage := .train }))) ∧
    (s.dev ≠ .standby → exec (.spnPcmdRestore src p) s = .next (s.after cmd)) ∧
    (s.dev = .standby → s.gb (F.SPN_PCTL_EN p) = true → q.txq = [] → ∃ t : State, exec (.spnPcmdRestore src p) s = .next (s.after t) ∧ (t.port p).stage = .detect ∧ (t.port p).laneRet = 0 ∧ (t.port p).recTimes = []) ∧
    (s.dev ≠ .standby → s.dev ≠ .hold → exec (.spnPcmdRetrain src p) s = .next (s.after cmd)) ∧
    (s.dev = .standby ∨ s.dev = .hold → q.stage = .active → exec (.spnPcmdRetrain src p) s = .next (s.after (s.begun.enterRecover p false))) ∧
    (q.inj.laneErr = 0 → q.inj.blkLoss = false → ∃ t : State, exec (.spnInjFcrc src p) s = .next (s.after t) ∧ t.port p = { q with inj := { q.inj with fcrc := true } } ∧ t.out = []) ∧
    (q.inj.laneErr = 0 → q.inj.blkLoss = false → ∃ t : State, exec (.spnInjHcrc src p) s = .next (s.after t) ∧ t.port p = { q with inj := { q.inj with hcrc := true } } ∧ t.out = []) ∧
    (q.inj.laneErr = 0 → q.inj.blkLoss = false → ∃ t : State, exec (.spnInjAckdrop src p) s = .next (s.after t) ∧ t.port p = { q with inj := { q.inj with ackDrop := true } } ∧ t.out = []) ∧
    (aligned q = true → q.inj.laneErr = 0 → q.inj.blkLoss = false → ∃ t : State, exec (.spnInjLaneerr src p l) s = .next (s.after t) ∧ (t.port p).inj.laneErr = 0 ∧ (t.port p).stage = q.stage ∧ t.out = [.spineBadHeader p l]) ∧
    (aligned q = false → ∃ t : State, exec (.spnInjLaneerr src p l) s = .next (s.after t) ∧ bitOf (t.port p).inj.laneErr l = true ∧ t.out = []) ∧
    (q.stage ≠ .active → ∃ t : State, exec (.spnInjBlkloss src p l) s = .next (s.after t) ∧ (t.port p).inj.blkLoss = true ∧ (t.port p).stage = q.stage) ∧
    (q.stage = .active → s.g (F.SPN_RETCFG_RECMAX p) = 0 → q.laneRet ≠ 15 → ∃ t : State, exec (.spnInjBlkloss src p l) s = .next (s.after t) ∧ (t.port p).stage = .recover) ∧
    (q.stage ≠ .test → exec (.spnPrbsInj1 src p) s = .next (s.after s.begun) ∧
      exec (.spnPrbsCheck p l bits) s = .next (s.after (if q.loop = true ∧ q.stage ≠ .disabled ∧ q.stage ≠ .retired then s.begun.emit (.spineBits p l bits) else s.begun))) ∧
    (q.stage = .test → s.gb (F.SPN_PRBS_GENEN p) = true → q.lanesAct = 1 → q.injBits = [] → ∃ t : State, exec (.spnPrbsInj1 src p) s = .next (s.after (t.inc F.ERR_CNT_INJ_COUNT)) ∧
      spGet 0 (t.port p).injBits 0 = 1 ∧ t.regs = s.regs) ∧
    (q.stage = .test → s.gb (F.SPN_PRBS_GENEN p) = true → s.gb (F.SPN_PRBS_CHKEN p) = false → bitOf q.lanesAct l = true →
      let r := genRun (s.g (F.SPN_PRBS_POLY p)) (s.gb (F.SPN_PRBS_INV p)) (s.g (F.SPN_PRBS_INJRATE p)) bits.length (spGet {} q.gens l) (spGet 0 q.injBits l)
      ∃ t : State, exec (.spnPrbsCheck p l bits) s = .next (s.after (t.incBy F.ERR_CNT_INJ_COUNT r.2.2)) ∧ t.regs = s.regs ∧ t.out = [.spineBits p l r.2.1] ∧ spGet {} (t.port p).gens l = r.1) ∧
    (q.stage = .test → s.gb (F.SPN_PRBS_GENEN p) = false → s.gb (F.SPN_PRBS_CHKEN p) = true → bitOf q.lanesAct l = true →
      let r := prbsRun (s.g (F.SPN_PRBS_POLY p)) (s.gb (F.SPN_PRBS_INV p)) (spGet {} q.prbs l) bits
      ∃ t : State, exec (.spnPrbsCheck p l bits) s = .next (s.after ((t.p (F.SPN_PRBS_LOCK p) (putBit (s.g (F.SPN_PRBS_LOCK p)) l r.1.lock)).incBy (F.SPN_PRBSERR_COUNT p l) r.2)) ∧
        t.regs = s.regs ∧ (spGet {} (t.port p).prbs l = r.1))

/-- R359 to R363, R366, R369, R370 and R372, one command each. -/
def Obligations.MailboxesAndRings : Prop :=
  ∀ (s : State) (src : Src) (c : Fin 64) (n : Fin 128) (w : Word) (node : BitVec 16), s.answers → s.err.inj = none →
    (s.isOwner c src = false ∨ s.chPending c = true ∨ s.chAccepted c = true → exec (.mbxGo src c w) s = .next (s.after s.begun)) ∧
    (s.isOwner c src = true → s.chPending c = false → s.chAccepted c = false → ∃ t : State, exec (.mbxGo src c w) s = .next (s.after (t.msgStart c src none)) ∧
      t.reg (0x1C1040 + 0x80 * c) = maskIn (s.reg (0x1C1040 + 0x80 * c)) (regMask (0x1C1040 + 0x80 * c) fun x => x.acc == .rw) (putBit w.toNat 0 true) ∧ t.dram = s.dram) ∧
    (8 ≤ s.g (F.MBX_CH_CTL_LEN c) → s.g (F.MBX_CH_CTL_LEN c) ≤ 16 → s.msgClass c = 1 → ∃ t : State, s.msgStart c src none = t.raise SEv.MBX_MSG c ∧ t.chPending c = true ∧ t.chAccepted c = false) ∧
    (s.isOwner c src = true → s.chPending c = true → ∃ t : State, exec (.mbxWithdraw src c) s = .next (s.after t) ∧ t.chPending c = false ∧ t.gb (F.MBX_CH_STS_WDRAWN c) = true) ∧
    (s.isOwner c src = true → s.chPending c = false → s.chAccepted c = true → ∃ t : State, exec (.mbxWithdraw src c) s = .next (s.after t) ∧ t.chAccepted c = true ∧ t.gb (F.MBX_CH_STS_WDREF c) = true) ∧
    (s.gb (F.MBX_CH_OWNER_VALID c) = false → bitsOf w.toNat 15 0 = node.toNat → bitOf w.toNat 16 = true →
      ∃ t : State, exec (.mbxOwnerWrite (.spine node.toNat) c w) s = .next (s.after t) ∧ t.gb (F.MBX_CH_OWNER_VALID c) = true ∧ t.g (F.MBX_CH_OWNER_NODE c) = node.toNat) ∧
    (s.gb (F.MBX_CH_OWNER_VALID c) = true → bitOf w.toNat 16 = true → exec (.mbxOwnerWrite src c w) s = .next (s.after
      (s.begun.record { c := E.MBX_OWNER, inst := c, ctxType := 6, ctx := ctxReg (0x1C1048 + 0x80 * c) src }))) ∧
    (s.dev = .standby → s.member = false → s.sram.flips = [] → bitOf (s.reg (0x1C4008 + 0x20 * n)) 31 = false → bitOf w.toNat 31 = true → ∃ t : State, exec (.ringEnableWrite src n w) s = .next (s.after t) ∧
      t.gb (F.MBX_RG_CFG_EN n) = true ∧ t.g (F.MBX_RG_HEAD_INDEX n) = 0 ∧ t.g (F.MBX_RG_TAIL_INDEX n) = 0 ∧ t.gb (F.MBX_RG_STS_FAULT n) = false) ∧
    (let d (x : Nat) : Nat := (x + 2 ^ 32 - s.g (F.MBX_RG_TAIL_INDEX n)) % 2 ^ 32;
      (d w.toNat ≤ d (s.g (F.MBX_RG_HEAD_INDEX n)) → exec (.ringTailWrite src n w) s = .next (s.after (s.begun.p (F.MBX_RG_TAIL_INDEX n) w.toNat))) ∧
      (d (s.g (F.MBX_RG_HEAD_INDEX n)) < d w.toNat → exec (.ringTailWrite src n w) s = .next (s.after
        (s.begun.record { c := E.MBX_RINGPTR, inst := n, ctxType := 6, ctx := ctxReg (0x1C4010 + 0x20 * n) src })))) ∧
    (s.mbx.postq = [] → exec .descriptorWriteAccepted s = .next (s.after s.begun) ∧ exec .descriptorWriteError s = .next (s.after s.begun)) ∧
    (∀ d r, s.mbx.postq = d :: r → d.ring < 128 → s.gb (F.MBX_RG_CFG_EN d.ring) = true → (s.g (F.MBX_RG_HEAD_INDEX d.ring) + 2 ^ 32 - s.g (F.MBX_RG_TAIL_INDEX d.ring)) % 2 ^ 32 < s.ringSize d.ring →
      let x : State := { s.begun with mbx := { s.mbx with postq := r } }
      exec .descriptorWriteError s = .next (s.after (x.descError d.ring)) ∧
      let w := x.dramWrite (x.descAddr d.ring (s.g (F.MBX_RG_HEAD_INDEX d.ring))) (x.descBytes d (s.g (F.MBX_RG_HEAD_INDEX d.ring))) 5 0
      (w.1 = true → ∃ t : State, exec .descriptorWriteAccepted s = .next (s.after t) ∧
        t.regs = (w.2.p (F.MBX_RG_HEAD_INDEX d.ring) ((s.g (F.MBX_RG_HEAD_INDEX d.ring) + 1) % 2 ^ 32)).regs ∧ t.dram = w.2.dram ∧ t.out = w.2.out)) ∧
    (n.val ∈ s.mbx.notify → s.notifyDue n = true → ∃ t : State, exec (.notifySend (some n)) s = .next (s.after (t.sendNotify (s.g (F.MBX_RG_CFG_NODE n)) n 1 (s.g (F.MBX_RG_HEAD_INDEX n)))) ∧ n.val ∉ t.mbx.notify ∧ t.regs = s.regs) ∧
    (256 ∈ s.mbx.notify → s.notifyDue 256 = true → ∃ t : State, exec (.notifySend none) s = .next (s.after (t.sendNotify (s.g F.MBX_ATTNCFG_NODE) 0xFF 2 s.attn)) ∧ 256 ∉ t.mbx.notify ∧ t.regs = s.regs) ∧
    (n.val ∉ s.mbx.notify ∨ s.notifyDue n = false → exec (.notifySend (some n)) s = .next (s.after s.begun)) ∧
    (∀ t, spGet none s.mbx.notifyAt n = some t → (s.notifyDue n = true ↔ t + 1000 * s.g (F.MBX_RG_CFG_MOD n) ≤ s.ns)) ∧
    (∀ (u : Fin 4) r rest, (s.up u).waiting = r :: rest → (s.up u).run = none →
      let room := s.g (F.MBX_UP_SIZE_PAGES u) * 4096
      let used := (s.g (F.MBX_UP_WPTR_BYTES u) + 2 ^ 32 - s.g (F.MBX_UP_TAIL_BYTES u)) % 2 ^ 32
      (used + uploadBound r.input.length ≤ room → ∃ t : State, exec (.uploadStart u) s = .next (s.after t) ∧ (t.up u).waiting = rest ∧
        (t.up u).run = some ⟨r, s.g (F.MBX_UP_WPTR_BYTES u), uploadBound r.input.length, s.reg (F.QRE_UPCFG_TABLES u).addr⟩ ∧ t.regs = s.regs) ∧
      (room < used + uploadBound r.input.length → exec (.uploadStart u) s = .next (s.after (((s.begun.modUp u fun x => { x with waiting := rest }).post r.ring r.ty 1
        (upBody (s.g (F.MBX_UP_WPTR_BYTES u)) 0 r.input)).inc F.MBX_CNT_UPNOSPACE_COUNT)))) ∧
    (∀ (u : Fin 4), (s.up u).run = none → exec (.uploadDone u) s = .next (s.after s.begun)) ∧
    (∀ (u : Fin 4) r, (s.up u).run = some r → r.req.tag ≠ 1 →
      let out := uploadStream u r.cfg r.req.input
      exec (.uploadDone u) s = .next (s.after (((((s.begun.modUp u fun x => { x with run := none }).upWrite u r.wptr out).p (F.MBX_UP_WPTR_BYTES u) ((r.wptr + out.length) % 2 ^ 32)).post
        r.req.ring r.req.ty 0 (upBody r.wptr out.length r.req.input)))))

/-- R373, R375, R377 and R439. -/
def Obligations.LocksAndAttention : Prop :=
  ∀ (s : State) (src h : Src) (i : Fin 256) (w : Word) (code : BitVec 2) (node : BitVec 16), s.answers →
    (s.lock i = none → ∃ t : State, exec (.lockRead src i) s = .next (s.after t) ∧ t.lock i = some src ∧ (∀ j, j ≠ i.val → t.lock j = s.lock j) ∧ t.regs = s.regs ∧
      (s.busRead src (0x1C6000 + 4 * i)).2.1 = 0) ∧
    (s.lock i = some h → exec (.lockRead src i) s = .next (s.after s.begun) ∧ (s.busRead src (0x1C6000 + 4 * i)).2.1 = 2 ^ 31 + srcCode h * 2 ^ 16 + srcNode h % 65536) ∧
    (s.lock i = some src → ∃ t : State, exec (.lockWrite src i w) s = .next (s.after t) ∧ t.lock i = none ∧ (∀ j, j ≠ i.val → t.lock j = s.lock j) ∧ t.regs = s.regs ∧
      (s.writeAt src none (0x1C6000 + 4 * i) w.toNat).1 = .ok) ∧
    (s.lock i ≠ some src → exec (.lockWrite src i w) s = .next (s.after (s.begun.inc F.MBX_CNT_LOCKERR_COUNT)) ∧ (s.writeAt src none (0x1C6000 + 4 * i) w.toNat).1 = .access) ∧
    (s.lock i = none → exec (.lockcmdForce src i) s = .next (s.after s.begun)) ∧
    (s.lock i = some h → ∃ t : State, exec (.lockcmdForce src i) s = .next (s.after (t.record { c := E.MBX_LOCKFORCE, inst := i, ctxType := 6, ctx := ctxReg (0x1C6000 + 4 * i) h })) ∧
      t.lock i = none ∧ (∀ j, j ≠ i.val → t.lock j = s.lock j) ∧ t.regs = s.regs) ∧
    ((∀ j < 256, ∀ k, s.lock j = some k → srcCode k ≠ code.toNat ∨ srcNode k ≠ node.toNat) → exec (.lockcmdAllnode src code node) s = .next (s.after s.begun)) ∧
    (∃ t : State, exec (.lockcmdAllnode src code node) s = .next (s.after t) ∧ ∀ j < 256, t.lock j = match s.lock j with
      | some k => if srcCode k = code.toNat ∧ srcNode k = node.toNat then none else some k
      | none => none) ∧
    exec .hrbMinLowEnd s = .next (s.after { s.begun with hrbFell := none }) ∧
    (maskIn s.attn s.mbx.attnSeen 0 = 0 → ∃ t : State, exec (.glbAttnClear src w) s = .next (s.after t) ∧ (∀ b < 32, bitOf (t.reg 0x18) b = (bitOf (s.reg 0x18) b && !bitOf w.toNat b)) ∧ (∀ a, a ≠ 0x18 → t.reg a = s.reg a))
end

