-- ==== Sys2Proof/Laws/Sparse.lean ====
section
/-!
SUPPORT. Laws of sparse tables: reading back what was written, leaving every other key alone, and keeping the canonical form.
-/

namespace Sys2Proof.Machine

variable {α : Type}

/-- Every key of a table lies above a bound. -/
def spAbove (lo : Nat) (m : Sparse α) : Prop := ∀ e ∈ m, lo < e.1

theorem spRising_some_iff (m : Sparse α) (l : Nat) : spRising (some l) m = true ↔ spRising none m = true ∧ spAbove l m := by
  induction m generalizing l with
  | nil => simp [spRising, spAbove]
  | cons e r ih =>
    obtain ⟨k, v⟩ := e
    simp only [spRising, Bool.and_eq_true, decide_eq_true_eq, spAbove, List.mem_cons, forall_eq_or_imp]
    constructor
    · rintro ⟨h1, h2⟩
      refine ⟨h2, h1, fun e he => ?_⟩
      have := ((ih k).1 h2).2 e he
      omega
    · rintro ⟨h1, h2, _⟩
      exact ⟨h2, h1⟩

theorem spRising_cons (k : Nat) (v : α) (r : Sparse α) : spRising none ((k, v) :: r) = true ↔ spRising none r = true ∧ spAbove k r := by
  simp only [spRising]
  exact spRising_some_iff r k

@[simp] theorem spGetD_nil (d : Nat → α) (k : Nat) : spGetD d ([] : Sparse α) k = d k := rfl

theorem spGetD_spErase_same (d : Nat → α) (m : Sparse α) (k : Nat) : spGetD d (spErase m k) k = d k := by
  induction m with
  | nil => rfl
  | cons e r ih => simp only [spErase]; split <;> simp_all [spGetD]

theorem spGetD_spErase_ne (d : Nat → α) (m : Sparse α) (k j : Nat) (hj : j ≠ k) : spGetD d (spErase m k) j = spGetD d m j := by
  induction m with
  | nil => rfl
  | cons e r ih =>
    simp only [spErase]
    split
    · next he => subst he; simp [spGetD, hj, ih]
    · simp only [spGetD, ih]

theorem spGetD_spPut_ne (d : Nat → α) (m : Sparse α) (k j : Nat) (v : α) (hj : j ≠ k) : spGetD d (spPut m k v) j = spGetD d m j := by
  induction m with
  | nil => simp [spPut, spGetD, hj]
  | cons e r ih => simp only [spPut]; split <;> simp [spGetD, hj, ih]

/-- An entry put into a table without one of that key is read back. -/
theorem spGetD_spPut_same (d : Nat → α) (m : Sparse α) (k : Nat) (v : α) (h : ∀ e ∈ m, e.1 ≠ k) : spGetD d (spPut m k v) k = v := by
  induction m with
  | nil => simp [spPut, spGetD]
  | cons e r ih =>
    obtain ⟨k', v'⟩ := e
    have hk : ¬ k = k' := fun he => h (k', v') (by simp) he.symm
    simp only [spPut]
    split
    · simp [spGetD]
    · simp only [spGetD, if_neg hk]
      exact ih fun e he => h e (by simp [he])

theorem mem_spErase (m : Sparse α) (k : Nat) (e : Nat × α) (h : e ∈ spErase m k) : e ∈ m ∧ e.1 ≠ k := by
  induction m with
  | nil => simp [spErase] at h
  | cons x r ih =>
    obtain ⟨k', v'⟩ := x
    simp only [spErase] at h
    split at h
    · exact ⟨by simp [(ih h).1], (ih h).2⟩
    · next hk =>
      rw [List.mem_cons] at h
      rcases h with rfl | h
      · exact ⟨by simp, fun he => hk he.symm⟩
      · exact ⟨by simp [(ih h).1], (ih h).2⟩

/-- A table reads back what is written. -/
theorem spGetD_spSetD_same [DecidableEq α] (d : Nat → α) (m : Sparse α) (k : Nat) (v : α) : spGetD d (spSetD d m k v) k = v := by
  unfold spSetD
  split
  · next he => rw [spGetD_spErase_same d m k, he]
  · exact spGetD_spPut_same d _ k v fun e he => (mem_spErase m k e he).2

/-- A write leaves every other key alone. -/
theorem spGetD_spSetD_ne [DecidableEq α] (d : Nat → α) (m : Sparse α) (k j : Nat) (v : α) (hj : j ≠ k) :
    spGetD d (spSetD d m k v) j = spGetD d m j := by
  unfold spSetD
  split
  · exact spGetD_spErase_ne d m k j hj
  · rw [spGetD_spPut_ne d _ k j v hj, spGetD_spErase_ne d m k j hj]

theorem spRising_spErase (m : Sparse α) (k : Nat) (h : spRising none m = true) : spRising none (spErase m k) = true := by
  induction m with
  | nil => exact h
  | cons e r ih =>
    obtain ⟨k', v'⟩ := e
    rw [spRising_cons] at h
    simp only [spErase]
    split
    · exact ih h.1
    · rw [spRising_cons]
      exact ⟨ih h.1, fun e he => h.2 e (mem_spErase r k e he).1⟩

theorem mem_spPut (m : Sparse α) (k : Nat) (v : α) (e : Nat × α) (h : e ∈ spPut m k v) : e = (k, v) ∨ e ∈ m := by
  induction m with
  | nil => simpa [spPut] using h
  | cons x r ih =>
    simp only [spPut] at h
    split at h
    · simpa [List.mem_cons] using h
    · rw [List.mem_cons] at h
      rcases h with h | h
      · exact .inr (by simp [h])
      · rcases ih h with h | h
        · exact .inl h
        · exact .inr (by simp [h])

theorem spRising_spPut (m : Sparse α) (k : Nat) (v : α) (hk : ∀ e ∈ m, e.1 ≠ k) (h : spRising none m = true) : spRising none (spPut m k v) = true := by
  induction m with
  | nil => rfl
  | cons e r ih =>
    obtain ⟨k', v'⟩ := e
    have h' := h
    rw [spRising_cons] at h'
    have hne := hk (k', v') (by simp)
    simp only at hne
    simp only [spPut]
    split
    · next h1 =>
      rw [spRising_cons]
      refine ⟨h, fun x hx => ?_⟩
      rw [List.mem_cons] at hx
      rcases hx with rfl | hx
      · exact h1
      · have := h'.2 x hx; omega
    · next h1 =>
      rw [spRising_cons]
      refine ⟨ih (fun x hx => hk x (by simp [hx])) h'.1, fun x hx => ?_⟩
      rcases mem_spPut r k v x hx with rfl | hx
      · show k' < k; omega
      · exact h'.2 x hx

theorem spWf_iff [DecidableEq α] (d : Nat → α) (m : Sparse α) : spWf d m = true ↔ spRising none m = true ∧ ∀ e ∈ m, e.2 ≠ d e.1 := by
  simp [spWf, List.all_eq_true]

/-- A rising table written at a key still rises. -/
theorem spRising_spSetD [DecidableEq α] (d : Nat → α) (m : Sparse α) (k : Nat) (v : α) (h : spRising none m = true) : spRising none (spSetD d m k v) = true := by
  unfold spSetD
  split
  · exact spRising_spErase m k h
  · exact spRising_spPut _ k v (fun e he => (mem_spErase m k e he).2) (spRising_spErase m k h)

/-- Every write keeps the canonical form. -/
theorem spWf_spSetD [DecidableEq α] (d : Nat → α) (m : Sparse α) (k : Nat) (v : α) (h : spWf d m = true) : spWf d (spSetD d m k v) = true := by
  rw [spWf_iff] at h ⊢
  refine ⟨spRising_spSetD d m k v h.1, fun e he => ?_⟩
  unfold spSetD at he
  split at he
  · exact h.2 e (mem_spErase m k e he).1
  · next hv =>
    rcases mem_spPut _ k v e he with rfl | he
    · exact hv
    · exact h.2 e (mem_spErase m k e he).1

theorem spRising_filter (m : Sparse α) (p : Nat × α → Bool) (h : spRising none m = true) : spRising none (m.filter p) = true := by
  induction m with
  | nil => rfl
  | cons e r ih =>
    obtain ⟨k, v⟩ := e
    rw [spRising_cons] at h
    rw [List.filter_cons]
    split
    · rw [spRising_cons]
      exact ⟨ih h.1, fun x hx => h.2 x (List.mem_filter.1 hx).1⟩
    · exact ih h.1

/-- Dropping entries keeps the canonical form. -/
theorem spWf_filter [DecidableEq α] (d : Nat → α) (m : Sparse α) (p : Nat × α → Bool) (h : spWf d m = true) : spWf d (m.filter p) = true := by
  rw [spWf_iff] at h ⊢
  exact ⟨spRising_filter m p h.1, fun e he => h.2 e (List.mem_filter.1 he).1⟩

@[simp] theorem spWf_nil [DecidableEq α] (d : Nat → α) : spWf d ([] : Sparse α) = true := rfl

end Sys2Proof.Machine
end

