-- ==== Sys2Proof/Laws/State.lean ====
section
/-!
SUPPORT. Laws of the state: for each basic update one lemma per field it leaves alone, true by unfolding.
-/

namespace Sys2Proof.Machine

variable (s : State)

@[simp] theorem State.setReg_pending (a v : Nat) : (s.setReg a v).pending = s.pending := (rfl)
@[simp] theorem State.setReg_out (a v : Nat) : (s.setReg a v).out = s.out := (rfl)
@[simp] theorem State.setReg_free (a v : Nat) : (s.setReg a v).free = s.free := (rfl)
@[simp] theorem State.setReg_tb (a v : Nat) : (s.setReg a v).tb = s.tb := (rfl)
@[simp] theorem State.setReg_tbFrac (a v : Nat) : (s.setReg a v).tbFrac = s.tbFrac := (rfl)
@[simp] theorem State.setReg_ns (a v : Nat) : (s.setReg a v).ns = s.ns := (rfl)
@[simp] theorem State.setReg_dev (a v : Nat) : (s.setReg a v).dev = s.dev := (rfl)
@[simp] theorem State.setReg_prev (a v : Nat) : (s.setReg a v).prev = s.prev := (rfl)
@[simp] theorem State.setReg_hrb (a v : Nat) : (s.setReg a v).hrb = s.hrb := (rfl)
@[simp] theorem State.setReg_hrbFell (a v : Nat) : (s.setReg a v).hrbFell = s.hrbFell := (rfl)
@[simp] theorem State.setReg_fuses (a v : Nat) : (s.setReg a v).fuses = s.fuses := (rfl)
@[simp] theorem State.setReg_role (a v : Nat) : (s.setReg a v).role = s.role := (rfl)
@[simp] theorem State.setReg_active (a v : Nat) : (s.setReg a v).active = s.active := (rfl)
@[simp] theorem State.setReg_win (a v : Nat) : (s.setReg a v).win = s.win := (rfl)
@[simp] theorem State.setReg_dram (a v : Nat) : (s.setReg a v).dram = s.dram := (rfl)
@[simp] theorem State.setReg_err (a v : Nat) : (s.setReg a v).err = s.err := (rfl)
@[simp] theorem State.setReg_mbx (a v : Nat) : (s.setReg a v).mbx = s.mbx := (rfl)
@[simp] theorem State.setReg_smt (a v : Nat) : (s.setReg a v).smt = s.smt := (rfl)
@[simp] theorem State.setReg_clo (a v : Nat) : (s.setReg a v).clo = s.clo := (rfl)
@[simp] theorem State.setReg_jtag (a v : Nat) : (s.setReg a v).jtag = s.jtag := (rfl)
@[simp] theorem State.setReg_spn (a v : Nat) : (s.setReg a v).spn = s.spn := (rfl)
@[simp] theorem State.setReg_qre (a v : Nat) : (s.setReg a v).qre = s.qre := (rfl)
@[simp] theorem State.setReg_gth (a v : Nat) : (s.setReg a v).gth = s.gth := (rfl)
@[simp] theorem State.setReg_fir (a v : Nat) : (s.setReg a v).fir = s.fir := (rfl)
@[simp] theorem State.setReg_pos (a v : Nat) : (s.setReg a v).pos = s.pos := (rfl)
@[simp] theorem State.setReg_tmb (a v : Nat) : (s.setReg a v).tmb = s.tmb := (rfl)
@[simp] theorem State.setReg_thl (a v : Nat) : (s.setReg a v).thl = s.thl := (rfl)
@[simp] theorem State.setReg_nzh (a v : Nat) : (s.setReg a v).nzh = s.nzh := (rfl)
@[simp] theorem State.setReg_ins (a v : Nat) : (s.setReg a v).ins = s.ins := (rfl)
@[simp] theorem State.setReg_cal (a v : Nat) : (s.setReg a v).cal = s.cal := (rfl)
@[simp] theorem State.setReg_fol (a v : Nat) : (s.setReg a v).fol = s.fol := (rfl)
@[simp] theorem State.setReg_mem (a v : Nat) : (s.setReg a v).mem = s.mem := (rfl)
@[simp] theorem State.setReg_sram (a v : Nat) : (s.setReg a v).sram = s.sram := (rfl)

@[simp] theorem State.setAct_pending (a v : Nat) : (s.setAct a v).pending = s.pending := (rfl)
@[simp] theorem State.setAct_out (a v : Nat) : (s.setAct a v).out = s.out := (rfl)
@[simp] theorem State.setAct_free (a v : Nat) : (s.setAct a v).free = s.free := (rfl)
@[simp] theorem State.setAct_tb (a v : Nat) : (s.setAct a v).tb = s.tb := (rfl)
@[simp] theorem State.setAct_tbFrac (a v : Nat) : (s.setAct a v).tbFrac = s.tbFrac := (rfl)
@[simp] theorem State.setAct_ns (a v : Nat) : (s.setAct a v).ns = s.ns := (rfl)
@[simp] theorem State.setAct_dev (a v : Nat) : (s.setAct a v).dev = s.dev := (rfl)
@[simp] theorem State.setAct_prev (a v : Nat) : (s.setAct a v).prev = s.prev := (rfl)
@[simp] theorem State.setAct_hrb (a v : Nat) : (s.setAct a v).hrb = s.hrb := (rfl)
@[simp] theorem State.setAct_hrbFell (a v : Nat) : (s.setAct a v).hrbFell = s.hrbFell := (rfl)
@[simp] theorem State.setAct_fuses (a v : Nat) : (s.setAct a v).fuses = s.fuses := (rfl)
@[simp] theorem State.setAct_role (a v : Nat) : (s.setAct a v).role = s.role := (rfl)
@[simp] theorem State.setAct_regs (a v : Nat) : (s.setAct a v).regs = s.regs := (rfl)
@[simp] theorem State.setAct_win (a v : Nat) : (s.setAct a v).win = s.win := (rfl)
@[simp] theorem State.setAct_dram (a v : Nat) : (s.setAct a v).dram = s.dram := (rfl)
@[simp] theorem State.setAct_err (a v : Nat) : (s.setAct a v).err = s.err := (rfl)
@[simp] theorem State.setAct_mbx (a v : Nat) : (s.setAct a v).mbx = s.mbx := (rfl)
@[simp] theorem State.setAct_smt (a v : Nat) : (s.setAct a v).smt = s.smt := (rfl)
@[simp] theorem State.setAct_clo (a v : Nat) : (s.setAct a v).clo = s.clo := (rfl)
@[simp] theorem State.setAct_jtag (a v : Nat) : (s.setAct a v).jtag = s.jtag := (rfl)
@[simp] theorem State.setAct_spn (a v : Nat) : (s.setAct a v).spn = s.spn := (rfl)
@[simp] theorem State.setAct_qre (a v : Nat) : (s.setAct a v).qre = s.qre := (rfl)
@[simp] theorem State.setAct_gth (a v : Nat) : (s.setAct a v).gth = s.gth := (rfl)
@[simp] theorem State.setAct_fir (a v : Nat) : (s.setAct a v).fir = s.fir := (rfl)
@[simp] theorem State.setAct_pos (a v : Nat) : (s.setAct a v).pos = s.pos := (rfl)
@[simp] theorem State.setAct_tmb (a v : Nat) : (s.setAct a v).tmb = s.tmb := (rfl)
@[simp] theorem State.setAct_thl (a v : Nat) : (s.setAct a v).thl = s.thl := (rfl)
@[simp] theorem State.setAct_nzh (a v : Nat) : (s.setAct a v).nzh = s.nzh := (rfl)
@[simp] theorem State.setAct_ins (a v : Nat) : (s.setAct a v).ins = s.ins := (rfl)
@[simp] theorem State.setAct_cal (a v : Nat) : (s.setAct a v).cal = s.cal := (rfl)
@[simp] theorem State.setAct_fol (a v : Nat) : (s.setAct a v).fol = s.fol := (rfl)
@[simp] theorem State.setAct_mem (a v : Nat) : (s.setAct a v).mem = s.mem := (rfl)
@[simp] theorem State.setAct_sram (a v : Nat) : (s.setAct a v).sram = s.sram := (rfl)

@[simp] theorem State.p_pending (f : FR) (v : Nat) : (s.p f v).pending = s.pending := (rfl)
@[simp] theorem State.p_out (f : FR) (v : Nat) : (s.p f v).out = s.out := (rfl)
@[simp] theorem State.p_free (f : FR) (v : Nat) : (s.p f v).free = s.free := (rfl)
@[simp] theorem State.p_tb (f : FR) (v : Nat) : (s.p f v).tb = s.tb := (rfl)
@[simp] theorem State.p_tbFrac (f : FR) (v : Nat) : (s.p f v).tbFrac = s.tbFrac := (rfl)
@[simp] theorem State.p_ns (f : FR) (v : Nat) : (s.p f v).ns = s.ns := (rfl)
@[simp] theorem State.p_dev (f : FR) (v : Nat) : (s.p f v).dev = s.dev := (rfl)
@[simp] theorem State.p_prev (f : FR) (v : Nat) : (s.p f v).prev = s.prev := (rfl)
@[simp] theorem State.p_hrb (f : FR) (v : Nat) : (s.p f v).hrb = s.hrb := (rfl)
@[simp] theorem State.p_hrbFell (f : FR) (v : Nat) : (s.p f v).hrbFell = s.hrbFell := (rfl)
@[simp] theorem State.p_fuses (f : FR) (v : Nat) : (s.p f v).fuses = s.fuses := (rfl)
@[simp] theorem State.p_role (f : FR) (v : Nat) : (s.p f v).role = s.role := (rfl)
@[simp] theorem State.p_active (f : FR) (v : Nat) : (s.p f v).active = s.active := (rfl)
@[simp] theorem State.p_win (f : FR) (v : Nat) : (s.p f v).win = s.win := (rfl)
@[simp] theorem State.p_dram (f : FR) (v : Nat) : (s.p f v).dram = s.dram := (rfl)
@[simp] theorem State.p_err (f : FR) (v : Nat) : (s.p f v).err = s.err := (rfl)
@[simp] theorem State.p_mbx (f : FR) (v : Nat) : (s.p f v).mbx = s.mbx := (rfl)
@[simp] theorem State.p_smt (f : FR) (v : Nat) : (s.p f v).smt = s.smt := (rfl)
@[simp] theorem State.p_clo (f : FR) (v : Nat) : (s.p f v).clo = s.clo := (rfl)
@[simp] theorem State.p_jtag (f : FR) (v : Nat) : (s.p f v).jtag = s.jtag := (rfl)
@[simp] theorem State.p_spn (f : FR) (v : Nat) : (s.p f v).spn = s.spn := (rfl)
@[simp] theorem State.p_qre (f : FR) (v : Nat) : (s.p f v).qre = s.qre := (rfl)
@[simp] theorem State.p_gth (f : FR) (v : Nat) : (s.p f v).gth = s.gth := (rfl)
@[simp] theorem State.p_fir (f : FR) (v : Nat) : (s.p f v).fir = s.fir := (rfl)
@[simp] theorem State.p_pos (f : FR) (v : Nat) : (s.p f v).pos = s.pos := (rfl)
@[simp] theorem State.p_tmb (f : FR) (v : Nat) : (s.p f v).tmb = s.tmb := (rfl)
@[simp] theorem State.p_thl (f : FR) (v : Nat) : (s.p f v).thl = s.thl := (rfl)
@[simp] theorem State.p_nzh (f : FR) (v : Nat) : (s.p f v).nzh = s.nzh := (rfl)
@[simp] theorem State.p_ins (f : FR) (v : Nat) : (s.p f v).ins = s.ins := (rfl)
@[simp] theorem State.p_cal (f : FR) (v : Nat) : (s.p f v).cal = s.cal := (rfl)
@[simp] theorem State.p_fol (f : FR) (v : Nat) : (s.p f v).fol = s.fol := (rfl)
@[simp] theorem State.p_mem (f : FR) (v : Nat) : (s.p f v).mem = s.mem := (rfl)
@[simp] theorem State.p_sram (f : FR) (v : Nat) : (s.p f v).sram = s.sram := (rfl)

@[simp] theorem State.incBy_pending (f : FR) (n : Nat) : (s.incBy f n).pending = s.pending := (rfl)
@[simp] theorem State.incBy_out (f : FR) (n : Nat) : (s.incBy f n).out = s.out := (rfl)
@[simp] theorem State.incBy_free (f : FR) (n : Nat) : (s.incBy f n).free = s.free := (rfl)
@[simp] theorem State.incBy_tb (f : FR) (n : Nat) : (s.incBy f n).tb = s.tb := (rfl)
@[simp] theorem State.incBy_tbFrac (f : FR) (n : Nat) : (s.incBy f n).tbFrac = s.tbFrac := (rfl)
@[simp] theorem State.incBy_ns (f : FR) (n : Nat) : (s.incBy f n).ns = s.ns := (rfl)
@[simp] theorem State.incBy_dev (f : FR) (n : Nat) : (s.incBy f n).dev = s.dev := (rfl)
@[simp] theorem State.incBy_prev (f : FR) (n : Nat) : (s.incBy f n).prev = s.prev := (rfl)
@[simp] theorem State.incBy_hrb (f : FR) (n : Nat) : (s.incBy f n).hrb = s.hrb := (rfl)
@[simp] theorem State.incBy_hrbFell (f : FR) (n : Nat) : (s.incBy f n).hrbFell = s.hrbFell := (rfl)
@[simp] theorem State.incBy_fuses (f : FR) (n : Nat) : (s.incBy f n).fuses = s.fuses := (rfl)
@[simp] theorem State.incBy_role (f : FR) (n : Nat) : (s.incBy f n).role = s.role := (rfl)
@[simp] theorem State.incBy_active (f : FR) (n : Nat) : (s.incBy f n).active = s.active := (rfl)
@[simp] theorem State.incBy_win (f : FR) (n : Nat) : (s.incBy f n).win = s.win := (rfl)
@[simp] theorem State.incBy_dram (f : FR) (n : Nat) : (s.incBy f n).dram = s.dram := (rfl)
@[simp] theorem State.incBy_err (f : FR) (n : Nat) : (s.incBy f n).err = s.err := (rfl)
@[simp] theorem State.incBy_mbx (f : FR) (n : Nat) : (s.incBy f n).mbx = s.mbx := (rfl)
@[simp] theorem State.incBy_smt (f : FR) (n : Nat) : (s.incBy f n).smt = s.smt := (rfl)
@[simp] theorem State.incBy_clo (f : FR) (n : Nat) : (s.incBy f n).clo = s.clo := (rfl)
@[simp] theorem State.incBy_jtag (f : FR) (n : Nat) : (s.incBy f n).jtag = s.jtag := (rfl)
@[simp] theorem State.incBy_spn (f : FR) (n : Nat) : (s.incBy f n).spn = s.spn := (rfl)
@[simp] theorem State.incBy_qre (f : FR) (n : Nat) : (s.incBy f n).qre = s.qre := (rfl)
@[simp] theorem State.incBy_gth (f : FR) (n : Nat) : (s.incBy f n).gth = s.gth := (rfl)
@[simp] theorem State.incBy_fir (f : FR) (n : Nat) : (s.incBy f n).fir = s.fir := (rfl)
@[simp] theorem State.incBy_pos (f : FR) (n : Nat) : (s.incBy f n).pos = s.pos := (rfl)
@[simp] theorem State.incBy_tmb (f : FR) (n : Nat) : (s.incBy f n).tmb = s.tmb := (rfl)
@[simp] theorem State.incBy_thl (f : FR) (n : Nat) : (s.incBy f n).thl = s.thl := (rfl)
@[simp] theorem State.incBy_nzh (f : FR) (n : Nat) : (s.incBy f n).nzh = s.nzh := (rfl)
@[simp] theorem State.incBy_ins (f : FR) (n : Nat) : (s.incBy f n).ins = s.ins := (rfl)
@[simp] theorem State.incBy_cal (f : FR) (n : Nat) : (s.incBy f n).cal = s.cal := (rfl)
@[simp] theorem State.incBy_fol (f : FR) (n : Nat) : (s.incBy f n).fol = s.fol := (rfl)
@[simp] theorem State.incBy_mem (f : FR) (n : Nat) : (s.incBy f n).mem = s.mem := (rfl)
@[simp] theorem State.incBy_sram (f : FR) (n : Nat) : (s.incBy f n).sram = s.sram := (rfl)

@[simp] theorem State.inc_pending (f : FR) : (s.inc f).pending = s.pending := (rfl)
@[simp] theorem State.inc_out (f : FR) : (s.inc f).out = s.out := (rfl)
@[simp] theorem State.inc_free (f : FR) : (s.inc f).free = s.free := (rfl)
@[simp] theorem State.inc_tb (f : FR) : (s.inc f).tb = s.tb := (rfl)
@[simp] theorem State.inc_tbFrac (f : FR) : (s.inc f).tbFrac = s.tbFrac := (rfl)
@[simp] theorem State.inc_ns (f : FR) : (s.inc f).ns = s.ns := (rfl)
@[simp] theorem State.inc_dev (f : FR) : (s.inc f).dev = s.dev := (rfl)
@[simp] theorem State.inc_prev (f : FR) : (s.inc f).prev = s.prev := (rfl)
@[simp] theorem State.inc_hrb (f : FR) : (s.inc f).hrb = s.hrb := (rfl)
@[simp] theorem State.inc_hrbFell (f : FR) : (s.inc f).hrbFell = s.hrbFell := (rfl)
@[simp] theorem State.inc_fuses (f : FR) : (s.inc f).fuses = s.fuses := (rfl)
@[simp] theorem State.inc_role (f : FR) : (s.inc f).role = s.role := (rfl)
@[simp] theorem State.inc_active (f : FR) : (s.inc f).active = s.active := (rfl)
@[simp] theorem State.inc_win (f : FR) : (s.inc f).win = s.win := (rfl)
@[simp] theorem State.inc_dram (f : FR) : (s.inc f).dram = s.dram := (rfl)
@[simp] theorem State.inc_err (f : FR) : (s.inc f).err = s.err := (rfl)
@[simp] theorem State.inc_mbx (f : FR) : (s.inc f).mbx = s.mbx := (rfl)
@[simp] theorem State.inc_smt (f : FR) : (s.inc f).smt = s.smt := (rfl)
@[simp] theorem State.inc_clo (f : FR) : (s.inc f).clo = s.clo := (rfl)
@[simp] theorem State.inc_jtag (f : FR) : (s.inc f).jtag = s.jtag := (rfl)
@[simp] theorem State.inc_spn (f : FR) : (s.inc f).spn = s.spn := (rfl)
@[simp] theorem State.inc_qre (f : FR) : (s.inc f).qre = s.qre := (rfl)
@[simp] theorem State.inc_gth (f : FR) : (s.inc f).gth = s.gth := (rfl)
@[simp] theorem State.inc_fir (f : FR) : (s.inc f).fir = s.fir := (rfl)
@[simp] theorem State.inc_pos (f : FR) : (s.inc f).pos = s.pos := (rfl)
@[simp] theorem State.inc_tmb (f : FR) : (s.inc f).tmb = s.tmb := (rfl)
@[simp] theorem State.inc_thl (f : FR) : (s.inc f).thl = s.thl := (rfl)
@[simp] theorem State.inc_nzh (f : FR) : (s.inc f).nzh = s.nzh := (rfl)
@[simp] theorem State.inc_ins (f : FR) : (s.inc f).ins = s.ins := (rfl)
@[simp] theorem State.inc_cal (f : FR) : (s.inc f).cal = s.cal := (rfl)
@[simp] theorem State.inc_fol (f : FR) : (s.inc f).fol = s.fol := (rfl)
@[simp] theorem State.inc_mem (f : FR) : (s.inc f).mem = s.mem := (rfl)
@[simp] theorem State.inc_sram (f : FR) : (s.inc f).sram = s.sram := (rfl)

@[simp] theorem State.emit_pending (o : Output) : (s.emit o).pending = s.pending := (rfl)
@[simp] theorem State.emit_free (o : Output) : (s.emit o).free = s.free := (rfl)
@[simp] theorem State.emit_tb (o : Output) : (s.emit o).tb = s.tb := (rfl)
@[simp] theorem State.emit_tbFrac (o : Output) : (s.emit o).tbFrac = s.tbFrac := (rfl)
@[simp] theorem State.emit_ns (o : Output) : (s.emit o).ns = s.ns := (rfl)
@[simp] theorem State.emit_dev (o : Output) : (s.emit o).dev = s.dev := (rfl)
@[simp] theorem State.emit_prev (o : Output) : (s.emit o).prev = s.prev := (rfl)
@[simp] theorem State.emit_hrb (o : Output) : (s.emit o).hrb = s.hrb := (rfl)
@[simp] theorem State.emit_hrbFell (o : Output) : (s.emit o).hrbFell = s.hrbFell := (rfl)
@[simp] theorem State.emit_fuses (o : Output) : (s.emit o).fuses = s.fuses := (rfl)
@[simp] theorem State.emit_role (o : Output) : (s.emit o).role = s.role := (rfl)
@[simp] theorem State.emit_regs (o : Output) : (s.emit o).regs = s.regs := (rfl)
@[simp] theorem State.emit_active (o : Output) : (s.emit o).active = s.active := (rfl)
@[simp] theorem State.emit_win (o : Output) : (s.emit o).win = s.win := (rfl)
@[simp] theorem State.emit_dram (o : Output) : (s.emit o).dram = s.dram := (rfl)
@[simp] theorem State.emit_err (o : Output) : (s.emit o).err = s.err := (rfl)
@[simp] theorem State.emit_mbx (o : Output) : (s.emit o).mbx = s.mbx := (rfl)
@[simp] theorem State.emit_smt (o : Output) : (s.emit o).smt = s.smt := (rfl)
@[simp] theorem State.emit_clo (o : Output) : (s.emit o).clo = s.clo := (rfl)
@[simp] theorem State.emit_jtag (o : Output) : (s.emit o).jtag = s.jtag := (rfl)
@[simp] theorem State.emit_spn (o : Output) : (s.emit o).spn = s.spn := (rfl)
@[simp] theorem State.emit_qre (o : Output) : (s.emit o).qre = s.qre := (rfl)
@[simp] theorem State.emit_gth (o : Output) : (s.emit o).gth = s.gth := (rfl)
@[simp] theorem State.emit_fir (o : Output) : (s.emit o).fir = s.fir := (rfl)
@[simp] theorem State.emit_pos (o : Output) : (s.emit o).pos = s.pos := (rfl)
@[simp] theorem State.emit_tmb (o : Output) : (s.emit o).tmb = s.tmb := (rfl)
@[simp] theorem State.emit_thl (o : Output) : (s.emit o).thl = s.thl := (rfl)
@[simp] theorem State.emit_nzh (o : Output) : (s.emit o).nzh = s.nzh := (rfl)
@[simp] theorem State.emit_ins (o : Output) : (s.emit o).ins = s.ins := (rfl)
@[simp] theorem State.emit_cal (o : Output) : (s.emit o).cal = s.cal := (rfl)
@[simp] theorem State.emit_fol (o : Output) : (s.emit o).fol = s.fol := (rfl)
@[simp] theorem State.emit_mem (o : Output) : (s.emit o).mem = s.mem := (rfl)
@[simp] theorem State.emit_sram (o : Output) : (s.emit o).sram = s.sram := (rfl)

@[simp] theorem State.latch_pending (b : Nat) : (s.latch b).pending = s.pending := (rfl)
@[simp] theorem State.latch_out (b : Nat) : (s.latch b).out = s.out := (rfl)
@[simp] theorem State.latch_free (b : Nat) : (s.latch b).free = s.free := (rfl)
@[simp] theorem State.latch_tb (b : Nat) : (s.latch b).tb = s.tb := (rfl)
@[simp] theorem State.latch_tbFrac (b : Nat) : (s.latch b).tbFrac = s.tbFrac := (rfl)
@[simp] theorem State.latch_ns (b : Nat) : (s.latch b).ns = s.ns := (rfl)
@[simp] theorem State.latch_dev (b : Nat) : (s.latch b).dev = s.dev := (rfl)
@[simp] theorem State.latch_prev (b : Nat) : (s.latch b).prev = s.prev := (rfl)
@[simp] theorem State.latch_hrb (b : Nat) : (s.latch b).hrb = s.hrb := (rfl)
@[simp] theorem State.latch_hrbFell (b : Nat) : (s.latch b).hrbFell = s.hrbFell := (rfl)
@[simp] theorem State.latch_fuses (b : Nat) : (s.latch b).fuses = s.fuses := (rfl)
@[simp] theorem State.latch_role (b : Nat) : (s.latch b).role = s.role := (rfl)
@[simp] theorem State.latch_active (b : Nat) : (s.latch b).active = s.active := (rfl)
@[simp] theorem State.latch_win (b : Nat) : (s.latch b).win = s.win := (rfl)
@[simp] theorem State.latch_dram (b : Nat) : (s.latch b).dram = s.dram := (rfl)
@[simp] theorem State.latch_err (b : Nat) : (s.latch b).err = s.err := (rfl)
@[simp] theorem State.latch_mbx (b : Nat) : (s.latch b).mbx = s.mbx := (rfl)
@[simp] theorem State.latch_smt (b : Nat) : (s.latch b).smt = s.smt := (rfl)
@[simp] theorem State.latch_clo (b : Nat) : (s.latch b).clo = s.clo := (rfl)
@[simp] theorem State.latch_jtag (b : Nat) : (s.latch b).jtag = s.jtag := (rfl)
@[simp] theorem State.latch_spn (b : Nat) : (s.latch b).spn = s.spn := (rfl)
@[simp] theorem State.latch_qre (b : Nat) : (s.latch b).qre = s.qre := (rfl)
@[simp] theorem State.latch_gth (b : Nat) : (s.latch b).gth = s.gth := (rfl)
@[simp] theorem State.latch_fir (b : Nat) : (s.latch b).fir = s.fir := (rfl)
@[simp] theorem State.latch_pos (b : Nat) : (s.latch b).pos = s.pos := (rfl)
@[simp] theorem State.latch_tmb (b : Nat) : (s.latch b).tmb = s.tmb := (rfl)
@[simp] theorem State.latch_thl (b : Nat) : (s.latch b).thl = s.thl := (rfl)
@[simp] theorem State.latch_nzh (b : Nat) : (s.latch b).nzh = s.nzh := (rfl)
@[simp] theorem State.latch_ins (b : Nat) : (s.latch b).ins = s.ins := (rfl)
@[simp] theorem State.latch_cal (b : Nat) : (s.latch b).cal = s.cal := (rfl)
@[simp] theorem State.latch_fol (b : Nat) : (s.latch b).fol = s.fol := (rfl)
@[simp] theorem State.latch_mem (b : Nat) : (s.latch b).mem = s.mem := (rfl)
@[simp] theorem State.latch_sram (b : Nat) : (s.latch b).sram = s.sram := (rfl)

@[simp] theorem State.modMach_pending (m : Nat) (f : SmtMach → SmtMach) : (s.modMach m f).pending = s.pending := (rfl)
@[simp] theorem State.modMach_out (m : Nat) (f : SmtMach → SmtMach) : (s.modMach m f).out = s.out := (rfl)
@[simp] theorem State.modMach_free (m : Nat) (f : SmtMach → SmtMach) : (s.modMach m f).free = s.free := (rfl)
@[simp] theorem State.modMach_tb (m : Nat) (f : SmtMach → SmtMach) : (s.modMach m f).tb = s.tb := (rfl)
@[simp] theorem State.modMach_tbFrac (m : Nat) (f : SmtMach → SmtMach) : (s.modMach m f).tbFrac = s.tbFrac := (rfl)
@[simp] theorem State.modMach_ns (m : Nat) (f : SmtMach → SmtMach) : (s.modMach m f).ns = s.ns := (rfl)
@[simp] theorem State.modMach_dev (m : Nat) (f : SmtMach → SmtMach) : (s.modMach m f).dev = s.dev := (rfl)
@[simp] theorem State.modMach_prev (m : Nat) (f : SmtMach → SmtMach) : (s.modMach m f).prev = s.prev := (rfl)
@[simp] theorem State.modMach_hrb (m : Nat) (f : SmtMach → SmtMach) : (s.modMach m f).hrb = s.hrb := (rfl)
@[simp] theorem State.modMach_hrbFell (m : Nat) (f : SmtMach → SmtMach) : (s.modMach m f).hrbFell = s.hrbFell := (rfl)
@[simp] theorem State.modMach_fuses (m : Nat) (f : SmtMach → SmtMach) : (s.modMach m f).fuses = s.fuses := (rfl)
@[simp] theorem State.modMach_role (m : Nat) (f : SmtMach → SmtMach) : (s.modMach m f).role = s.role := (rfl)
@[simp] theorem State.modMach_regs (m : Nat) (f : SmtMach → SmtMach) : (s.modMach m f).regs = s.regs := (rfl)
@[simp] theorem State.modMach_active (m : Nat) (f : SmtMach → SmtMach) : (s.modMach m f).active = s.active := (rfl)
@[simp] theorem State.modMach_win (m : Nat) (f : SmtMach → SmtMach) : (s.modMach m f).win = s.win := (rfl)
@[simp] theorem State.modMach_dram (m : Nat) (f : SmtMach → SmtMach) : (s.modMach m f).dram = s.dram := (rfl)
@[simp] theorem State.modMach_err (m : Nat) (f : SmtMach → SmtMach) : (s.modMach m f).err = s.err := (rfl)
@[simp] theorem State.modMach_mbx (m : Nat) (f : SmtMach → SmtMach) : (s.modMach m f).mbx = s.mbx := (rfl)
@[simp] theorem State.modMach_clo (m : Nat) (f : SmtMach → SmtMach) : (s.modMach m f).clo = s.clo := (rfl)
@[simp] theorem State.modMach_jtag (m : Nat) (f : SmtMach → SmtMach) : (s.modMach m f).jtag = s.jtag := (rfl)
@[simp] theorem State.modMach_spn (m : Nat) (f : SmtMach → SmtMach) : (s.modMach m f).spn = s.spn := (rfl)
@[simp] theorem State.modMach_qre (m : Nat) (f : SmtMach → SmtMach) : (s.modMach m f).qre = s.qre := (rfl)
@[simp] theorem State.modMach_gth (m : Nat) (f : SmtMach → SmtMach) : (s.modMach m f).gth = s.gth := (rfl)
@[simp] theorem State.modMach_fir (m : Nat) (f : SmtMach → SmtMach) : (s.modMach m f).fir = s.fir := (rfl)
@[simp] theorem State.modMach_pos (m : Nat) (f : SmtMach → SmtMach) : (s.modMach m f).pos = s.pos := (rfl)
@[simp] theorem State.modMach_tmb (m : Nat) (f : SmtMach → SmtMach) : (s.modMach m f).tmb = s.tmb := (rfl)
@[simp] theorem State.modMach_thl (m : Nat) (f : SmtMach → SmtMach) : (s.modMach m f).thl = s.thl := (rfl)
@[simp] theorem State.modMach_nzh (m : Nat) (f : SmtMach → SmtMach) : (s.modMach m f).nzh = s.nzh := (rfl)
@[simp] theorem State.modMach_ins (m : Nat) (f : SmtMach → SmtMach) : (s.modMach m f).ins = s.ins := (rfl)
@[simp] theorem State.modMach_cal (m : Nat) (f : SmtMach → SmtMach) : (s.modMach m f).cal = s.cal := (rfl)
@[simp] theorem State.modMach_fol (m : Nat) (f : SmtMach → SmtMach) : (s.modMach m f).fol = s.fol := (rfl)
@[simp] theorem State.modMach_mem (m : Nat) (f : SmtMach → SmtMach) : (s.modMach m f).mem = s.mem := (rfl)
@[simp] theorem State.modMach_sram (m : Nat) (f : SmtMach → SmtMach) : (s.modMach m f).sram = s.sram := (rfl)

@[simp] theorem State.modSc_pending (i : Nat) (f : ScSt → ScSt) : (s.modSc i f).pending = s.pending := (rfl)
@[simp] theorem State.modSc_out (i : Nat) (f : ScSt → ScSt) : (s.modSc i f).out = s.out := (rfl)
@[simp] theorem State.modSc_free (i : Nat) (f : ScSt → ScSt) : (s.modSc i f).free = s.free := (rfl)
@[simp] theorem State.modSc_tb (i : Nat) (f : ScSt → ScSt) : (s.modSc i f).tb = s.tb := (rfl)
@[simp] theorem State.modSc_tbFrac (i : Nat) (f : ScSt → ScSt) : (s.modSc i f).tbFrac = s.tbFrac := (rfl)
@[simp] theorem State.modSc_ns (i : Nat) (f : ScSt → ScSt) : (s.modSc i f).ns = s.ns := (rfl)
@[simp] theorem State.modSc_dev (i : Nat) (f : ScSt → ScSt) : (s.modSc i f).dev = s.dev := (rfl)
@[simp] theorem State.modSc_prev (i : Nat) (f : ScSt → ScSt) : (s.modSc i f).prev = s.prev := (rfl)
@[simp] theorem State.modSc_hrb (i : Nat) (f : ScSt → ScSt) : (s.modSc i f).hrb = s.hrb := (rfl)
@[simp] theorem State.modSc_hrbFell (i : Nat) (f : ScSt → ScSt) : (s.modSc i f).hrbFell = s.hrbFell := (rfl)
@[simp] theorem State.modSc_fuses (i : Nat) (f : ScSt → ScSt) : (s.modSc i f).fuses = s.fuses := (rfl)
@[simp] theorem State.modSc_role (i : Nat) (f : ScSt → ScSt) : (s.modSc i f).role = s.role := (rfl)
@[simp] theorem State.modSc_regs (i : Nat) (f : ScSt → ScSt) : (s.modSc i f).regs = s.regs := (rfl)
@[simp] theorem State.modSc_active (i : Nat) (f : ScSt → ScSt) : (s.modSc i f).active = s.active := (rfl)
@[simp] theorem State.modSc_win (i : Nat) (f : ScSt → ScSt) : (s.modSc i f).win = s.win := (rfl)
@[simp] theorem State.modSc_dram (i : Nat) (f : ScSt → ScSt) : (s.modSc i f).dram = s.dram := (rfl)
@[simp] theorem State.modSc_err (i : Nat) (f : ScSt → ScSt) : (s.modSc i f).err = s.err := (rfl)
@[simp] theorem State.modSc_mbx (i : Nat) (f : ScSt → ScSt) : (s.modSc i f).mbx = s.mbx := (rfl)
@[simp] theorem State.modSc_smt (i : Nat) (f : ScSt → ScSt) : (s.modSc i f).smt = s.smt := (rfl)
@[simp] theorem State.modSc_clo (i : Nat) (f : ScSt → ScSt) : (s.modSc i f).clo = s.clo := (rfl)
@[simp] theorem State.modSc_jtag (i : Nat) (f : ScSt → ScSt) : (s.modSc i f).jtag = s.jtag := (rfl)
@[simp] theorem State.modSc_spn (i : Nat) (f : ScSt → ScSt) : (s.modSc i f).spn = s.spn := (rfl)
@[simp] theorem State.modSc_qre (i : Nat) (f : ScSt → ScSt) : (s.modSc i f).qre = s.qre := (rfl)
@[simp] theorem State.modSc_gth (i : Nat) (f : ScSt → ScSt) : (s.modSc i f).gth = s.gth := (rfl)
@[simp] theorem State.modSc_fir (i : Nat) (f : ScSt → ScSt) : (s.modSc i f).fir = s.fir := (rfl)
@[simp] theorem State.modSc_pos (i : Nat) (f : ScSt → ScSt) : (s.modSc i f).pos = s.pos := (rfl)
@[simp] theorem State.modSc_tmb (i : Nat) (f : ScSt → ScSt) : (s.modSc i f).tmb = s.tmb := (rfl)
@[simp] theorem State.modSc_thl (i : Nat) (f : ScSt → ScSt) : (s.modSc i f).thl = s.thl := (rfl)
@[simp] theorem State.modSc_nzh (i : Nat) (f : ScSt → ScSt) : (s.modSc i f).nzh = s.nzh := (rfl)
@[simp] theorem State.modSc_ins (i : Nat) (f : ScSt → ScSt) : (s.modSc i f).ins = s.ins := (rfl)
@[simp] theorem State.modSc_cal (i : Nat) (f : ScSt → ScSt) : (s.modSc i f).cal = s.cal := (rfl)
@[simp] theorem State.modSc_fol (i : Nat) (f : ScSt → ScSt) : (s.modSc i f).fol = s.fol := (rfl)
@[simp] theorem State.modSc_sram (i : Nat) (f : ScSt → ScSt) : (s.modSc i f).sram = s.sram := (rfl)

@[simp] theorem State.modPort_pending (p : Nat) (f : Port → Port) : (s.modPort p f).pending = s.pending := (rfl)
@[simp] theorem State.modPort_out (p : Nat) (f : Port → Port) : (s.modPort p f).out = s.out := (rfl)
@[simp] theorem State.modPort_free (p : Nat) (f : Port → Port) : (s.modPort p f).free = s.free := (rfl)
@[simp] theorem State.modPort_tb (p : Nat) (f : Port → Port) : (s.modPort p f).tb = s.tb := (rfl)
@[simp] theorem State.modPort_tbFrac (p : Nat) (f : Port → Port) : (s.modPort p f).tbFrac = s.tbFrac := (rfl)
@[simp] theorem State.modPort_ns (p : Nat) (f : Port → Port) : (s.modPort p f).ns = s.ns := (rfl)
@[simp] theorem State.modPort_dev (p : Nat) (f : Port → Port) : (s.modPort p f).dev = s.dev := (rfl)
@[simp] theorem State.modPort_prev (p : Nat) (f : Port → Port) : (s.modPort p f).prev = s.prev := (rfl)
@[simp] theorem State.modPort_hrb (p : Nat) (f : Port → Port) : (s.modPort p f).hrb = s.hrb := (rfl)
@[simp] theorem State.modPort_hrbFell (p : Nat) (f : Port → Port) : (s.modPort p f).hrbFell = s.hrbFell := (rfl)
@[simp] theorem State.modPort_fuses (p : Nat) (f : Port → Port) : (s.modPort p f).fuses = s.fuses := (rfl)
@[simp] theorem State.modPort_role (p : Nat) (f : Port → Port) : (s.modPort p f).role = s.role := (rfl)
@[simp] theorem State.modPort_regs (p : Nat) (f : Port → Port) : (s.modPort p f).regs = s.regs := (rfl)
@[simp] theorem State.modPort_active (p : Nat) (f : Port → Port) : (s.modPort p f).active = s.active := (rfl)
@[simp] theorem State.modPort_win (p : Nat) (f : Port → Port) : (s.modPort p f).win = s.win := (rfl)
@[simp] theorem State.modPort_dram (p : Nat) (f : Port → Port) : (s.modPort p f).dram = s.dram := (rfl)
@[simp] theorem State.modPort_err (p : Nat) (f : Port → Port) : (s.modPort p f).err = s.err := (rfl)
@[simp] theorem State.modPort_mbx (p : Nat) (f : Port → Port) : (s.modPort p f).mbx = s.mbx := (rfl)
@[simp] theorem State.modPort_smt (p : Nat) (f : Port → Port) : (s.modPort p f).smt = s.smt := (rfl)
@[simp] theorem State.modPort_clo (p : Nat) (f : Port → Port) : (s.modPort p f).clo = s.clo := (rfl)
@[simp] theorem State.modPort_jtag (p : Nat) (f : Port → Port) : (s.modPort p f).jtag = s.jtag := (rfl)
@[simp] theorem State.modPort_qre (p : Nat) (f : Port → Port) : (s.modPort p f).qre = s.qre := (rfl)
@[simp] theorem State.modPort_gth (p : Nat) (f : Port → Port) : (s.modPort p f).gth = s.gth := (rfl)
@[simp] theorem State.modPort_fir (p : Nat) (f : Port → Port) : (s.modPort p f).fir = s.fir := (rfl)
@[simp] theorem State.modPort_pos (p : Nat) (f : Port → Port) : (s.modPort p f).pos = s.pos := (rfl)
@[simp] theorem State.modPort_tmb (p : Nat) (f : Port → Port) : (s.modPort p f).tmb = s.tmb := (rfl)
@[simp] theorem State.modPort_thl (p : Nat) (f : Port → Port) : (s.modPort p f).thl = s.thl := (rfl)
@[simp] theorem State.modPort_nzh (p : Nat) (f : Port → Port) : (s.modPort p f).nzh = s.nzh := (rfl)
@[simp] theorem State.modPort_ins (p : Nat) (f : Port → Port) : (s.modPort p f).ins = s.ins := (rfl)
@[simp] theorem State.modPort_cal (p : Nat) (f : Port → Port) : (s.modPort p f).cal = s.cal := (rfl)
@[simp] theorem State.modPort_fol (p : Nat) (f : Port → Port) : (s.modPort p f).fol = s.fol := (rfl)
@[simp] theorem State.modPort_mem (p : Nat) (f : Port → Port) : (s.modPort p f).mem = s.mem := (rfl)
@[simp] theorem State.modPort_sram (p : Nat) (f : Port → Port) : (s.modPort p f).sram = s.sram := (rfl)

@[simp] theorem State.modQre_pending (f : QreSt → QreSt) : (s.modQre f).pending = s.pending := (rfl)
@[simp] theorem State.modQre_out (f : QreSt → QreSt) : (s.modQre f).out = s.out := (rfl)
@[simp] theorem State.modQre_free (f : QreSt → QreSt) : (s.modQre f).free = s.free := (rfl)
@[simp] theorem State.modQre_tb (f : QreSt → QreSt) : (s.modQre f).tb = s.tb := (rfl)
@[simp] theorem State.modQre_tbFrac (f : QreSt → QreSt) : (s.modQre f).tbFrac = s.tbFrac := (rfl)
@[simp] theorem State.modQre_ns (f : QreSt → QreSt) : (s.modQre f).ns = s.ns := (rfl)
@[simp] theorem State.modQre_dev (f : QreSt → QreSt) : (s.modQre f).dev = s.dev := (rfl)
@[simp] theorem State.modQre_prev (f : QreSt → QreSt) : (s.modQre f).prev = s.prev := (rfl)
@[simp] theorem State.modQre_hrb (f : QreSt → QreSt) : (s.modQre f).hrb = s.hrb := (rfl)
@[simp] theorem State.modQre_hrbFell (f : QreSt → QreSt) : (s.modQre f).hrbFell = s.hrbFell := (rfl)
@[simp] theorem State.modQre_fuses (f : QreSt → QreSt) : (s.modQre f).fuses = s.fuses := (rfl)
@[simp] theorem State.modQre_role (f : QreSt → QreSt) : (s.modQre f).role = s.role := (rfl)
@[simp] theorem State.modQre_regs (f : QreSt → QreSt) : (s.modQre f).regs = s.regs := (rfl)
@[simp] theorem State.modQre_active (f : QreSt → QreSt) : (s.modQre f).active = s.active := (rfl)
@[simp] theorem State.modQre_win (f : QreSt → QreSt) : (s.modQre f).win = s.win := (rfl)
@[simp] theorem State.modQre_dram (f : QreSt → QreSt) : (s.modQre f).dram = s.dram := (rfl)
@[simp] theorem State.modQre_err (f : QreSt → QreSt) : (s.modQre f).err = s.err := (rfl)
@[simp] theorem State.modQre_mbx (f : QreSt → QreSt) : (s.modQre f).mbx = s.mbx := (rfl)
@[simp] theorem State.modQre_smt (f : QreSt → QreSt) : (s.modQre f).smt = s.smt := (rfl)
@[simp] theorem State.modQre_clo (f : QreSt → QreSt) : (s.modQre f).clo = s.clo := (rfl)
@[simp] theorem State.modQre_jtag (f : QreSt → QreSt) : (s.modQre f).jtag = s.jtag := (rfl)
@[simp] theorem State.modQre_spn (f : QreSt → QreSt) : (s.modQre f).spn = s.spn := (rfl)
@[simp] theorem State.modQre_gth (f : QreSt → QreSt) : (s.modQre f).gth = s.gth := (rfl)
@[simp] theorem State.modQre_fir (f : QreSt → QreSt) : (s.modQre f).fir = s.fir := (rfl)
@[simp] theorem State.modQre_pos (f : QreSt → QreSt) : (s.modQre f).pos = s.pos := (rfl)
@[simp] theorem State.modQre_tmb (f : QreSt → QreSt) : (s.modQre f).tmb = s.tmb := (rfl)
@[simp] theorem State.modQre_thl (f : QreSt → QreSt) : (s.modQre f).thl = s.thl := (rfl)
@[simp] theorem State.modQre_nzh (f : QreSt → QreSt) : (s.modQre f).nzh = s.nzh := (rfl)
@[simp] theorem State.modQre_ins (f : QreSt → QreSt) : (s.modQre f).ins = s.ins := (rfl)
@[simp] theorem State.modQre_cal (f : QreSt → QreSt) : (s.modQre f).cal = s.cal := (rfl)
@[simp] theorem State.modQre_fol (f : QreSt → QreSt) : (s.modQre f).fol = s.fol := (rfl)
@[simp] theorem State.modQre_mem (f : QreSt → QreSt) : (s.modQre f).mem = s.mem := (rfl)
@[simp] theorem State.modQre_sram (f : QreSt → QreSt) : (s.modQre f).sram = s.sram := (rfl)

@[simp] theorem State.modLane_pending (m : Nat) (f : Lane → Lane) : (s.modLane m f).pending = s.pending := (rfl)
@[simp] theorem State.modLane_out (m : Nat) (f : Lane → Lane) : (s.modLane m f).out = s.out := (rfl)
@[simp] theorem State.modLane_free (m : Nat) (f : Lane → Lane) : (s.modLane m f).free = s.free := (rfl)
@[simp] theorem State.modLane_tb (m : Nat) (f : Lane → Lane) : (s.modLane m f).tb = s.tb := (rfl)
@[simp] theorem State.modLane_tbFrac (m : Nat) (f : Lane → Lane) : (s.modLane m f).tbFrac = s.tbFrac := (rfl)
@[simp] theorem State.modLane_ns (m : Nat) (f : Lane → Lane) : (s.modLane m f).ns = s.ns := (rfl)
@[simp] theorem State.modLane_dev (m : Nat) (f : Lane → Lane) : (s.modLane m f).dev = s.dev := (rfl)
@[simp] theorem State.modLane_prev (m : Nat) (f : Lane → Lane) : (s.modLane m f).prev = s.prev := (rfl)
@[simp] theorem State.modLane_hrb (m : Nat) (f : Lane → Lane) : (s.modLane m f).hrb = s.hrb := (rfl)
@[simp] theorem State.modLane_hrbFell (m : Nat) (f : Lane → Lane) : (s.modLane m f).hrbFell = s.hrbFell := (rfl)
@[simp] theorem State.modLane_fuses (m : Nat) (f : Lane → Lane) : (s.modLane m f).fuses = s.fuses := (rfl)
@[simp] theorem State.modLane_role (m : Nat) (f : Lane → Lane) : (s.modLane m f).role = s.role := (rfl)
@[simp] theorem State.modLane_regs (m : Nat) (f : Lane → Lane) : (s.modLane m f).regs = s.regs := (rfl)
@[simp] theorem State.modLane_active (m : Nat) (f : Lane → Lane) : (s.modLane m f).active = s.active := (rfl)
@[simp] theorem State.modLane_win (m : Nat) (f : Lane → Lane) : (s.modLane m f).win = s.win := (rfl)
@[simp] theorem State.modLane_dram (m : Nat) (f : Lane → Lane) : (s.modLane m f).dram = s.dram := (rfl)
@[simp] theorem State.modLane_err (m : Nat) (f : Lane → Lane) : (s.modLane m f).err = s.err := (rfl)
@[simp] theorem State.modLane_mbx (m : Nat) (f : Lane → Lane) : (s.modLane m f).mbx = s.mbx := (rfl)
@[simp] theorem State.modLane_smt (m : Nat) (f : Lane → Lane) : (s.modLane m f).smt = s.smt := (rfl)
@[simp] theorem State.modLane_clo (m : Nat) (f : Lane → Lane) : (s.modLane m f).clo = s.clo := (rfl)
@[simp] theorem State.modLane_jtag (m : Nat) (f : Lane → Lane) : (s.modLane m f).jtag = s.jtag := (rfl)
@[simp] theorem State.modLane_spn (m : Nat) (f : Lane → Lane) : (s.modLane m f).spn = s.spn := (rfl)
@[simp] theorem State.modLane_qre (m : Nat) (f : Lane → Lane) : (s.modLane m f).qre = s.qre := (rfl)
@[simp] theorem State.modLane_gth (m : Nat) (f : Lane → Lane) : (s.modLane m f).gth = s.gth := (rfl)
@[simp] theorem State.modLane_fir (m : Nat) (f : Lane → Lane) : (s.modLane m f).fir = s.fir := (rfl)
@[simp] theorem State.modLane_pos (m : Nat) (f : Lane → Lane) : (s.modLane m f).pos = s.pos := (rfl)
@[simp] theorem State.modLane_tmb (m : Nat) (f : Lane → Lane) : (s.modLane m f).tmb = s.tmb := (rfl)
@[simp] theorem State.modLane_nzh (m : Nat) (f : Lane → Lane) : (s.modLane m f).nzh = s.nzh := (rfl)
@[simp] theorem State.modLane_ins (m : Nat) (f : Lane → Lane) : (s.modLane m f).ins = s.ins := (rfl)
@[simp] theorem State.modLane_cal (m : Nat) (f : Lane → Lane) : (s.modLane m f).cal = s.cal := (rfl)
@[simp] theorem State.modLane_fol (m : Nat) (f : Lane → Lane) : (s.modLane m f).fol = s.fol := (rfl)
@[simp] theorem State.modLane_mem (m : Nat) (f : Lane → Lane) : (s.modLane m f).mem = s.mem := (rfl)
@[simp] theorem State.modLane_sram (m : Nat) (f : Lane → Lane) : (s.modLane m f).sram = s.sram := (rfl)

@[simp] theorem State.modNzh_pending (f : NzhSt → NzhSt) : (s.modNzh f).pending = s.pending := (rfl)
@[simp] theorem State.modNzh_out (f : NzhSt → NzhSt) : (s.modNzh f).out = s.out := (rfl)
@[simp] theorem State.modNzh_free (f : NzhSt → NzhSt) : (s.modNzh f).free = s.free := (rfl)
@[simp] theorem State.modNzh_tb (f : NzhSt → NzhSt) : (s.modNzh f).tb = s.tb := (rfl)
@[simp] theorem State.modNzh_tbFrac (f : NzhSt → NzhSt) : (s.modNzh f).tbFrac = s.tbFrac := (rfl)
@[simp] theorem State.modNzh_ns (f : NzhSt → NzhSt) : (s.modNzh f).ns = s.ns := (rfl)
@[simp] theorem State.modNzh_dev (f : NzhSt → NzhSt) : (s.modNzh f).dev = s.dev := (rfl)
@[simp] theorem State.modNzh_prev (f : NzhSt → NzhSt) : (s.modNzh f).prev = s.prev := (rfl)
@[simp] theorem State.modNzh_hrb (f : NzhSt → NzhSt) : (s.modNzh f).hrb = s.hrb := (rfl)
@[simp] theorem State.modNzh_hrbFell (f : NzhSt → NzhSt) : (s.modNzh f).hrbFell = s.hrbFell := (rfl)
@[simp] theorem State.modNzh_fuses (f : NzhSt → NzhSt) : (s.modNzh f).fuses = s.fuses := (rfl)
@[simp] theorem State.modNzh_role (f : NzhSt → NzhSt) : (s.modNzh f).role = s.role := (rfl)
@[simp] theorem State.modNzh_regs (f : NzhSt → NzhSt) : (s.modNzh f).regs = s.regs := (rfl)
@[simp] theorem State.modNzh_active (f : NzhSt → NzhSt) : (s.modNzh f).active = s.active := (rfl)
@[simp] theorem State.modNzh_win (f : NzhSt → NzhSt) : (s.modNzh f).win = s.win := (rfl)
@[simp] theorem State.modNzh_dram (f : NzhSt → NzhSt) : (s.modNzh f).dram = s.dram := (rfl)
@[simp] theorem State.modNzh_err (f : NzhSt → NzhSt) : (s.modNzh f).err = s.err := (rfl)
@[simp] theorem State.modNzh_mbx (f : NzhSt → NzhSt) : (s.modNzh f).mbx = s.mbx := (rfl)
@[simp] theorem State.modNzh_smt (f : NzhSt → NzhSt) : (s.modNzh f).smt = s.smt := (rfl)
@[simp] theorem State.modNzh_clo (f : NzhSt → NzhSt) : (s.modNzh f).clo = s.clo := (rfl)
@[simp] theorem State.modNzh_jtag (f : NzhSt → NzhSt) : (s.modNzh f).jtag = s.jtag := (rfl)
@[simp] theorem State.modNzh_spn (f : NzhSt → NzhSt) : (s.modNzh f).spn = s.spn := (rfl)
@[simp] theorem State.modNzh_qre (f : NzhSt → NzhSt) : (s.modNzh f).qre = s.qre := (rfl)
@[simp] theorem State.modNzh_gth (f : NzhSt → NzhSt) : (s.modNzh f).gth = s.gth := (rfl)
@[simp] theorem State.modNzh_fir (f : NzhSt → NzhSt) : (s.modNzh f).fir = s.fir := (rfl)
@[simp] theorem State.modNzh_pos (f : NzhSt → NzhSt) : (s.modNzh f).pos = s.pos := (rfl)
@[simp] theorem State.modNzh_tmb (f : NzhSt → NzhSt) : (s.modNzh f).tmb = s.tmb := (rfl)
@[simp] theorem State.modNzh_thl (f : NzhSt → NzhSt) : (s.modNzh f).thl = s.thl := (rfl)
@[simp] theorem State.modNzh_ins (f : NzhSt → NzhSt) : (s.modNzh f).ins = s.ins := (rfl)
@[simp] theorem State.modNzh_cal (f : NzhSt → NzhSt) : (s.modNzh f).cal = s.cal := (rfl)
@[simp] theorem State.modNzh_fol (f : NzhSt → NzhSt) : (s.modNzh f).fol = s.fol := (rfl)
@[simp] theorem State.modNzh_mem (f : NzhSt → NzhSt) : (s.modNzh f).mem = s.mem := (rfl)
@[simp] theorem State.modNzh_sram (f : NzhSt → NzhSt) : (s.modNzh f).sram = s.sram := (rfl)

@[simp] theorem State.modIns_pending (f : InsSt → InsSt) : (s.modIns f).pending = s.pending := (rfl)
@[simp] theorem State.modIns_out (f : InsSt → InsSt) : (s.modIns f).out = s.out := (rfl)
@[simp] theorem State.modIns_free (f : InsSt → InsSt) : (s.modIns f).free = s.free := (rfl)
@[simp] theorem State.modIns_tb (f : InsSt → InsSt) : (s.modIns f).tb = s.tb := (rfl)
@[simp] theorem State.modIns_tbFrac (f : InsSt → InsSt) : (s.modIns f).tbFrac = s.tbFrac := (rfl)
@[simp] theorem State.modIns_ns (f : InsSt → InsSt) : (s.modIns f).ns = s.ns := (rfl)
@[simp] theorem State.modIns_dev (f : InsSt → InsSt) : (s.modIns f).dev = s.dev := (rfl)
@[simp] theorem State.modIns_prev (f : InsSt → InsSt) : (s.modIns f).prev = s.prev := (rfl)
@[simp] theorem State.modIns_hrb (f : InsSt → InsSt) : (s.modIns f).hrb = s.hrb := (rfl)
@[simp] theorem State.modIns_hrbFell (f : InsSt → InsSt) : (s.modIns f).hrbFell = s.hrbFell := (rfl)
@[simp] theorem State.modIns_fuses (f : InsSt → InsSt) : (s.modIns f).fuses = s.fuses := (rfl)
@[simp] theorem State.modIns_role (f : InsSt → InsSt) : (s.modIns f).role = s.role := (rfl)
@[simp] theorem State.modIns_regs (f : InsSt → InsSt) : (s.modIns f).regs = s.regs := (rfl)
@[simp] theorem State.modIns_active (f : InsSt → InsSt) : (s.modIns f).active = s.active := (rfl)
@[simp] theorem State.modIns_win (f : InsSt → InsSt) : (s.modIns f).win = s.win := (rfl)
@[simp] theorem State.modIns_dram (f : InsSt → InsSt) : (s.modIns f).dram = s.dram := (rfl)
@[simp] theorem State.modIns_err (f : InsSt → InsSt) : (s.modIns f).err = s.err := (rfl)
@[simp] theorem State.modIns_mbx (f : InsSt → InsSt) : (s.modIns f).mbx = s.mbx := (rfl)
@[simp] theorem State.modIns_smt (f : InsSt → InsSt) : (s.modIns f).smt = s.smt := (rfl)
@[simp] theorem State.modIns_clo (f : InsSt → InsSt) : (s.modIns f).clo = s.clo := (rfl)
@[simp] theorem State.modIns_jtag (f : InsSt → InsSt) : (s.modIns f).jtag = s.jtag := (rfl)
@[simp] theorem State.modIns_spn (f : InsSt → InsSt) : (s.modIns f).spn = s.spn := (rfl)
@[simp] theorem State.modIns_qre (f : InsSt → InsSt) : (s.modIns f).qre = s.qre := (rfl)
@[simp] theorem State.modIns_gth (f : InsSt → InsSt) : (s.modIns f).gth = s.gth := (rfl)
@[simp] theorem State.modIns_fir (f : InsSt → InsSt) : (s.modIns f).fir = s.fir := (rfl)
@[simp] theorem State.modIns_pos (f : InsSt → InsSt) : (s.modIns f).pos = s.pos := (rfl)
@[simp] theorem State.modIns_tmb (f : InsSt → InsSt) : (s.modIns f).tmb = s.tmb := (rfl)
@[simp] theorem State.modIns_thl (f : InsSt → InsSt) : (s.modIns f).thl = s.thl := (rfl)
@[simp] theorem State.modIns_nzh (f : InsSt → InsSt) : (s.modIns f).nzh = s.nzh := (rfl)
@[simp] theorem State.modIns_cal (f : InsSt → InsSt) : (s.modIns f).cal = s.cal := (rfl)
@[simp] theorem State.modIns_fol (f : InsSt → InsSt) : (s.modIns f).fol = s.fol := (rfl)
@[simp] theorem State.modIns_mem (f : InsSt → InsSt) : (s.modIns f).mem = s.mem := (rfl)
@[simp] theorem State.modIns_sram (f : InsSt → InsSt) : (s.modIns f).sram = s.sram := (rfl)

@[simp] theorem State.modCal_pending (f : CalSt → CalSt) : (s.modCal f).pending = s.pending := (rfl)
@[simp] theorem State.modCal_out (f : CalSt → CalSt) : (s.modCal f).out = s.out := (rfl)
@[simp] theorem State.modCal_free (f : CalSt → CalSt) : (s.modCal f).free = s.free := (rfl)
@[simp] theorem State.modCal_tb (f : CalSt → CalSt) : (s.modCal f).tb = s.tb := (rfl)
@[simp] theorem State.modCal_tbFrac (f : CalSt → CalSt) : (s.modCal f).tbFrac = s.tbFrac := (rfl)
@[simp] theorem State.modCal_ns (f : CalSt → CalSt) : (s.modCal f).ns = s.ns := (rfl)
@[simp] theorem State.modCal_dev (f : CalSt → CalSt) : (s.modCal f).dev = s.dev := (rfl)
@[simp] theorem State.modCal_prev (f : CalSt → CalSt) : (s.modCal f).prev = s.prev := (rfl)
@[simp] theorem State.modCal_hrb (f : CalSt → CalSt) : (s.modCal f).hrb = s.hrb := (rfl)
@[simp] theorem State.modCal_hrbFell (f : CalSt → CalSt) : (s.modCal f).hrbFell = s.hrbFell := (rfl)
@[simp] theorem State.modCal_fuses (f : CalSt → CalSt) : (s.modCal f).fuses = s.fuses := (rfl)
@[simp] theorem State.modCal_role (f : CalSt → CalSt) : (s.modCal f).role = s.role := (rfl)
@[simp] theorem State.modCal_regs (f : CalSt → CalSt) : (s.modCal f).regs = s.regs := (rfl)
@[simp] theorem State.modCal_active (f : CalSt → CalSt) : (s.modCal f).active = s.active := (rfl)
@[simp] theorem State.modCal_win (f : CalSt → CalSt) : (s.modCal f).win = s.win := (rfl)
@[simp] theorem State.modCal_dram (f : CalSt → CalSt) : (s.modCal f).dram = s.dram := (rfl)
@[simp] theorem State.modCal_err (f : CalSt → CalSt) : (s.modCal f).err = s.err := (rfl)
@[simp] theorem State.modCal_mbx (f : CalSt → CalSt) : (s.modCal f).mbx = s.mbx := (rfl)
@[simp] theorem State.modCal_smt (f : CalSt → CalSt) : (s.modCal f).smt = s.smt := (rfl)
@[simp] theorem State.modCal_clo (f : CalSt → CalSt) : (s.modCal f).clo = s.clo := (rfl)
@[simp] theorem State.modCal_jtag (f : CalSt → CalSt) : (s.modCal f).jtag = s.jtag := (rfl)
@[simp] theorem State.modCal_spn (f : CalSt → CalSt) : (s.modCal f).spn = s.spn := (rfl)
@[simp] theorem State.modCal_qre (f : CalSt → CalSt) : (s.modCal f).qre = s.qre := (rfl)
@[simp] theorem State.modCal_gth (f : CalSt → CalSt) : (s.modCal f).gth = s.gth := (rfl)
@[simp] theorem State.modCal_fir (f : CalSt → CalSt) : (s.modCal f).fir = s.fir := (rfl)
@[simp] theorem State.modCal_pos (f : CalSt → CalSt) : (s.modCal f).pos = s.pos := (rfl)
@[simp] theorem State.modCal_tmb (f : CalSt → CalSt) : (s.modCal f).tmb = s.tmb := (rfl)
@[simp] theorem State.modCal_thl (f : CalSt → CalSt) : (s.modCal f).thl = s.thl := (rfl)
@[simp] theorem State.modCal_nzh (f : CalSt → CalSt) : (s.modCal f).nzh = s.nzh := (rfl)
@[simp] theorem State.modCal_ins (f : CalSt → CalSt) : (s.modCal f).ins = s.ins := (rfl)
@[simp] theorem State.modCal_fol (f : CalSt → CalSt) : (s.modCal f).fol = s.fol := (rfl)
@[simp] theorem State.modCal_mem (f : CalSt → CalSt) : (s.modCal f).mem = s.mem := (rfl)
@[simp] theorem State.modCal_sram (f : CalSt → CalSt) : (s.modCal f).sram = s.sram := (rfl)

@[simp] theorem State.modFol_pending (f : FolSt → FolSt) : (s.modFol f).pending = s.pending := (rfl)
@[simp] theorem State.modFol_out (f : FolSt → FolSt) : (s.modFol f).out = s.out := (rfl)
@[simp] theorem State.modFol_free (f : FolSt → FolSt) : (s.modFol f).free = s.free := (rfl)
@[simp] theorem State.modFol_tb (f : FolSt → FolSt) : (s.modFol f).tb = s.tb := (rfl)
@[simp] theorem State.modFol_tbFrac (f : FolSt → FolSt) : (s.modFol f).tbFrac = s.tbFrac := (rfl)
@[simp] theorem State.modFol_ns (f : FolSt → FolSt) : (s.modFol f).ns = s.ns := (rfl)
@[simp] theorem State.modFol_dev (f : FolSt → FolSt) : (s.modFol f).dev = s.dev := (rfl)
@[simp] theorem State.modFol_prev (f : FolSt → FolSt) : (s.modFol f).prev = s.prev := (rfl)
@[simp] theorem State.modFol_hrb (f : FolSt → FolSt) : (s.modFol f).hrb = s.hrb := (rfl)
@[simp] theorem State.modFol_hrbFell (f : FolSt → FolSt) : (s.modFol f).hrbFell = s.hrbFell := (rfl)
@[simp] theorem State.modFol_fuses (f : FolSt → FolSt) : (s.modFol f).fuses = s.fuses := (rfl)
@[simp] theorem State.modFol_role (f : FolSt → FolSt) : (s.modFol f).role = s.role := (rfl)
@[simp] theorem State.modFol_regs (f : FolSt → FolSt) : (s.modFol f).regs = s.regs := (rfl)
@[simp] theorem State.modFol_active (f : FolSt → FolSt) : (s.modFol f).active = s.active := (rfl)
@[simp] theorem State.modFol_win (f : FolSt → FolSt) : (s.modFol f).win = s.win := (rfl)
@[simp] theorem State.modFol_dram (f : FolSt → FolSt) : (s.modFol f).dram = s.dram := (rfl)
@[simp] theorem State.modFol_err (f : FolSt → FolSt) : (s.modFol f).err = s.err := (rfl)
@[simp] theorem State.modFol_mbx (f : FolSt → FolSt) : (s.modFol f).mbx = s.mbx := (rfl)
@[simp] theorem State.modFol_smt (f : FolSt → FolSt) : (s.modFol f).smt = s.smt := (rfl)
@[simp] theorem State.modFol_clo (f : FolSt → FolSt) : (s.modFol f).clo = s.clo := (rfl)
@[simp] theorem State.modFol_jtag (f : FolSt → FolSt) : (s.modFol f).jtag = s.jtag := (rfl)
@[simp] theorem State.modFol_spn (f : FolSt → FolSt) : (s.modFol f).spn = s.spn := (rfl)
@[simp] theorem State.modFol_qre (f : FolSt → FolSt) : (s.modFol f).qre = s.qre := (rfl)
@[simp] theorem State.modFol_gth (f : FolSt → FolSt) : (s.modFol f).gth = s.gth := (rfl)
@[simp] theorem State.modFol_fir (f : FolSt → FolSt) : (s.modFol f).fir = s.fir := (rfl)
@[simp] theorem State.modFol_pos (f : FolSt → FolSt) : (s.modFol f).pos = s.pos := (rfl)
@[simp] theorem State.modFol_tmb (f : FolSt → FolSt) : (s.modFol f).tmb = s.tmb := (rfl)
@[simp] theorem State.modFol_thl (f : FolSt → FolSt) : (s.modFol f).thl = s.thl := (rfl)
@[simp] theorem State.modFol_nzh (f : FolSt → FolSt) : (s.modFol f).nzh = s.nzh := (rfl)
@[simp] theorem State.modFol_ins (f : FolSt → FolSt) : (s.modFol f).ins = s.ins := (rfl)
@[simp] theorem State.modFol_cal (f : FolSt → FolSt) : (s.modFol f).cal = s.cal := (rfl)
@[simp] theorem State.modFol_mem (f : FolSt → FolSt) : (s.modFol f).mem = s.mem := (rfl)
@[simp] theorem State.modFol_sram (f : FolSt → FolSt) : (s.modFol f).sram = s.sram := (rfl)

@[simp] theorem State.modTmb_pending (f : TmbSt → TmbSt) : (s.modTmb f).pending = s.pending := (rfl)
@[simp] theorem State.modTmb_out (f : TmbSt → TmbSt) : (s.modTmb f).out = s.out := (rfl)
@[simp] theorem State.modTmb_free (f : TmbSt → TmbSt) : (s.modTmb f).free = s.free := (rfl)
@[simp] theorem State.modTmb_tb (f : TmbSt → TmbSt) : (s.modTmb f).tb = s.tb := (rfl)
@[simp] theorem State.modTmb_tbFrac (f : TmbSt → TmbSt) : (s.modTmb f).tbFrac = s.tbFrac := (rfl)
@[simp] theorem State.modTmb_ns (f : TmbSt → TmbSt) : (s.modTmb f).ns = s.ns := (rfl)
@[simp] theorem State.modTmb_dev (f : TmbSt → TmbSt) : (s.modTmb f).dev = s.dev := (rfl)
@[simp] theorem State.modTmb_prev (f : TmbSt → TmbSt) : (s.modTmb f).prev = s.prev := (rfl)
@[simp] theorem State.modTmb_hrb (f : TmbSt → TmbSt) : (s.modTmb f).hrb = s.hrb := (rfl)
@[simp] theorem State.modTmb_hrbFell (f : TmbSt → TmbSt) : (s.modTmb f).hrbFell = s.hrbFell := (rfl)
@[simp] theorem State.modTmb_fuses (f : TmbSt → TmbSt) : (s.modTmb f).fuses = s.fuses := (rfl)
@[simp] theorem State.modTmb_role (f : TmbSt → TmbSt) : (s.modTmb f).role = s.role := (rfl)
@[simp] theorem State.modTmb_regs (f : TmbSt → TmbSt) : (s.modTmb f).regs = s.regs := (rfl)
@[simp] theorem State.modTmb_active (f : TmbSt → TmbSt) : (s.modTmb f).active = s.active := (rfl)
@[simp] theorem State.modTmb_win (f : TmbSt → TmbSt) : (s.modTmb f).win = s.win := (rfl)
@[simp] theorem State.modTmb_dram (f : TmbSt → TmbSt) : (s.modTmb f).dram = s.dram := (rfl)
@[simp] theorem State.modTmb_err (f : TmbSt → TmbSt) : (s.modTmb f).err = s.err := (rfl)
@[simp] theorem State.modTmb_mbx (f : TmbSt → TmbSt) : (s.modTmb f).mbx = s.mbx := (rfl)
@[simp] theorem State.modTmb_smt (f : TmbSt → TmbSt) : (s.modTmb f).smt = s.smt := (rfl)
@[simp] theorem State.modTmb_clo (f : TmbSt → TmbSt) : (s.modTmb f).clo = s.clo := (rfl)
@[simp] theorem State.modTmb_jtag (f : TmbSt → TmbSt) : (s.modTmb f).jtag = s.jtag := (rfl)
@[simp] theorem State.modTmb_spn (f : TmbSt → TmbSt) : (s.modTmb f).spn = s.spn := (rfl)
@[simp] theorem State.modTmb_qre (f : TmbSt → TmbSt) : (s.modTmb f).qre = s.qre := (rfl)
@[simp] theorem State.modTmb_gth (f : TmbSt → TmbSt) : (s.modTmb f).gth = s.gth := (rfl)
@[simp] theorem State.modTmb_fir (f : TmbSt → TmbSt) : (s.modTmb f).fir = s.fir := (rfl)
@[simp] theorem State.modTmb_pos (f : TmbSt → TmbSt) : (s.modTmb f).pos = s.pos := (rfl)
@[simp] theorem State.modTmb_thl (f : TmbSt → TmbSt) : (s.modTmb f).thl = s.thl := (rfl)
@[simp] theorem State.modTmb_nzh (f : TmbSt → TmbSt) : (s.modTmb f).nzh = s.nzh := (rfl)
@[simp] theorem State.modTmb_ins (f : TmbSt → TmbSt) : (s.modTmb f).ins = s.ins := (rfl)
@[simp] theorem State.modTmb_cal (f : TmbSt → TmbSt) : (s.modTmb f).cal = s.cal := (rfl)
@[simp] theorem State.modTmb_fol (f : TmbSt → TmbSt) : (s.modTmb f).fol = s.fol := (rfl)
@[simp] theorem State.modTmb_mem (f : TmbSt → TmbSt) : (s.modTmb f).mem = s.mem := (rfl)
@[simp] theorem State.modTmb_sram (f : TmbSt → TmbSt) : (s.modTmb f).sram = s.sram := (rfl)

@[simp] theorem State.modClo_pending (f : CloSt → CloSt) : (s.modClo f).pending = s.pending := (rfl)
@[simp] theorem State.modClo_out (f : CloSt → CloSt) : (s.modClo f).out = s.out := (rfl)
@[simp] theorem State.modClo_free (f : CloSt → CloSt) : (s.modClo f).free = s.free := (rfl)
@[simp] theorem State.modClo_tb (f : CloSt → CloSt) : (s.modClo f).tb = s.tb := (rfl)
@[simp] theorem State.modClo_tbFrac (f : CloSt → CloSt) : (s.modClo f).tbFrac = s.tbFrac := (rfl)
@[simp] theorem State.modClo_ns (f : CloSt → CloSt) : (s.modClo f).ns = s.ns := (rfl)
@[simp] theorem State.modClo_dev (f : CloSt → CloSt) : (s.modClo f).dev = s.dev := (rfl)
@[simp] theorem State.modClo_prev (f : CloSt → CloSt) : (s.modClo f).prev = s.prev := (rfl)
@[simp] theorem State.modClo_hrb (f : CloSt → CloSt) : (s.modClo f).hrb = s.hrb := (rfl)
@[simp] theorem State.modClo_hrbFell (f : CloSt → CloSt) : (s.modClo f).hrbFell = s.hrbFell := (rfl)
@[simp] theorem State.modClo_fuses (f : CloSt → CloSt) : (s.modClo f).fuses = s.fuses := (rfl)
@[simp] theorem State.modClo_role (f : CloSt → CloSt) : (s.modClo f).role = s.role := (rfl)
@[simp] theorem State.modClo_regs (f : CloSt → CloSt) : (s.modClo f).regs = s.regs := (rfl)
@[simp] theorem State.modClo_active (f : CloSt → CloSt) : (s.modClo f).active = s.active := (rfl)
@[simp] theorem State.modClo_win (f : CloSt → CloSt) : (s.modClo f).win = s.win := (rfl)
@[simp] theorem State.modClo_dram (f : CloSt → CloSt) : (s.modClo f).dram = s.dram := (rfl)
@[simp] theorem State.modClo_err (f : CloSt → CloSt) : (s.modClo f).err = s.err := (rfl)
@[simp] theorem State.modClo_mbx (f : CloSt → CloSt) : (s.modClo f).mbx = s.mbx := (rfl)
@[simp] theorem State.modClo_smt (f : CloSt → CloSt) : (s.modClo f).smt = s.smt := (rfl)
@[simp] theorem State.modClo_jtag (f : CloSt → CloSt) : (s.modClo f).jtag = s.jtag := (rfl)
@[simp] theorem State.modClo_spn (f : CloSt → CloSt) : (s.modClo f).spn = s.spn := (rfl)
@[simp] theorem State.modClo_qre (f : CloSt → CloSt) : (s.modClo f).qre = s.qre := (rfl)
@[simp] theorem State.modClo_gth (f : CloSt → CloSt) : (s.modClo f).gth = s.gth := (rfl)
@[simp] theorem State.modClo_fir (f : CloSt → CloSt) : (s.modClo f).fir = s.fir := (rfl)
@[simp] theorem State.modClo_pos (f : CloSt → CloSt) : (s.modClo f).pos = s.pos := (rfl)
@[simp] theorem State.modClo_tmb (f : CloSt → CloSt) : (s.modClo f).tmb = s.tmb := (rfl)
@[simp] theorem State.modClo_thl (f : CloSt → CloSt) : (s.modClo f).thl = s.thl := (rfl)
@[simp] theorem State.modClo_nzh (f : CloSt → CloSt) : (s.modClo f).nzh = s.nzh := (rfl)
@[simp] theorem State.modClo_ins (f : CloSt → CloSt) : (s.modClo f).ins = s.ins := (rfl)
@[simp] theorem State.modClo_cal (f : CloSt → CloSt) : (s.modClo f).cal = s.cal := (rfl)
@[simp] theorem State.modClo_fol (f : CloSt → CloSt) : (s.modClo f).fol = s.fol := (rfl)
@[simp] theorem State.modClo_mem (f : CloSt → CloSt) : (s.modClo f).mem = s.mem := (rfl)
@[simp] theorem State.modClo_sram (f : CloSt → CloSt) : (s.modClo f).sram = s.sram := (rfl)

@[simp] theorem State.modFen_pending (m : Nat) (f : Fen → Fen) : (s.modFen m f).pending = s.pending := (rfl)
@[simp] theorem State.modFen_out (m : Nat) (f : Fen → Fen) : (s.modFen m f).out = s.out := (rfl)
@[simp] theorem State.modFen_free (m : Nat) (f : Fen → Fen) : (s.modFen m f).free = s.free := (rfl)
@[simp] theorem State.modFen_tb (m : Nat) (f : Fen → Fen) : (s.modFen m f).tb = s.tb := (rfl)
@[simp] theorem State.modFen_tbFrac (m : Nat) (f : Fen → Fen) : (s.modFen m f).tbFrac = s.tbFrac := (rfl)
@[simp] theorem State.modFen_ns (m : Nat) (f : Fen → Fen) : (s.modFen m f).ns = s.ns := (rfl)
@[simp] theorem State.modFen_dev (m : Nat) (f : Fen → Fen) : (s.modFen m f).dev = s.dev := (rfl)
@[simp] theorem State.modFen_prev (m : Nat) (f : Fen → Fen) : (s.modFen m f).prev = s.prev := (rfl)
@[simp] theorem State.modFen_hrb (m : Nat) (f : Fen → Fen) : (s.modFen m f).hrb = s.hrb := (rfl)
@[simp] theorem State.modFen_hrbFell (m : Nat) (f : Fen → Fen) : (s.modFen m f).hrbFell = s.hrbFell := (rfl)
@[simp] theorem State.modFen_fuses (m : Nat) (f : Fen → Fen) : (s.modFen m f).fuses = s.fuses := (rfl)
@[simp] theorem State.modFen_role (m : Nat) (f : Fen → Fen) : (s.modFen m f).role = s.role := (rfl)
@[simp] theorem State.modFen_regs (m : Nat) (f : Fen → Fen) : (s.modFen m f).regs = s.regs := (rfl)
@[simp] theorem State.modFen_active (m : Nat) (f : Fen → Fen) : (s.modFen m f).active = s.active := (rfl)
@[simp] theorem State.modFen_win (m : Nat) (f : Fen → Fen) : (s.modFen m f).win = s.win := (rfl)
@[simp] theorem State.modFen_dram (m : Nat) (f : Fen → Fen) : (s.modFen m f).dram = s.dram := (rfl)
@[simp] theorem State.modFen_err (m : Nat) (f : Fen → Fen) : (s.modFen m f).err = s.err := (rfl)
@[simp] theorem State.modFen_mbx (m : Nat) (f : Fen → Fen) : (s.modFen m f).mbx = s.mbx := (rfl)
@[simp] theorem State.modFen_smt (m : Nat) (f : Fen → Fen) : (s.modFen m f).smt = s.smt := (rfl)
@[simp] theorem State.modFen_clo (m : Nat) (f : Fen → Fen) : (s.modFen m f).clo = s.clo := (rfl)
@[simp] theorem State.modFen_jtag (m : Nat) (f : Fen → Fen) : (s.modFen m f).jtag = s.jtag := (rfl)
@[simp] theorem State.modFen_spn (m : Nat) (f : Fen → Fen) : (s.modFen m f).spn = s.spn := (rfl)
@[simp] theorem State.modFen_qre (m : Nat) (f : Fen → Fen) : (s.modFen m f).qre = s.qre := (rfl)
@[simp] theorem State.modFen_gth (m : Nat) (f : Fen → Fen) : (s.modFen m f).gth = s.gth := (rfl)
@[simp] theorem State.modFen_pos (m : Nat) (f : Fen → Fen) : (s.modFen m f).pos = s.pos := (rfl)
@[simp] theorem State.modFen_tmb (m : Nat) (f : Fen → Fen) : (s.modFen m f).tmb = s.tmb := (rfl)
@[simp] theorem State.modFen_thl (m : Nat) (f : Fen → Fen) : (s.modFen m f).thl = s.thl := (rfl)
@[simp] theorem State.modFen_nzh (m : Nat) (f : Fen → Fen) : (s.modFen m f).nzh = s.nzh := (rfl)
@[simp] theorem State.modFen_ins (m : Nat) (f : Fen → Fen) : (s.modFen m f).ins = s.ins := (rfl)
@[simp] theorem State.modFen_cal (m : Nat) (f : Fen → Fen) : (s.modFen m f).cal = s.cal := (rfl)
@[simp] theorem State.modFen_fol (m : Nat) (f : Fen → Fen) : (s.modFen m f).fol = s.fol := (rfl)
@[simp] theorem State.modFen_mem (m : Nat) (f : Fen → Fen) : (s.modFen m f).mem = s.mem := (rfl)
@[simp] theorem State.modFen_sram (m : Nat) (f : Fen → Fen) : (s.modFen m f).sram = s.sram := (rfl)

@[simp] theorem State.modCur_pending (f : CurSig → CurSig) : (s.modCur f).pending = s.pending := (rfl)
@[simp] theorem State.modCur_out (f : CurSig → CurSig) : (s.modCur f).out = s.out := (rfl)
@[simp] theorem State.modCur_free (f : CurSig → CurSig) : (s.modCur f).free = s.free := (rfl)
@[simp] theorem State.modCur_tb (f : CurSig → CurSig) : (s.modCur f).tb = s.tb := (rfl)
@[simp] theorem State.modCur_tbFrac (f : CurSig → CurSig) : (s.modCur f).tbFrac = s.tbFrac := (rfl)
@[simp] theorem State.modCur_ns (f : CurSig → CurSig) : (s.modCur f).ns = s.ns := (rfl)
@[simp] theorem State.modCur_dev (f : CurSig → CurSig) : (s.modCur f).dev = s.dev := (rfl)
@[simp] theorem State.modCur_prev (f : CurSig → CurSig) : (s.modCur f).prev = s.prev := (rfl)
@[simp] theorem State.modCur_hrb (f : CurSig → CurSig) : (s.modCur f).hrb = s.hrb := (rfl)
@[simp] theorem State.modCur_hrbFell (f : CurSig → CurSig) : (s.modCur f).hrbFell = s.hrbFell := (rfl)
@[simp] theorem State.modCur_fuses (f : CurSig → CurSig) : (s.modCur f).fuses = s.fuses := (rfl)
@[simp] theorem State.modCur_role (f : CurSig → CurSig) : (s.modCur f).role = s.role := (rfl)
@[simp] theorem State.modCur_regs (f : CurSig → CurSig) : (s.modCur f).regs = s.regs := (rfl)
@[simp] theorem State.modCur_active (f : CurSig → CurSig) : (s.modCur f).active = s.active := (rfl)
@[simp] theorem State.modCur_win (f : CurSig → CurSig) : (s.modCur f).win = s.win := (rfl)
@[simp] theorem State.modCur_dram (f : CurSig → CurSig) : (s.modCur f).dram = s.dram := (rfl)
@[simp] theorem State.modCur_err (f : CurSig → CurSig) : (s.modCur f).err = s.err := (rfl)
@[simp] theorem State.modCur_mbx (f : CurSig → CurSig) : (s.modCur f).mbx = s.mbx := (rfl)
@[simp] theorem State.modCur_smt (f : CurSig → CurSig) : (s.modCur f).smt = s.smt := (rfl)
@[simp] theorem State.modCur_clo (f : CurSig → CurSig) : (s.modCur f).clo = s.clo := (rfl)
@[simp] theorem State.modCur_jtag (f : CurSig → CurSig) : (s.modCur f).jtag = s.jtag := (rfl)
@[simp] theorem State.modCur_spn (f : CurSig → CurSig) : (s.modCur f).spn = s.spn := (rfl)
@[simp] theorem State.modCur_qre (f : CurSig → CurSig) : (s.modCur f).qre = s.qre := (rfl)
@[simp] theorem State.modCur_fir (f : CurSig → CurSig) : (s.modCur f).fir = s.fir := (rfl)
@[simp] theorem State.modCur_pos (f : CurSig → CurSig) : (s.modCur f).pos = s.pos := (rfl)
@[simp] theorem State.modCur_tmb (f : CurSig → CurSig) : (s.modCur f).tmb = s.tmb := (rfl)
@[simp] theorem State.modCur_thl (f : CurSig → CurSig) : (s.modCur f).thl = s.thl := (rfl)
@[simp] theorem State.modCur_nzh (f : CurSig → CurSig) : (s.modCur f).nzh = s.nzh := (rfl)
@[simp] theorem State.modCur_ins (f : CurSig → CurSig) : (s.modCur f).ins = s.ins := (rfl)
@[simp] theorem State.modCur_cal (f : CurSig → CurSig) : (s.modCur f).cal = s.cal := (rfl)
@[simp] theorem State.modCur_fol (f : CurSig → CurSig) : (s.modCur f).fol = s.fol := (rfl)
@[simp] theorem State.modCur_mem (f : CurSig → CurSig) : (s.modCur f).mem = s.mem := (rfl)
@[simp] theorem State.modCur_sram (f : CurSig → CurSig) : (s.modCur f).sram = s.sram := (rfl)

@[simp] theorem State.begun_pending : (s.begun).pending = s.pending := (rfl)
@[simp] theorem State.begun_free : (s.begun).free = s.free := (rfl)
@[simp] theorem State.begun_tb : (s.begun).tb = s.tb := (rfl)
@[simp] theorem State.begun_tbFrac : (s.begun).tbFrac = s.tbFrac := (rfl)
@[simp] theorem State.begun_ns : (s.begun).ns = s.ns := (rfl)
@[simp] theorem State.begun_dev : (s.begun).dev = s.dev := (rfl)
@[simp] theorem State.begun_prev : (s.begun).prev = s.prev := (rfl)
@[simp] theorem State.begun_hrb : (s.begun).hrb = s.hrb := (rfl)
@[simp] theorem State.begun_hrbFell : (s.begun).hrbFell = s.hrbFell := (rfl)
@[simp] theorem State.begun_fuses : (s.begun).fuses = s.fuses := (rfl)
@[simp] theorem State.begun_role : (s.begun).role = s.role := (rfl)
@[simp] theorem State.begun_regs : (s.begun).regs = s.regs := (rfl)
@[simp] theorem State.begun_active : (s.begun).active = s.active := (rfl)
@[simp] theorem State.begun_win : (s.begun).win = s.win := (rfl)
@[simp] theorem State.begun_dram : (s.begun).dram = s.dram := (rfl)
@[simp] theorem State.begun_mbx : (s.begun).mbx = s.mbx := (rfl)
@[simp] theorem State.begun_smt : (s.begun).smt = s.smt := (rfl)
@[simp] theorem State.begun_clo : (s.begun).clo = s.clo := (rfl)
@[simp] theorem State.begun_jtag : (s.begun).jtag = s.jtag := (rfl)
@[simp] theorem State.begun_spn : (s.begun).spn = s.spn := (rfl)
@[simp] theorem State.begun_qre : (s.begun).qre = s.qre := (rfl)
@[simp] theorem State.begun_gth : (s.begun).gth = s.gth := (rfl)
@[simp] theorem State.begun_fir : (s.begun).fir = s.fir := (rfl)
@[simp] theorem State.begun_pos : (s.begun).pos = s.pos := (rfl)
@[simp] theorem State.begun_tmb : (s.begun).tmb = s.tmb := (rfl)
@[simp] theorem State.begun_thl : (s.begun).thl = s.thl := (rfl)
@[simp] theorem State.begun_nzh : (s.begun).nzh = s.nzh := (rfl)
@[simp] theorem State.begun_ins : (s.begun).ins = s.ins := (rfl)
@[simp] theorem State.begun_cal : (s.begun).cal = s.cal := (rfl)
@[simp] theorem State.begun_fol : (s.begun).fol = s.fol := (rfl)
@[simp] theorem State.begun_mem : (s.begun).mem = s.mem := (rfl)
@[simp] theorem State.begun_sram : (s.begun).sram = s.sram := (rfl)

@[simp] theorem State.begun_out : s.begun.out = [] := (rfl)
@[simp] theorem State.begun_log : s.begun.err.log = s.err.log := (rfl)
@[simp] theorem State.begun_opened : s.begun.err.opened = s.err.opened := (rfl)
@[simp] theorem State.begun_inj : s.begun.err.inj = s.err.inj := (rfl)
@[simp] theorem State.begun_reg (a : Nat) : s.begun.reg a = s.reg a := (rfl)
@[simp] theorem State.begun_g (f : FR) : s.begun.g f = s.g f := (rfl)
@[simp] theorem State.begun_gb (f : FR) : s.begun.gb f = s.gb f := (rfl)
@[simp] theorem State.after_pending (x : State) : (s.after x).pending = s.pending := (rfl)

end Sys2Proof.Machine
end

