-- ==== Sys2Proof/Laws/Begun.lean ====
section
/-!
SUPPORT. What is read from a state at the beginning of a command is what is read from the state before it.
-/

namespace Sys2Proof.Machine

variable (s : State)

@[simp] theorem State.begun_trimsDone (m : Nat) : s.begun.trimsDone m = s.trimsDone m := (rfl)
@[simp] theorem State.begun_calStaged (m : Nat) : s.begun.calStaged m = s.calStaged m := (rfl)
@[simp] theorem State.begun_settle : s.begun.settle = s.settle := (rfl)
@[simp] theorem State.begun_eligible (m q : Nat) : s.begun.eligible m q = s.eligible m q := (rfl)
@[simp] theorem State.begun_tempSum (m : Nat) : s.begun.tempSum m = s.tempSum m := (rfl)
@[simp] theorem State.begun_tempMoved (m : Nat) : s.begun.tempMoved m = s.tempMoved m := (rfl)
@[simp] theorem State.begun_publishes : s.begun.publishes = s.publishes := (rfl)
@[simp] theorem State.begun_chansOf (m : Nat) : s.begun.chansOf m = s.chansOf m := (rfl)
@[simp] theorem State.begun_chain (c : Nat) : s.begun.chain c = s.chain c := (rfl)
@[simp] theorem State.begun_nbDelta (recs : List (Nat × List Int)) (d : Deltas) (c : Option Col) : s.begun.nbDelta recs d c = s.nbDelta recs d c := (rfl)
@[simp] theorem State.begun_nbSen (recs : List (Nat × List Int)) (c : Option Col) : s.begun.nbSen recs c = s.nbSen recs c := (rfl)
@[simp] theorem State.begun_sweepChain (dd kk : Int) (recs : List (Nat × List Int)) (ch : List Col) (d : Deltas) : s.begun.sweepChain dd kk recs ch d = s.sweepChain dd kk recs ch d := (rfl)
@[simp] theorem State.begun_solveChain (recs : List (Nat × List Int)) (c : Nat) : s.begun.solveChain recs c = s.solveChain recs c := (rfl)
@[simp] theorem State.begun_pubNozzle (m q : Nat) (d : Int) : s.begun.pubNozzle m q d = s.pubNozzle m q d := (rfl)
@[simp] theorem State.begun_sigma2 (r : List Int) : s.begun.sigma2 r = s.sigma2 r := (rfl)
@[simp] theorem State.begun_sampledMods (c : Nat) : s.begun.sampledMods c = s.sampledMods c := (rfl)
@[simp] theorem State.begun_streakDead (t : Stat) : s.begun.streakDead t = s.streakDead t := (rfl)
@[simp] theorem State.begun_bandEntries (sig : Nat) (rev : Bool) (lines : Nat → List PtLine) (e : PtLine) : s.begun.bandEntries sig rev lines e = s.bandEntries sig rev lines e := (rfl)
@[simp] theorem State.begun_modRow (f : CamFrame) (a : Anchor) (lines : Nat → List PtLine) (i m : Nat) : s.begun.modRow f a lines i m = s.modRow f a lines i m := (rfl)
@[simp] theorem State.begun_camMods : s.begun.camMods = s.camMods := (rfl)
@[simp] theorem State.begun_colIn (c : Col) : s.begun.colIn c = s.colIn c := (rfl)
@[simp] theorem State.begun_register (f : CamFrame) (z : Piped) (reg : List (Int × Nat × Nat × Nat)) : s.begun.register f z reg = s.register f z reg := (rfl)
@[simp] theorem State.begun_stat (i : Nat) : s.begun.stat i = s.stat i := (rfl)
@[simp] theorem State.begun_sub (n x : Nat) : s.begun.sub n x = s.sub n x := (rfl)
@[simp] theorem State.begun_bBundle (m : Nat) : s.begun.bBundle m = s.bBundle m := (rfl)
@[simp] theorem State.begun_tG : s.begun.tG = s.tG := (rfl)
@[simp] theorem State.begun_mBundle (m : Nat) : s.begun.mBundle m = s.mBundle m := (rfl)
@[simp] theorem State.begun_ratedMods : s.begun.ratedMods = s.ratedMods := (rfl)
@[simp] theorem State.begun_ringOff (n : Nat) : s.begun.ringOff n = s.ringOff n := (rfl)
@[simp] theorem State.begun_typesUsed : s.begun.typesUsed = s.typesUsed := (rfl)
@[simp] theorem State.begun_checksGather : s.begun.checksGather = s.checksGather := (rfl)
@[simp] theorem State.begun_checksFire : s.begun.checksFire = s.checksFire := (rfl)
@[simp] theorem State.begun_checksPos : s.begun.checksPos = s.checksPos := (rfl)
@[simp] theorem State.begun_checksLane : s.begun.checksLane = s.checksLane := (rfl)
@[simp] theorem State.begun_checksImage : s.begun.checksImage = s.checksImage := (rfl)
@[simp] theorem State.begun_checksSystem : s.begun.checksSystem = s.checksSystem := (rfl)
@[simp] theorem State.begun_runFails : s.begun.runFails = s.runFails := (rfl)
@[simp] theorem State.begun_khNow : s.begun.khNow = s.khNow := (rfl)
@[simp] theorem State.begun_pageCtx (a : Nat) : s.begun.pageCtx a = s.pageCtx a := (rfl)
@[simp] theorem State.begun_owed (i k : Nat) : s.begun.owed i k = s.owed i k := (rfl)
@[simp] theorem State.begun_postMax : s.begun.postMax = s.postMax := (rfl)
@[simp] theorem State.begun_scLive (i : Nat) : s.begun.scLive i = s.scLive i := (rfl)
@[simp] theorem State.begun_hasRank (k : Nat) : s.begun.hasRank k = s.hasRank k := (rfl)
@[simp] theorem State.begun_scCws : s.begun.scCws = s.scCws := (rfl)
@[simp] theorem State.begun_scAddr (i n : Nat) : s.begun.scAddr i n = s.scAddr i n := (rfl)
@[simp] theorem State.begun_attestBody (challenge : Bytes) : s.begun.attestBody challenge = s.attestBody challenge := (rfl)
@[simp] theorem State.begun_idcode : s.begun.idcode = s.idcode := (rfl)
@[simp] theorem State.begun_jtagLive : s.begun.jtagLive = s.jtagLive := (rfl)
@[simp] theorem State.begun_recOpen (i : Nat) : s.begun.recOpen i = s.recOpen i := (rfl)
@[simp] theorem State.begun_logIndexOf (k : Nat) : s.begun.logIndexOf k = s.logIndexOf k := (rfl)
@[simp] theorem State.begun_logSlot (k : Nat) : s.begun.logSlot k = s.logSlot k := (rfl)
@[simp] theorem State.begun_injLeft (id arg : Nat) : s.begun.injLeft id arg = s.injLeft id arg := (rfl)
@[simp] theorem State.begun_frameOf (lfn : Nat) : s.begun.frameOf lfn = s.frameOf lfn := (rfl)
@[simp] theorem State.begun_ctxFrame (m lfn : Nat) : s.begun.ctxFrame m lfn = s.ctxFrame m lfn := (rfl)
@[simp] theorem State.begun_isHot (m : Nat) : s.begun.isHot m = s.isHot m := (rfl)
@[simp] theorem State.begun_anyHot : s.begun.anyHot = s.anyHot := (rfl)
@[simp] theorem State.begun_report (m k : Nat) : s.begun.report m k = s.report m k := (rfl)
@[simp] theorem State.begun_reportDue (m k : Nat) : s.begun.reportDue m k = s.reportDue m k := (rfl)
@[simp] theorem State.begun_hotFor (k : Nat) : s.begun.hotFor k = s.hotFor k := (rfl)
@[simp] theorem State.begun_holdNow : s.begun.holdNow = s.holdNow := (rfl)
@[simp] theorem State.begun_lineHeld (x : Line) : s.begun.lineHeld x = s.lineHeld x := (rfl)
@[simp] theorem State.begun_ptIdx (i : Nat) : s.begun.ptIdx i = s.ptIdx i := (rfl)
@[simp] theorem State.begun_lastFall (m : Nat) : s.begun.lastFall m = s.lastFall m := (rfl)
@[simp] theorem State.begun_nextFire (m : Nat) : s.begun.nextFire m = s.nextFire m := (rfl)
@[simp] theorem State.begun_tainted (m k : Nat) : s.begun.tainted m k = s.tainted m k := (rfl)
@[simp] theorem State.begun_modDigest (x : Line) (m : Nat) : s.begun.modDigest x m = s.modDigest x m := (rfl)
@[simp] theorem State.begun_winBytes (a n : Nat) : s.begun.winBytes a n = s.winBytes a n := (rfl)
@[simp] theorem State.begun_cfgDigest (withMap : Bool) : s.begun.cfgDigest withMap = s.cfgDigest withMap := (rfl)
@[simp] theorem State.begun_mapDigest (m : Nat) : s.begun.mapDigest m = s.mapDigest m := (rfl)
@[simp] theorem State.begun_homeStandby : s.begun.homeStandby = s.homeStandby := (rfl)
@[simp] theorem State.begun_owns (m : Nat) : s.begun.owns m = s.owns m := (rfl)
@[simp] theorem State.begun_ownsAll : s.begun.ownsAll = s.ownsAll := (rfl)
@[simp] theorem State.begun_peerLost : s.begun.peerLost = s.peerLost := (rfl)
@[simp] theorem State.begun_oneLane : s.begun.oneLane = s.oneLane := (rfl)
@[simp] theorem State.begun_ctxOn (c : Nat) : s.begun.ctxOn c = s.ctxOn c := (rfl)
@[simp] theorem State.begun_ctxs : s.begun.ctxs = s.ctxs := (rfl)
@[simp] theorem State.begun_modOn (m : Nat) : s.begun.modOn m = s.modOn m := (rfl)
@[simp] theorem State.begun_mods : s.begun.mods = s.mods := (rfl)
@[simp] theorem State.begun_scanning : s.begun.scanning = s.scanning := (rfl)
@[simp] theorem State.begun_nz (m q : Nat) : s.begun.nz m q = s.nz m q := (rfl)
@[simp] theorem State.begun_layout (m : Nat) : s.begun.layout m = s.layout m := (rfl)
@[simp] theorem State.begun_dt (a b : Nat) : s.begun.dt a b = s.dt a b := (rfl)
@[simp] theorem State.begun_trimOf (m q : Nat) : s.begun.trimOf m q = s.trimOf m q := (rfl)
@[simp] theorem State.begun_trimTarget (m q : Nat) : s.begun.trimTarget m q = s.trimTarget m q := (rfl)
@[simp] theorem State.begun_expand (m r bpn code : Nat) : s.begun.expand m r bpn code = s.expand m r bpn code := (rfl)
@[simp] theorem State.begun_passes : s.begun.passes = s.passes := (rfl)
@[simp] theorem State.begun_ilace : s.begun.ilace = s.ilace := (rfl)
@[simp] theorem State.begun_passMask (row u : Nat) : s.begun.passMask row u = s.passMask row u := (rfl)
@[simp] theorem State.begun_barCol (m q : Nat) : s.begun.barCol m q = s.barCol m q := (rfl)
@[simp] theorem State.begun_psubFlags : s.begun.psubFlags = s.psubFlags := (rfl)
@[simp] theorem State.begun_seamOn (sm r : Nat) : s.begun.seamOn sm r = s.seamOn sm r := (rfl)
@[simp] theorem State.begun_stitchBit (sm i u : Nat) : s.begun.stitchBit sm i u = s.stitchBit sm i u := (rfl)
@[simp] theorem State.begun_stitchAt (l : Levels) (sm r i u : Nat) : s.begun.stitchAt l sm r i u = s.stitchAt l sm r i u := (rfl)
@[simp] theorem State.begun_weights (x : Nat) : s.begun.weights x = s.weights x := (rfl)
@[simp] theorem State.begun_tipInto (l : Levels) (m g j u : Nat) : s.begun.tipInto l m g j u = s.tipInto l m g j u := (rfl)
@[simp] theorem State.begun_tip (l : Levels) (m u : Nat) : s.begun.tip l m u = s.tip l m u := (rfl)
@[simp] theorem State.begun_trimLevels (m u : Nat) (l : List Nat) : s.begun.trimLevels m u l = s.trimLevels m u l := (rfl)
@[simp] theorem State.begun_histAt (m h q : Nat) : s.begun.histAt m h q = s.histAt m h q := (rfl)
@[simp] theorem State.begun_histCode (m q : Nat) : s.begun.histCode m q = s.histCode m q := (rfl)
@[simp] theorem State.begun_rtype (m r : Nat) : s.begun.rtype m r = s.rtype m r := (rfl)
@[simp] theorem State.begun_etab (t i : Nat) : s.begun.etab t i = s.etab t i := (rfl)
@[simp] theorem State.begun_energyIdx (m q b lev : Nat) : s.begun.energyIdx m q b lev = s.energyIdx m q b lev := (rfl)
@[simp] theorem State.begun_nozE (x : Noz) (i : Nat) : s.begun.nozE x i = s.nozE x i := (rfl)
@[simp] theorem State.begun_floorIdx (t : Nat) : s.begun.floorIdx t = s.floorIdx t := (rfl)
@[simp] theorem State.begun_lowIdx (x : Noz) (d : Nat) : s.begun.lowIdx x d = s.lowIdx x d := (rfl)
@[simp] theorem State.begun_tcfg : s.begun.tcfg = s.tcfg := (rfl)
@[simp] theorem State.begun_wMax : s.begun.wMax = s.wMax := (rfl)
@[simp] theorem State.begun_throttles (b : Nat) : s.begun.throttles b = s.throttles b := (rfl)
@[simp] theorem State.begun_wLim (b : Nat) : s.begun.wLim b = s.wLim b := (rfl)
@[simp] theorem State.begun_ctrig (k : Nat) : s.begun.ctrig k = s.ctrig k := (rfl)
@[simp] theorem State.begun_lstb (k : Nat) : s.begun.lstb k = s.lstb k := (rfl)
@[simp] theorem State.begun_camCtxs (k : Nat) : s.begun.camCtxs k = s.camCtxs k := (rfl)
@[simp] theorem State.begun_anchorsOf (n : Nat) : s.begun.anchorsOf n = s.anchorsOf n := (rfl)
@[simp] theorem State.begun_camPort (p : Nat) : s.begun.camPort p = s.camPort p := (rfl)
@[simp] theorem State.begun_camCtx (p vc : Nat) : s.begun.camCtx p vc = s.camCtx p vc := (rfl)
@[simp] theorem State.begun_ctxCamOf (n : Nat) : s.begun.ctxCamOf n = s.ctxCamOf n := (rfl)
@[simp] theorem State.begun_openFrame (n : Nat) : s.begun.openFrame n = s.openFrame n := (rfl)
@[simp] theorem State.begun_fifoRows (p : Nat) : s.begun.fifoRows p = s.fifoRows p := (rfl)
@[simp] theorem State.begun_camParams (n : Nat) : s.begun.camParams n = s.camParams n := (rfl)
@[simp] theorem State.begun_ffg (n b x : Nat) : s.begun.ffg n b x = s.ffg n b x := (rfl)
@[simp] theorem State.begun_flat (f : CamFrame) (v1 : Plane) : s.begun.flat f v1 = s.flat f v1 := (rfl)
@[simp] theorem State.begun_green (f : CamFrame) (v2 : Plane) : s.begun.green f v2 = s.green f v2 := (rfl)
@[simp] theorem State.begun_dlut (n c a : Nat) : s.begun.dlut n c a = s.dlut n c a := (rfl)
@[simp] theorem State.begun_pipeline (f : CamFrame) : s.begun.pipeline f = s.pipeline f := (rfl)
@[simp] theorem State.begun_ptLines (tab : List (Nat × PtLine)) (sig : Nat) : s.begun.ptLines tab sig = s.ptLines tab sig := (rfl)
@[simp] theorem State.begun_ptLast (sig : Nat) (es : List PtLine) : s.begun.ptLast sig es = s.ptLast sig es := (rfl)
@[simp] theorem State.begun_rowLines (f : CamFrame) (a : Anchor) (es : List PtLine) (i phi : Nat) : s.begun.rowLines f a es i phi = s.rowLines f a es i phi := (rfl)
@[simp] theorem State.begun_sharedCols (m : Nat) : s.begun.sharedCols m = s.sharedCols m := (rfl)
@[simp] theorem State.begun_colNozzles (c : Col) : s.begun.colNozzles c = s.colNozzles c := (rfl)
@[simp] theorem State.begun_colRight (c : Col) : s.begun.colRight c = s.colRight c := (rfl)
@[simp] theorem State.begun_colLeft (c : Col) : s.begun.colLeft c = s.colLeft c := (rfl)
@[simp] theorem State.begun_colsOf (m g : Nat) : s.begun.colsOf m g = s.colsOf m g := (rfl)
@[simp] theorem State.begun_groupCh (m g : Nat) : s.begun.groupCh m g = s.groupCh m g := (rfl)
@[simp] theorem State.begun_sensorX (f : CamFrame) (c : Col) : s.begun.sensorX f c = s.sensorX f c := (rfl)
@[simp] theorem State.begun_barNozzles (g bar : Nat) : s.begun.barNozzles g bar = s.barNozzles g bar := (rfl)
@[simp] theorem State.begun_ldt (c lev : Nat) : s.begun.ldt c lev = s.ldt c lev := (rfl)
@[simp] theorem State.begun_inBlank (m sig l q : Nat) : s.begun.inBlank m sig l q = s.inBlank m sig l q := (rfl)
@[simp] theorem State.begun_cellNozzles (c : Col) (p : Nat) : s.begun.cellNozzles c p = s.cellNozzles c p := (rfl)
@[simp] theorem State.begun_cell (ch : Nat) (rows : List RowLine) (c : Col) : s.begun.cell ch rows c = s.cell ch rows c := (rfl)
@[simp] theorem State.begun_rowSamples (w1 i : Nat) (regch : Nat) (cells : List RowCell) (acc : Accum) : s.begun.rowSamples w1 i regch cells acc = s.rowSamples w1 i regch cells acc := (rfl)
@[simp] theorem State.begun_phiOf (m : Nat) (rev : Bool) : s.begun.phiOf m rev = s.phiOf m rev := (rfl)
@[simp] theorem State.begun_fireDelay (phi : Nat) (t : Trig) : s.begun.fireDelay phi t = s.fireDelay phi t := (rfl)
@[simp] theorem State.begun_sc (i : Nat) : s.begun.sc i = s.sc i := (rfl)
@[simp] theorem State.begun_memOk (a : Nat) : s.begun.memOk a = s.memOk a := (rfl)
@[simp] theorem State.begun_memRetired (a : Nat) : s.begun.memRetired a = s.memRetired a := (rfl)
@[simp] theorem State.begun_rawCw (cw : Nat) : s.begun.rawCw cw = s.rawCw cw := (rfl)
@[simp] theorem State.begun_someSc : s.begun.someSc = s.someSc := (rfl)
@[simp] theorem State.begun_tchk : s.begun.tchk = s.tchk := (rfl)
@[simp] theorem State.begun_bankHolds (i : Nat) (r : MReq) : s.begun.bankHolds i r = s.bankHolds i r := (rfl)
@[simp] theorem State.begun_readMayGo (i : Nat) (r : MReq) : s.begun.readMayGo i r = s.readMayGo i r := (rfl)
@[simp] theorem State.begun_writeMayGo (i : Nat) (r : MReq) : s.begun.writeMayGo i r = s.writeMayGo i r := (rfl)
@[simp] theorem State.begun_chPending (c : Nat) : s.begun.chPending c = s.chPending c := (rfl)
@[simp] theorem State.begun_chAccepted (c : Nat) : s.begun.chAccepted c = s.chAccepted c := (rfl)
@[simp] theorem State.begun_msg (c k : Nat) : s.begun.msg c k = s.msg c k := (rfl)
@[simp] theorem State.begun_msgClass (c : Nat) : s.begun.msgClass c = s.msgClass c := (rfl)
@[simp] theorem State.begun_chAge (c : Nat) : s.begun.chAge c = s.chAge c := (rfl)
@[simp] theorem State.begun_ageUs (c : Nat) : s.begun.ageUs c = s.ageUs c := (rfl)
@[simp] theorem State.begun_isOwner (c : Nat) (src : Src) : s.begun.isOwner c src = s.isOwner c src := (rfl)
@[simp] theorem State.begun_descAddr (n i : Nat) : s.begun.descAddr n i = s.descAddr n i := (rfl)
@[simp] theorem State.begun_descBytes (d : Desc) (i : Nat) : s.begun.descBytes d i = s.descBytes d i := (rfl)
@[simp] theorem State.begun_up (n : Nat) : s.begun.up n = s.up n := (rfl)
@[simp] theorem State.begun_lock (i : Nat) : s.begun.lock i = s.lock i := (rfl)
@[simp] theorem State.begun_standby : s.begun.standby = s.standby := (rfl)
@[simp] theorem State.begun_primary : s.begun.primary = s.primary := (rfl)
@[simp] theorem State.begun_running : s.begun.running = s.running := (rfl)
@[simp] theorem State.begun_kNow : s.begun.kNow = s.kNow := (rfl)
@[simp] theorem State.begun_deadCount (m : Nat) : s.begun.deadCount m = s.deadCount m := (rfl)
@[simp] theorem State.begun_stagedOf (m : Nat) : s.begun.stagedOf m = s.stagedOf m := (rfl)
@[simp] theorem State.begun_passed (e : Nat) : s.begun.passed e = s.passed e := (rfl)
@[simp] theorem State.begun_measOf (m : Nat) : s.begun.measOf m = s.measOf m := (rfl)
@[simp] theorem State.begun_candsOf (m : Nat) : s.begun.candsOf m = s.candsOf m := (rfl)
@[simp] theorem State.begun_sweepAt (m q : Nat) : s.begun.sweepAt m q = s.sweepAt m q := (rfl)
@[simp] theorem State.begun_sweepSize (m : Nat) : s.begun.sweepSize m = s.sweepSize m := (rfl)
@[simp] theorem State.begun_endpaper : s.begun.endpaper = s.endpaper := (rfl)
@[simp] theorem State.begun_measAllowed (m : Nat) : s.begun.measAllowed m = s.measAllowed m := (rfl)
@[simp] theorem State.begun_classify (t c : Nat) : s.begun.classify t c = s.classify t c := (rfl)
@[simp] theorem State.begun_dumpBlock (m : Nat) : s.begun.dumpBlock m = s.dumpBlock m := (rfl)
@[simp] theorem State.begun_dirtyMods : s.begun.dirtyMods = s.dirtyMods := (rfl)
@[simp] theorem State.begun_act (a : Nat) : s.begun.act a = s.act a := (rfl)
@[simp] theorem State.begun_winWord (a : Nat) : s.begun.winWord a = s.winWord a := (rfl)
@[simp] theorem State.begun_sramBad (a w : Nat) : s.begun.sramBad a w = s.sramBad a w := (rfl)
@[simp] theorem State.begun_addrBad (a : Nat) : s.begun.addrBad a = s.addrBad a := (rfl)
@[simp] theorem State.begun_epoch : s.begun.epoch = s.epoch := (rfl)
@[simp] theorem State.begun_us : s.begun.us = s.us := (rfl)
@[simp] theorem State.begun_now : s.begun.now = s.now := (rfl)
@[simp] theorem State.begun_mach (m : Nat) : s.begun.mach m = s.mach m := (rfl)
@[simp] theorem State.begun_machOn (m : Nat) : s.begun.machOn m = s.machOn m := (rfl)
@[simp] theorem State.begun_evBound (m e : Nat) : s.begun.evBound m e = s.evBound m e := (rfl)
@[simp] theorem State.begun_injHit (id inst : Nat) : s.begun.injHit id inst = s.injHit id inst := (rfl)
@[simp] theorem State.begun_injAny (id : Nat) : s.begun.injAny id = s.injAny id := (rfl)
@[simp] theorem State.begun_injArg : s.begun.injArg = s.injArg := (rfl)
@[simp] theorem State.begun_logCount : s.begun.logCount = s.logCount := (rfl)
@[simp] theorem State.begun_ringSize (n : Nat) : s.begun.ringSize n = s.ringSize n := (rfl)
@[simp] theorem State.begun_ringUsed (n : Nat) : s.begun.ringUsed n = s.ringUsed n := (rfl)
@[simp] theorem State.begun_ringTakes (n : Nat) : s.begun.ringTakes n = s.ringTakes n := (rfl)
@[simp] theorem State.begun_fen (m : Nat) : s.begun.fen m = s.fen m := (rfl)
@[simp] theorem State.begun_ownCfg (p : Nat) (complete : Bool) : s.begun.ownCfg p complete = s.ownCfg p complete := (rfl)
@[simp] theorem State.begun_nbrFits (p : Nat) (uid : Bytes) : s.begun.nbrFits p uid = s.nbrFits p uid := (rfl)
@[simp] theorem State.begun_egressOf (p : Nat) (f : Frame) : s.begun.egressOf p f = s.egressOf p f := (rfl)
@[simp] theorem State.begun_discResp (fwd : List Nat) : s.begun.discResp fwd = s.discResp fwd := (rfl)
@[simp] theorem State.begun_enc (e : Nat) : s.begun.enc e = s.enc e := (rfl)
@[simp] theorem State.begun_fromTrain : s.begun.fromTrain = s.fromTrain := (rfl)
@[simp] theorem State.begun_dirI : s.begun.dirI = s.dirI := (rfl)
@[simp] theorem State.begun_vwin : s.begun.vwin = s.vwin := (rfl)
@[simp] theorem State.begun_tcntAt (te : Nat) : s.begun.tcntAt te = s.tcntAt te := (rfl)
@[simp] theorem State.begun_ctxGrid : s.begun.ctxGrid = s.ctxGrid := (rfl)
@[simp] theorem State.begun_moveToA (swap : Bool) : s.begun.moveToA swap = s.moveToA swap := (rfl)
@[simp] theorem State.begun_revertMods : s.begun.revertMods = s.revertMods := (rfl)
@[simp] theorem State.begun_formsStarts : s.begun.formsStarts = s.formsStarts := (rfl)
@[simp] theorem State.begun_posNow : s.begun.posNow = s.posNow := (rfl)
@[simp] theorem State.begun_folSt : s.begun.folSt = s.folSt := (rfl)
@[simp] theorem State.begun_estAt (t : Nat) : s.begun.estAt t = s.estAt t := (rfl)
@[simp] theorem State.begun_estDrives : s.begun.estDrives = s.estDrives := (rfl)
@[simp] theorem State.begun_missed : s.begun.missed = s.missed := (rfl)
@[simp] theorem State.begun_sRef : s.begun.sRef = s.sRef := (rfl)
@[simp] theorem State.begun_lsig (sig : Nat) : s.begun.lsig sig = s.lsig sig := (rfl)
@[simp] theorem State.begun_quire (sig c first : Nat) : s.begun.quire sig c first = s.quire sig c first := (rfl)
@[simp] theorem State.begun_covering (sig c l : Nat) : s.begun.covering sig c l = s.covering sig c l := (rfl)
@[simp] theorem State.begun_openSigs : s.begun.openSigs = s.openSigs := (rfl)
@[simp] theorem State.begun_covered (c sig l : Nat) : s.begun.covered c sig l = s.covered c sig l := (rfl)
@[simp] theorem State.begun_gathered (sig : Nat) : s.begun.gathered sig = s.gathered sig := (rfl)
@[simp] theorem State.begun_dirMax : s.begun.dirMax = s.dirMax := (rfl)
@[simp] theorem State.begun_stBase : s.begun.stBase = s.stBase := (rfl)
@[simp] theorem State.begun_pagesUsed : s.begun.pagesUsed = s.pagesUsed := (rfl)
@[simp] theorem State.begun_pageBad (p : Nat) : s.begun.pageBad p = s.pageBad p := (rfl)
@[simp] theorem State.begun_dataPages : s.begun.dataPages = s.dataPages := (rfl)
@[simp] theorem State.begun_stFree : s.begun.stFree = s.stFree := (rfl)
@[simp] theorem State.begun_dirUsed : s.begun.dirUsed = s.dirUsed := (rfl)
@[simp] theorem State.begun_rsOn : s.begun.rsOn = s.rsOn := (rfl)
@[simp] theorem State.begun_rsOut : s.begun.rsOut = s.rsOut := (rfl)
@[simp] theorem State.begun_sigBpn (sig c : Nat) : s.begun.sigBpn sig c = s.sigBpn sig c := (rfl)
@[simp] theorem State.begun_qFieldsOk (h : QHdr) : s.begun.qFieldsOk h = s.qFieldsOk h := (rfl)
@[simp] theorem State.begun_overlaps (h : QHdr) : s.begun.overlaps h = s.overlaps h := (rfl)
@[simp] theorem State.begun_lenBad (h : QHdr) : s.begun.lenBad h = s.lenBad h := (rfl)
@[simp] theorem State.begun_qdTaken : s.begun.qdTaken = s.qdTaken := (rfl)
@[simp] theorem State.begun_sRing : s.begun.sRing = s.sRing := (rfl)
@[simp] theorem State.begun_ringFree (c : Nat) : s.begun.ringFree c = s.ringFree c := (rfl)
@[simp] theorem State.begun_ctxLead (c : Nat) : s.begun.ctxLead c = s.ctxLead c := (rfl)
@[simp] theorem State.begun_ready (c : Nat) : s.begun.ready c = s.ready c := (rfl)
@[simp] theorem State.begun_engineBusy (m : Nat) : s.begun.engineBusy m = s.engineBusy m := (rfl)
@[simp] theorem State.begun_inflating (m : Nat) : s.begun.inflating m = s.inflating m := (rfl)
@[simp] theorem State.begun_ringWord (q : Quire) : s.begun.ringWord q = s.ringWord q := (rfl)
@[simp] theorem State.begun_lMin : s.begun.lMin = s.lMin := (rfl)
@[simp] theorem State.begun_releasedLine (sig c l : Nat) : s.begun.releasedLine sig c l = s.releasedLine sig c l := (rfl)
@[simp] theorem State.begun_lateStage (sig c l : Nat) : s.begun.lateStage sig c l = s.lateStage sig c l := (rfl)
@[simp] theorem State.begun_heldAttn : s.begun.heldAttn = s.heldAttn := (rfl)
@[simp] theorem State.begun_attn : s.begun.attn = s.attn := (rfl)
@[simp] theorem State.begun_zlatNow : s.begun.zlatNow = s.zlatNow := (rfl)
@[simp] theorem State.begun_ctxSts (c : Nat) : s.begun.ctxSts c = s.ctxSts c := (rfl)
@[simp] theorem State.begun_scSts (i : Nat) : s.begun.scSts i = s.scSts i := (rfl)
@[simp] theorem State.begun_portSts (p : Nat) : s.begun.portSts p = s.portSts p := (rfl)
@[simp] theorem State.begun_machWord (m o : Nat) : s.begun.machWord m o = s.machWord m o := (rfl)
@[simp] theorem State.begun_shownHigh (a : Nat) : s.begun.shownHigh a = s.shownHigh a := (rfl)
@[simp] theorem State.begun_hrbHigh : s.begun.hrbHigh = s.hrbHigh := (rfl)
@[simp] theorem State.begun_spnInjReg : s.begun.spnInjReg = s.spnInjReg := (rfl)
@[simp] theorem State.begun_port (p : Nat) : s.begun.port p = s.port p := (rfl)
@[simp] theorem State.begun_member : s.begun.member = s.member := (rfl)
@[simp] theorem State.begun_ownNode : s.begun.ownNode = s.ownNode := (rfl)
@[simp] theorem State.begun_nodeValid : s.begun.nodeValid = s.nodeValid := (rfl)
@[simp] theorem State.begun_portFilters (p : Nat) (f : Frame) : s.begun.portFilters p f = s.portFilters p f := (rfl)
@[simp] theorem State.begun_quantum (vl : Nat) : s.begun.quantum vl = s.quantum vl := (rfl)
@[simp] theorem State.begun_live (p : Nat) (f : Frame) : s.begun.live p f = s.live p f := (rfl)
@[simp] theorem State.begun_routeTo (f : Frame) : s.begun.routeTo f = s.routeTo f := (rfl)
@[simp] theorem State.begun_answer (p : Nat) (req : Frame) (ty status : Nat) (data : Bytes) : s.begun.answer p req ty status data = s.answer p req ty status data := (rfl)
@[simp] theorem State.begun_endFull : s.begun.endFull = s.endFull := (rfl)
@[simp] theorem State.begun_mkFrame (dst vl ty : Nat) (payload : Bytes) : s.begun.mkFrame dst vl ty payload = s.mkFrame dst vl ty payload := (rfl)
@[simp] theorem State.begun_upPorts : s.begun.upPorts = s.upPorts := (rfl)
@[simp] theorem State.begun_nbrId (p : Nat) : s.begun.nbrId p = s.nbrId p := (rfl)
@[simp] theorem State.begun_ctxNbr (p lane : Nat) : s.begun.ctxNbr p lane = s.ctxNbr p lane := (rfl)
@[simp] theorem State.begun_scanHeld : s.begun.scanHeld = s.scanHeld := (rfl)
@[simp] theorem State.begun_hdr (backup : Bool) : s.begun.hdr backup = s.hdr backup := (rfl)
@[simp] theorem State.begun_readOp (h : ImgHdr) : s.begun.readOp h = s.readOp h := (rfl)
@[simp] theorem State.begun_scsLeft : s.begun.scsLeft = s.scsLeft := (rfl)
@[simp] theorem State.begun_fbuf (n : Nat) : s.begun.fbuf n = s.fbuf n := (rfl)
@[simp] theorem State.begun_smtEntry (m st e : Nat) : s.begun.smtEntry m st e = s.smtEntry m st e := (rfl)
@[simp] theorem State.begun_guardDefer (g : Nat) : s.begun.guardDefer g = s.guardDefer g := (rfl)
@[simp] theorem State.begun_scr (m k : Nat) : s.begun.scr m k = s.scr m k := (rfl)
@[simp] theorem State.begun_wlAddr (m i : Nat) : s.begun.wlAddr m i = s.wlAddr m i := (rfl)
@[simp] theorem State.begun_wlBad (i : Nat) : s.begun.wlBad i = s.wlBad i := (rfl)
@[simp] theorem State.begun_msgWaiting (a b : Nat) : s.begun.msgWaiting a b = s.msgWaiting a b := (rfl)
@[simp] theorem State.begun_lineK (k : Nat) : s.begun.lineK k = s.lineK k := (rfl)
@[simp] theorem State.begun_lane (m : Nat) : s.begun.lane m = s.lane m := (rfl)
@[simp] theorem State.begun_laneUp (m : Nat) : s.begun.laneUp m = s.laneUp m := (rfl)
@[simp] theorem State.begun_laneCode (m : Nat) : s.begun.laneCode m = s.laneCode m := (rfl)
@[simp] theorem State.begun_blockCns (m : Nat) : s.begun.blockCns m = s.blockCns m := (rfl)
@[simp] theorem State.begun_ctxOfLane (m : Nat) : s.begun.ctxOfLane m = s.ctxOfLane m := (rfl)
@[simp] theorem State.begun_syncK (m : Nat) : s.begun.syncK m = s.syncK m := (rfl)
@[simp] theorem State.begun_capOk (m : Nat) (c : Bytes) : s.begun.capOk m c = s.capOk m c := (rfl)
@[simp] theorem State.begun_replayBad (k m g : Nat) : s.begun.replayBad k m g = s.replayBad k m g := (rfl)
@[simp] theorem State.begun_lineOfLfn (m lfn : Nat) : s.begun.lineOfLfn m lfn = s.lineOfLfn m lfn := (rfl)
@[simp] theorem State.begun_copyFits (m : Nat) (x : ModLine) (g : Nat) : s.begun.copyFits m x g = s.copyFits m x g := (rfl)
@[simp] theorem State.begun_follower : s.begun.follower = s.follower := (rfl)
@[simp] theorem State.begun_locked : s.begun.locked = s.locked := (rfl)
@[simp] theorem State.begun_upstream : s.begun.upstream = s.upstream := (rfl)
@[simp] theorem State.begun_delayOf (p : Nat) : s.begun.delayOf p = s.delayOf p := (rfl)

@[simp] theorem State.begun_camOn : s.begun.camOn = s.camOn := (rfl)
@[simp] theorem State.begun_lenOf (sig : Nat) : s.begun.lenOf sig = s.lenOf sig := (rfl)
@[simp] theorem State.begun_patrolLags (i : Nat) : s.begun.patrolLags i = s.patrolLags i := (rfl)
@[simp] theorem State.begun_reqBehind (p : Nat) (f : Frame) : s.begun.reqBehind p f = s.reqBehind p f := (rfl)
@[simp] theorem State.begun_frameOf? (lfn : Nat) : s.begun.frameOf? lfn = s.frameOf? lfn := (rfl)
@[simp] theorem State.begun_scanDrives : s.begun.scanDrives = s.scanDrives := (rfl)
@[simp] theorem State.begun_fenBall (m : Nat) : s.begun.fenBall m = s.fenBall m := (rfl)
@[simp] theorem State.begun_mayCal : s.begun.mayCal = s.mayCal := (rfl)
@[simp] theorem State.begun_lanesMap : s.begun.lanesMap = s.lanesMap := (rfl)
@[simp] theorem State.begun_noLane : s.begun.noLane = s.noLane := (rfl)
@[simp] theorem State.begun_mayJoin : s.begun.mayJoin = s.mayJoin := (rfl)
@[simp] theorem State.begun_trimMods : s.begun.trimMods = s.trimMods := (rfl)
@[simp] theorem State.begun_stitch (l : Levels) (u : Nat) : s.begun.stitch l u = s.stitch l u := (rfl)
@[simp] theorem State.begun_wroteNow (a : Nat) : s.begun.wroteNow a = s.wroteNow a := (rfl)
@[simp] theorem State.begun_anyActive : s.begun.anyActive = s.anyActive := (rfl)
@[simp] theorem State.begun_hasRoom (i : Nat) (r : MReq) : s.begun.hasRoom i r = s.hasRoom i r := (rfl)
@[simp] theorem State.begun_queued (i : Nat) (r : MReq) : s.begun.queued i r = s.queued i r := (rfl)
@[simp] theorem State.begun_fwdWrite (i cw : Nat) : s.begun.fwdWrite i cw = s.fwdWrite i cw := (rfl)
@[simp] theorem State.begun_viewCw (cw : Nat) : s.begun.viewCw cw = s.viewCw cw := (rfl)
@[simp] theorem State.begun_ptPlace (a : Nat) : s.begun.ptPlace a = s.ptPlace a := (rfl)
@[simp] theorem State.begun_ptDeep : s.begun.ptDeep = s.ptDeep := (rfl)
@[simp] theorem State.begun_kRec : s.begun.kRec = s.kRec := (rfl)
@[simp] theorem State.begun_isRev : s.begun.isRev = s.isRev := (rfl)
@[simp] theorem State.begun_estCount : s.begun.estCount = s.estCount := (rfl)
@[simp] theorem State.begun_pageRetired (p : Nat) : s.begun.pageRetired p = s.pageRetired p := (rfl)
@[simp] theorem State.begun_pagesRetired : s.begun.pagesRetired = s.pagesRetired := (rfl)
@[simp] theorem State.begun_dirHeld : s.begun.dirHeld = s.dirHeld := (rfl)
@[simp] theorem State.begun_dirComing : s.begun.dirComing = s.dirComing := (rfl)
@[simp] theorem State.begun_slotOf (src : Nat) : s.begun.slotOf src = s.slotOf src := (rfl)
@[simp] theorem State.begun_qdBehind (p : Nat) (f : Frame) : s.begun.qdBehind p f = s.qdBehind p f := (rfl)
@[simp] theorem State.begun_engineQueue (m : Nat) : s.begun.engineQueue m = s.engineQueue m := (rfl)
@[simp] theorem State.begun_ringOffset (q : Quire) (w : Nat) : s.begun.ringOffset q w = s.ringOffset q w := (rfl)
@[simp] theorem State.begun_ringIn (q : Quire) (w : Nat) : s.begun.ringIn q w = s.ringIn q w := (rfl)
@[simp] theorem State.begun_lineBad (q : Quire) (l : Nat) : s.begun.lineBad q l = s.lineBad q l := (rfl)
@[simp] theorem State.begun_noAccess : s.begun.noAccess = s.noAccess := (rfl)
@[simp] theorem State.begun_hrbBall : s.begun.hrbBall = s.hrbBall := (rfl)
@[simp] theorem State.begun_ctrigBall (k : Nat) : s.begun.ctrigBall k = s.ctrigBall k := (rfl)
@[simp] theorem State.begun_lstbBall (k : Nat) : s.begun.lstbBall k = s.lstbBall k := (rfl)
@[simp] theorem State.begun_notifyDue (n : Nat) : s.begun.notifyDue n = s.notifyDue n := (rfl)
@[simp] theorem State.begun_bufUnits (p v : Nat) : s.begun.bufUnits p v = s.bufUnits p v := (rfl)
@[simp] theorem State.begun_eqAdapts (m : Nat) : s.begun.eqAdapts m = s.eqAdapts m := (rfl)
@[simp] theorem State.begun_eqNow (m : Nat) : s.begun.eqNow m = s.eqNow m := (rfl)
@[simp] theorem State.begun_laneSends (m : Nat) : s.begun.laneSends m = s.laneSends m := (rfl)
@[simp] theorem State.begun_clsOf (master a : Nat) (wr : Bool) : s.begun.clsOf master a wr = s.clsOf master a wr := by simp [State.clsOf]
@[simp] theorem State.begun_effCls (r : MReq) : s.begun.effCls r = s.effCls r := by simp [State.effCls]
@[simp] theorem State.begun_urgent (i : Nat) (rank : Option Nat) : s.begun.urgent i rank = s.urgent i rank := by simp [State.urgent]
@[simp] theorem State.begun_pick (i : Nat) (rs : List MReq) : s.begun.pick i rs = s.pick i rs := by
  have h : s.begun.effCls = s.effCls := funext s.begun_effCls
  simp only [State.pick, h]; rfl
@[simp] theorem State.begun_refDue (i k : Nat) : s.begun.refDue i k = s.refDue i k := by simp [State.refDue]
@[simp] theorem State.begun_refFirst (i : Nat) (r : MReq) : s.begun.refFirst i r = s.refFirst i r := by simp [State.refFirst]
@[simp] theorem State.begun_readsNow (i : Nat) : s.begun.readsNow i = s.readsNow i := by simp [State.readsNow]
@[simp] theorem State.begun_writesNow (i : Nat) : s.begun.writesNow i = s.writesNow i := by simp [State.writesNow]
@[simp] theorem State.begun_readFirst (i : Nat) (r : MReq) : s.begun.readFirst i r = s.readFirst i r := by simp [State.readFirst]
@[simp] theorem State.begun_retrainWaits (i : Nat) : s.begun.retrainWaits i = s.retrainWaits i := by simp [State.retrainWaits]

@[simp] theorem State.begun_patrolOn (i : Nat) : s.begun.patrolOn i = s.patrolOn i := (rfl)
@[simp] theorem State.begun_lostK (m : Nat) : s.begun.lostK m = s.lostK m := (rfl)
@[simp] theorem State.begun_joining : s.begun.joining = s.joining := (rfl)
@[simp] theorem State.begun_laneStops : s.begun.laneStops = s.laneStops := (rfl)
@[simp] theorem State.begun_copies (a : Nat) : s.begun.copies a = s.copies a := (rfl)
@[simp] theorem State.begun_unfired : s.begun.unfired = s.unfired := (rfl)
@[simp] theorem State.begun_extended (idx : Option Nat) (n : Nat) : s.begun.extended idx n = s.extended idx n := (rfl)
@[simp] theorem State.begun_startDue (old q : Int) : s.begun.startDue old q = s.startDue old q := (rfl)
@[simp] theorem State.begun_countAt (b : Int) : s.begun.countAt b = s.countAt b := (rfl)
@[simp] theorem State.begun_nextB (g : Grid) : s.begun.nextB g = s.nextB g := (rfl)
@[simp] theorem State.begun_posAt (te : Nat) : s.begun.posAt te = s.posAt te := (rfl)
@[simp] theorem State.begun_serveMax (i : Nat) : s.begun.serveMax i = s.serveMax i := (rfl)
@[simp] theorem State.begun_cellBall (c : Nat) : s.begun.cellBall c = s.cellBall c := (rfl)
@[simp] theorem State.begun_trigBall (c : Nat) (v : Bool) : s.begun.trigBall c v = s.trigBall c v := (rfl)
@[simp] theorem State.begun_ballBit (pins c : Nat) : s.begun.ballBit pins c = s.ballBit pins c := (rfl)
@[simp] theorem State.begun_routes (f : Frame) : s.begun.routes f = s.routes f := (rfl)
@[simp] theorem State.begun_refuses (p : Nat) (f : Frame) : s.begun.refuses p f = s.refuses p f := (rfl)
@[simp] theorem State.begun_pendingOf (m : Nat) : s.begun.pendingOf m = s.pendingOf m := (rfl)
@[simp] theorem State.begun_mayResend (k m g : Nat) : s.begun.mayResend k m g = s.mayResend k m g := (rfl)

end Sys2Proof.Machine
end

