-- ==== Sys2Proof/Laws/Commands.lean ====
section
/-!
SUPPORT. Laws of commands: every command is an effect on the state as it begins, followed by what follows every command.
-/

namespace Sys2Proof.Machine

/-- A command with an effect answers the state after that effect. -/
theorem State.does_eq {s : State} {f : State → State} {t : State} (h : f s.begun = t) : s.does f = .next (s.after t) := by rw [← h]; rfl

/-- What holds of the effect's state holds of a state that the command leads to. -/
theorem State.does_exists {s : State} {f : State → State} {P : State → Prop} (h : P (f s.begun)) : ∃ t, s.does f = .next (s.after t) ∧ P t := ⟨_, rfl, h⟩

/-- Every command is an effect. -/
theorem exec_does (c : Instr) (s : State) : ∃ f, exec c s = s.does f := by
  unfold exec
  split <;> exact ⟨_, rfl⟩

end Sys2Proof.Machine
end

