-- ==== Sys2Proof/Laws/Tables.lean ====
section
/-!
SUPPORT. Laws of the tables in the state: reading an entry after one is changed or set.
-/

namespace Sys2Proof.Machine

variable {α : Type} [DecidableEq α]

theorem spGet_spSet_same (d : α) (m : Sparse α) (k : Nat) (v : α) : spGet d (spSet d m k v) k = v :=
  spGetD_spSetD_same _ _ _ _

theorem spGet_spSet_ne (d : α) (m : Sparse α) (k j : Nat) (v : α) (hj : j ≠ k) : spGet d (spSet d m k v) j = spGet d m j :=
  spGetD_spSetD_ne _ _ _ _ _ hj

theorem spRising_spSet (d : α) (m : Sparse α) (k : Nat) (v : α) (h : spRising none m = true) : spRising none (spSet d m k v) = true := spRising_spSetD _ _ _ _ h

theorem spGet_spMod_same (d : α) (m : Sparse α) (k : Nat) (f : α → α) : spGet d (spMod d m k f) k = f (spGet d m k) :=
  spGet_spSet_same _ _ _ _

theorem spGet_spMod_ne (d : α) (m : Sparse α) (k j : Nat) (f : α → α) (hj : j ≠ k) : spGet d (spMod d m k f) j = spGet d m j :=
  spGet_spSet_ne _ _ _ _ _ hj

theorem spRising_spMod (d : α) (m : Sparse α) (k : Nat) (f : α → α) (h : spRising none m = true) : spRising none (spMod d m k f) = true := spRising_spSet _ _ _ _ h

/-- Two changes of an entry that agree on its value are the same change. -/
theorem spMod_congr (d : α) (m : Sparse α) (k : Nat) (f g : α → α) (h : f (spGet d m k) = g (spGet d m k)) : spMod d m k f = spMod d m k g := by
  unfold spMod; rw [h]

theorem State.modPort_port (s : State) (k : Nat) (f : Port → Port) : (s.modPort k f).port k = f (s.port k) := spGet_spMod_same _ _ _ _
theorem State.modPort_port_ne (s : State) (k j : Nat) (f : Port → Port) (hj : j ≠ k) : (s.modPort k f).port j = s.port j := spGet_spMod_ne _ _ _ _ _ hj
theorem State.modPort_rising (s : State) (k : Nat) (f : Port → Port) (h : spRising none s.spn.ports = true) : spRising none (s.modPort k f).spn.ports = true := spRising_spMod _ _ _ _ h
theorem State.modPort_congr (s : State) (k : Nat) (f g : Port → Port) (h : f (s.port k) = g (s.port k)) : s.modPort k f = s.modPort k g := by
  unfold State.modPort; rw [spMod_congr _ _ _ f g h]

theorem State.modLane_lane (s : State) (k : Nat) (f : Lane → Lane) : (s.modLane k f).lane k = f (s.lane k) := spGet_spMod_same _ _ _ _
theorem State.modLane_lane_ne (s : State) (k j : Nat) (f : Lane → Lane) (hj : j ≠ k) : (s.modLane k f).lane j = s.lane j := spGet_spMod_ne _ _ _ _ _ hj
theorem State.modLane_rising (s : State) (k : Nat) (f : Lane → Lane) (h : spRising none s.thl.lane = true) : spRising none (s.modLane k f).thl.lane = true := spRising_spMod _ _ _ _ h
theorem State.modLane_congr (s : State) (k : Nat) (f g : Lane → Lane) (h : f (s.lane k) = g (s.lane k)) : s.modLane k f = s.modLane k g := by
  unfold State.modLane; rw [spMod_congr _ _ _ f g h]

theorem State.modSc_sc (s : State) (k : Nat) (f : ScSt → ScSt) : (s.modSc k f).sc k = f (s.sc k) := spGet_spMod_same _ _ _ _
theorem State.modSc_sc_ne (s : State) (k j : Nat) (f : ScSt → ScSt) (hj : j ≠ k) : (s.modSc k f).sc j = s.sc j := spGet_spMod_ne _ _ _ _ _ hj
theorem State.modSc_rising (s : State) (k : Nat) (f : ScSt → ScSt) (h : spRising none s.mem.sc = true) : spRising none (s.modSc k f).mem.sc = true := spRising_spMod _ _ _ _ h
theorem State.modSc_congr (s : State) (k : Nat) (f g : ScSt → ScSt) (h : f (s.sc k) = g (s.sc k)) : s.modSc k f = s.modSc k g := by
  unfold State.modSc; rw [spMod_congr _ _ _ f g h]

theorem State.modMach_mach (s : State) (k : Nat) (f : SmtMach → SmtMach) : (s.modMach k f).mach k = f (s.mach k) := spGet_spMod_same _ _ _ _
theorem State.modMach_mach_ne (s : State) (k j : Nat) (f : SmtMach → SmtMach) (hj : j ≠ k) : (s.modMach k f).mach j = s.mach j := spGet_spMod_ne _ _ _ _ _ hj
theorem State.modMach_rising (s : State) (k : Nat) (f : SmtMach → SmtMach) (h : spRising none s.smt = true) : spRising none (s.modMach k f).smt = true := spRising_spMod _ _ _ _ h
theorem State.modMach_congr (s : State) (k : Nat) (f g : SmtMach → SmtMach) (h : f (s.mach k) = g (s.mach k)) : s.modMach k f = s.modMach k g := by
  unfold State.modMach; rw [spMod_congr _ _ _ f g h]

theorem State.modFen_fen (s : State) (k : Nat) (f : Fen → Fen) : (s.modFen k f).fen k = f (s.fen k) := spGet_spMod_same _ _ _ _
theorem State.modFen_fen_ne (s : State) (k j : Nat) (f : Fen → Fen) (hj : j ≠ k) : (s.modFen k f).fen j = s.fen j := spGet_spMod_ne _ _ _ _ _ hj
theorem State.modFen_rising (s : State) (k : Nat) (f : Fen → Fen) (h : spRising none s.fir.fen = true) : spRising none (s.modFen k f).fir.fen = true := spRising_spMod _ _ _ _ h
theorem State.modFen_congr (s : State) (k : Nat) (f g : Fen → Fen) (h : f (s.fen k) = g (s.fen k)) : s.modFen k f = s.modFen k g := by
  unfold State.modFen; rw [spMod_congr _ _ _ f g h]

theorem State.modUp_up (s : State) (k : Nat) (f : UpSt → UpSt) : (s.modUp k f).up k = f (s.up k) := spGet_spMod_same _ _ _ _
theorem State.modUp_up_ne (s : State) (k j : Nat) (f : UpSt → UpSt) (hj : j ≠ k) : (s.modUp k f).up j = s.up j := spGet_spMod_ne _ _ _ _ _ hj
theorem State.modUp_rising (s : State) (k : Nat) (f : UpSt → UpSt) (h : spRising none s.mbx.up = true) : spRising none (s.modUp k f).mbx.up = true := spRising_spMod _ _ _ _ h
theorem State.modUp_congr (s : State) (k : Nat) (f g : UpSt → UpSt) (h : f (s.up k) = g (s.up k)) : s.modUp k f = s.modUp k g := by
  unfold State.modUp; rw [spMod_congr _ _ _ f g h]

theorem State.modCam_camPort (s : State) (k : Nat) (f : CamPort → CamPort) : (s.modCam k f).camPort k = f (s.camPort k) := spGet_spMod_same _ _ _ _
theorem State.modCam_camPort_ne (s : State) (k j : Nat) (f : CamPort → CamPort) (hj : j ≠ k) : (s.modCam k f).camPort j = s.camPort j := spGet_spMod_ne _ _ _ _ _ hj
theorem State.modCam_rising (s : State) (k : Nat) (f : CamPort → CamPort) (h : spRising none s.ins.port = true) : spRising none (s.modCam k f).ins.port = true := spRising_spMod _ _ _ _ h
theorem State.modCam_congr (s : State) (k : Nat) (f g : CamPort → CamPort) (h : f (s.camPort k) = g (s.camPort k)) : s.modCam k f = s.modCam k g := by
  unfold State.modCam State.modIns; dsimp only; rw [spMod_congr _ _ _ f g h]

theorem State.modEnc_enc (s : State) (k : Nat) (f : Enc → Enc) : (s.modEnc k f).enc k = f (s.enc k) := spGet_spMod_same _ _ _ _
theorem State.modEnc_enc_ne (s : State) (k j : Nat) (f : Enc → Enc) (hj : j ≠ k) : (s.modEnc k f).enc j = s.enc j := spGet_spMod_ne _ _ _ _ _ hj
theorem State.modEnc_rising (s : State) (k : Nat) (f : Enc → Enc) (h : spRising none s.pos.enc = true) : spRising none (s.modEnc k f).pos.enc = true := spRising_spMod _ _ _ _ h
theorem State.modEnc_congr (s : State) (k : Nat) (f g : Enc → Enc) (h : f (s.enc k) = g (s.enc k)) : s.modEnc k f = s.modEnc k g := by
  unfold State.modEnc State.modPos; dsimp only; rw [spMod_congr _ _ _ f g h]

theorem State.modCtrig_ctrig (s : State) (k : Nat) (f : TrigOut → TrigOut) : (s.modCtrig k f).ctrig k = f (s.ctrig k) := spGet_spMod_same _ _ _ _
theorem State.modCtrig_ctrig_ne (s : State) (k j : Nat) (f : TrigOut → TrigOut) (hj : j ≠ k) : (s.modCtrig k f).ctrig j = s.ctrig j := spGet_spMod_ne _ _ _ _ _ hj
theorem State.modCtrig_rising (s : State) (k : Nat) (f : TrigOut → TrigOut) (h : spRising none s.ins.ctrig = true) : spRising none (s.modCtrig k f).ins.ctrig = true := spRising_spMod _ _ _ _ h
theorem State.modCtrig_congr (s : State) (k : Nat) (f g : TrigOut → TrigOut) (h : f (s.ctrig k) = g (s.ctrig k)) : s.modCtrig k f = s.modCtrig k g := by
  unfold State.modCtrig State.modIns; dsimp only; rw [spMod_congr _ _ _ f g h]

theorem State.modLstb_lstb (s : State) (k : Nat) (f : TrigOut → TrigOut) : (s.modLstb k f).lstb k = f (s.lstb k) := spGet_spMod_same _ _ _ _
theorem State.modLstb_lstb_ne (s : State) (k j : Nat) (f : TrigOut → TrigOut) (hj : j ≠ k) : (s.modLstb k f).lstb j = s.lstb j := spGet_spMod_ne _ _ _ _ _ hj
theorem State.modLstb_rising (s : State) (k : Nat) (f : TrigOut → TrigOut) (h : spRising none s.ins.lstb = true) : spRising none (s.modLstb k f).ins.lstb = true := spRising_spMod _ _ _ _ h
theorem State.modLstb_congr (s : State) (k : Nat) (f g : TrigOut → TrigOut) (h : f (s.lstb k) = g (s.lstb k)) : s.modLstb k f = s.modLstb k g := by
  unfold State.modLstb State.modIns; dsimp only; rw [spMod_congr _ _ _ f g h]

end Sys2Proof.Machine
end

