-- ==== Sys2Proof/Laws/Frames.lean ====
section
/-!
SUPPORT. What a register update, an output or a change of one table leaves to be read elsewhere.
-/

namespace Sys2Proof.Machine

variable (s : State)

@[simp] theorem State.setReg_port (a v : Nat) (k : Nat) : (s.setReg a v).port k = s.port k := (rfl)
@[simp] theorem State.setReg_lane (a v : Nat) (k : Nat) : (s.setReg a v).lane k = s.lane k := (rfl)
@[simp] theorem State.setReg_sc (a v : Nat) (k : Nat) : (s.setReg a v).sc k = s.sc k := (rfl)
@[simp] theorem State.setReg_mach (a v : Nat) (k : Nat) : (s.setReg a v).mach k = s.mach k := (rfl)
@[simp] theorem State.setReg_fen (a v : Nat) (k : Nat) : (s.setReg a v).fen k = s.fen k := (rfl)
@[simp] theorem State.setReg_up (a v : Nat) (k : Nat) : (s.setReg a v).up k = s.up k := (rfl)
@[simp] theorem State.setReg_lock (a v : Nat) (k : Nat) : (s.setReg a v).lock k = s.lock k := (rfl)
@[simp] theorem State.setReg_camPort (a v : Nat) (k : Nat) : (s.setReg a v).camPort k = s.camPort k := (rfl)
@[simp] theorem State.setReg_enc (a v : Nat) (k : Nat) : (s.setReg a v).enc k = s.enc k := (rfl)
@[simp] theorem State.setReg_winWord (a v : Nat) (k : Nat) : (s.setReg a v).winWord k = s.winWord k := (rfl)
@[simp] theorem State.p_port (f : FR) (v : Nat) (k : Nat) : (s.p f v).port k = s.port k := (rfl)
@[simp] theorem State.p_lane (f : FR) (v : Nat) (k : Nat) : (s.p f v).lane k = s.lane k := (rfl)
@[simp] theorem State.p_sc (f : FR) (v : Nat) (k : Nat) : (s.p f v).sc k = s.sc k := (rfl)
@[simp] theorem State.p_mach (f : FR) (v : Nat) (k : Nat) : (s.p f v).mach k = s.mach k := (rfl)
@[simp] theorem State.p_fen (f : FR) (v : Nat) (k : Nat) : (s.p f v).fen k = s.fen k := (rfl)
@[simp] theorem State.p_up (f : FR) (v : Nat) (k : Nat) : (s.p f v).up k = s.up k := (rfl)
@[simp] theorem State.p_lock (f : FR) (v : Nat) (k : Nat) : (s.p f v).lock k = s.lock k := (rfl)
@[simp] theorem State.p_camPort (f : FR) (v : Nat) (k : Nat) : (s.p f v).camPort k = s.camPort k := (rfl)
@[simp] theorem State.p_enc (f : FR) (v : Nat) (k : Nat) : (s.p f v).enc k = s.enc k := (rfl)
@[simp] theorem State.p_winWord (f : FR) (v : Nat) (k : Nat) : (s.p f v).winWord k = s.winWord k := (rfl)
@[simp] theorem State.incBy_port (f : FR) (n : Nat) (k : Nat) : (s.incBy f n).port k = s.port k := (rfl)
@[simp] theorem State.incBy_lane (f : FR) (n : Nat) (k : Nat) : (s.incBy f n).lane k = s.lane k := (rfl)
@[simp] theorem State.incBy_sc (f : FR) (n : Nat) (k : Nat) : (s.incBy f n).sc k = s.sc k := (rfl)
@[simp] theorem State.incBy_mach (f : FR) (n : Nat) (k : Nat) : (s.incBy f n).mach k = s.mach k := (rfl)
@[simp] theorem State.incBy_fen (f : FR) (n : Nat) (k : Nat) : (s.incBy f n).fen k = s.fen k := (rfl)
@[simp] theorem State.incBy_up (f : FR) (n : Nat) (k : Nat) : (s.incBy f n).up k = s.up k := (rfl)
@[simp] theorem State.incBy_lock (f : FR) (n : Nat) (k : Nat) : (s.incBy f n).lock k = s.lock k := (rfl)
@[simp] theorem State.incBy_camPort (f : FR) (n : Nat) (k : Nat) : (s.incBy f n).camPort k = s.camPort k := (rfl)
@[simp] theorem State.incBy_enc (f : FR) (n : Nat) (k : Nat) : (s.incBy f n).enc k = s.enc k := (rfl)
@[simp] theorem State.incBy_winWord (f : FR) (n : Nat) (k : Nat) : (s.incBy f n).winWord k = s.winWord k := (rfl)
@[simp] theorem State.inc_port (f : FR) (k : Nat) : (s.inc f).port k = s.port k := (rfl)
@[simp] theorem State.inc_lane (f : FR) (k : Nat) : (s.inc f).lane k = s.lane k := (rfl)
@[simp] theorem State.inc_sc (f : FR) (k : Nat) : (s.inc f).sc k = s.sc k := (rfl)
@[simp] theorem State.inc_mach (f : FR) (k : Nat) : (s.inc f).mach k = s.mach k := (rfl)
@[simp] theorem State.inc_fen (f : FR) (k : Nat) : (s.inc f).fen k = s.fen k := (rfl)
@[simp] theorem State.inc_up (f : FR) (k : Nat) : (s.inc f).up k = s.up k := (rfl)
@[simp] theorem State.inc_lock (f : FR) (k : Nat) : (s.inc f).lock k = s.lock k := (rfl)
@[simp] theorem State.inc_camPort (f : FR) (k : Nat) : (s.inc f).camPort k = s.camPort k := (rfl)
@[simp] theorem State.inc_enc (f : FR) (k : Nat) : (s.inc f).enc k = s.enc k := (rfl)
@[simp] theorem State.inc_winWord (f : FR) (k : Nat) : (s.inc f).winWord k = s.winWord k := (rfl)
@[simp] theorem State.latch_port (b : Nat) (k : Nat) : (s.latch b).port k = s.port k := (rfl)
@[simp] theorem State.latch_lane (b : Nat) (k : Nat) : (s.latch b).lane k = s.lane k := (rfl)
@[simp] theorem State.latch_sc (b : Nat) (k : Nat) : (s.latch b).sc k = s.sc k := (rfl)
@[simp] theorem State.latch_mach (b : Nat) (k : Nat) : (s.latch b).mach k = s.mach k := (rfl)
@[simp] theorem State.latch_fen (b : Nat) (k : Nat) : (s.latch b).fen k = s.fen k := (rfl)
@[simp] theorem State.latch_up (b : Nat) (k : Nat) : (s.latch b).up k = s.up k := (rfl)
@[simp] theorem State.latch_lock (b : Nat) (k : Nat) : (s.latch b).lock k = s.lock k := (rfl)
@[simp] theorem State.latch_camPort (b : Nat) (k : Nat) : (s.latch b).camPort k = s.camPort k := (rfl)
@[simp] theorem State.latch_enc (b : Nat) (k : Nat) : (s.latch b).enc k = s.enc k := (rfl)
@[simp] theorem State.latch_winWord (b : Nat) (k : Nat) : (s.latch b).winWord k = s.winWord k := (rfl)
@[simp] theorem State.emit_port (o : Output) (k : Nat) : (s.emit o).port k = s.port k := (rfl)
@[simp] theorem State.emit_lane (o : Output) (k : Nat) : (s.emit o).lane k = s.lane k := (rfl)
@[simp] theorem State.emit_sc (o : Output) (k : Nat) : (s.emit o).sc k = s.sc k := (rfl)
@[simp] theorem State.emit_mach (o : Output) (k : Nat) : (s.emit o).mach k = s.mach k := (rfl)
@[simp] theorem State.emit_fen (o : Output) (k : Nat) : (s.emit o).fen k = s.fen k := (rfl)
@[simp] theorem State.emit_up (o : Output) (k : Nat) : (s.emit o).up k = s.up k := (rfl)
@[simp] theorem State.emit_lock (o : Output) (k : Nat) : (s.emit o).lock k = s.lock k := (rfl)
@[simp] theorem State.emit_camPort (o : Output) (k : Nat) : (s.emit o).camPort k = s.camPort k := (rfl)
@[simp] theorem State.emit_enc (o : Output) (k : Nat) : (s.emit o).enc k = s.enc k := (rfl)
@[simp] theorem State.emit_winWord (o : Output) (k : Nat) : (s.emit o).winWord k = s.winWord k := (rfl)

@[simp] theorem State.modCal_reg (x : CalSt → CalSt) (a : Nat) : (s.modCal x).reg a = s.reg a := (rfl)
@[simp] theorem State.modCal_act (x : CalSt → CalSt) (a : Nat) : (s.modCal x).act a = s.act a := (rfl)
@[simp] theorem State.modCal_g (x : CalSt → CalSt) (f : FR) : (s.modCal x).g f = s.g f := (rfl)
@[simp] theorem State.modCal_gb (x : CalSt → CalSt) (f : FR) : (s.modCal x).gb f = s.gb f := (rfl)
@[simp] theorem State.modCal_port (x : CalSt → CalSt) (k : Nat) : (s.modCal x).port k = s.port k := (rfl)
@[simp] theorem State.modCal_lane (x : CalSt → CalSt) (k : Nat) : (s.modCal x).lane k = s.lane k := (rfl)
@[simp] theorem State.modCal_sc (x : CalSt → CalSt) (k : Nat) : (s.modCal x).sc k = s.sc k := (rfl)
@[simp] theorem State.modCal_mach (x : CalSt → CalSt) (k : Nat) : (s.modCal x).mach k = s.mach k := (rfl)
@[simp] theorem State.modCal_fen (x : CalSt → CalSt) (k : Nat) : (s.modCal x).fen k = s.fen k := (rfl)
@[simp] theorem State.modCal_up (x : CalSt → CalSt) (k : Nat) : (s.modCal x).up k = s.up k := (rfl)
@[simp] theorem State.modCal_lock (x : CalSt → CalSt) (k : Nat) : (s.modCal x).lock k = s.lock k := (rfl)
@[simp] theorem State.modCal_camPort (x : CalSt → CalSt) (k : Nat) : (s.modCal x).camPort k = s.camPort k := (rfl)
@[simp] theorem State.modCal_enc (x : CalSt → CalSt) (k : Nat) : (s.modCal x).enc k = s.enc k := (rfl)
@[simp] theorem State.modCal_winWord (x : CalSt → CalSt) (k : Nat) : (s.modCal x).winWord k = s.winWord k := (rfl)
@[simp] theorem State.modClo_reg (x : CloSt → CloSt) (a : Nat) : (s.modClo x).reg a = s.reg a := (rfl)
@[simp] theorem State.modClo_act (x : CloSt → CloSt) (a : Nat) : (s.modClo x).act a = s.act a := (rfl)
@[simp] theorem State.modClo_g (x : CloSt → CloSt) (f : FR) : (s.modClo x).g f = s.g f := (rfl)
@[simp] theorem State.modClo_gb (x : CloSt → CloSt) (f : FR) : (s.modClo x).gb f = s.gb f := (rfl)
@[simp] theorem State.modClo_port (x : CloSt → CloSt) (k : Nat) : (s.modClo x).port k = s.port k := (rfl)
@[simp] theorem State.modClo_lane (x : CloSt → CloSt) (k : Nat) : (s.modClo x).lane k = s.lane k := (rfl)
@[simp] theorem State.modClo_sc (x : CloSt → CloSt) (k : Nat) : (s.modClo x).sc k = s.sc k := (rfl)
@[simp] theorem State.modClo_mach (x : CloSt → CloSt) (k : Nat) : (s.modClo x).mach k = s.mach k := (rfl)
@[simp] theorem State.modClo_fen (x : CloSt → CloSt) (k : Nat) : (s.modClo x).fen k = s.fen k := (rfl)
@[simp] theorem State.modClo_up (x : CloSt → CloSt) (k : Nat) : (s.modClo x).up k = s.up k := (rfl)
@[simp] theorem State.modClo_lock (x : CloSt → CloSt) (k : Nat) : (s.modClo x).lock k = s.lock k := (rfl)
@[simp] theorem State.modClo_camPort (x : CloSt → CloSt) (k : Nat) : (s.modClo x).camPort k = s.camPort k := (rfl)
@[simp] theorem State.modClo_enc (x : CloSt → CloSt) (k : Nat) : (s.modClo x).enc k = s.enc k := (rfl)
@[simp] theorem State.modClo_winWord (x : CloSt → CloSt) (k : Nat) : (s.modClo x).winWord k = s.winWord k := (rfl)
@[simp] theorem State.modFol_reg (x : FolSt → FolSt) (a : Nat) : (s.modFol x).reg a = s.reg a := (rfl)
@[simp] theorem State.modFol_act (x : FolSt → FolSt) (a : Nat) : (s.modFol x).act a = s.act a := (rfl)
@[simp] theorem State.modFol_g (x : FolSt → FolSt) (f : FR) : (s.modFol x).g f = s.g f := (rfl)
@[simp] theorem State.modFol_gb (x : FolSt → FolSt) (f : FR) : (s.modFol x).gb f = s.gb f := (rfl)
@[simp] theorem State.modFol_port (x : FolSt → FolSt) (k : Nat) : (s.modFol x).port k = s.port k := (rfl)
@[simp] theorem State.modFol_lane (x : FolSt → FolSt) (k : Nat) : (s.modFol x).lane k = s.lane k := (rfl)
@[simp] theorem State.modFol_sc (x : FolSt → FolSt) (k : Nat) : (s.modFol x).sc k = s.sc k := (rfl)
@[simp] theorem State.modFol_mach (x : FolSt → FolSt) (k : Nat) : (s.modFol x).mach k = s.mach k := (rfl)
@[simp] theorem State.modFol_fen (x : FolSt → FolSt) (k : Nat) : (s.modFol x).fen k = s.fen k := (rfl)
@[simp] theorem State.modFol_up (x : FolSt → FolSt) (k : Nat) : (s.modFol x).up k = s.up k := (rfl)
@[simp] theorem State.modFol_lock (x : FolSt → FolSt) (k : Nat) : (s.modFol x).lock k = s.lock k := (rfl)
@[simp] theorem State.modFol_camPort (x : FolSt → FolSt) (k : Nat) : (s.modFol x).camPort k = s.camPort k := (rfl)
@[simp] theorem State.modFol_enc (x : FolSt → FolSt) (k : Nat) : (s.modFol x).enc k = s.enc k := (rfl)
@[simp] theorem State.modFol_winWord (x : FolSt → FolSt) (k : Nat) : (s.modFol x).winWord k = s.winWord k := (rfl)
@[simp] theorem State.modIns_reg (x : InsSt → InsSt) (a : Nat) : (s.modIns x).reg a = s.reg a := (rfl)
@[simp] theorem State.modIns_act (x : InsSt → InsSt) (a : Nat) : (s.modIns x).act a = s.act a := (rfl)
@[simp] theorem State.modIns_g (x : InsSt → InsSt) (f : FR) : (s.modIns x).g f = s.g f := (rfl)
@[simp] theorem State.modIns_gb (x : InsSt → InsSt) (f : FR) : (s.modIns x).gb f = s.gb f := (rfl)
@[simp] theorem State.modIns_port (x : InsSt → InsSt) (k : Nat) : (s.modIns x).port k = s.port k := (rfl)
@[simp] theorem State.modIns_lane (x : InsSt → InsSt) (k : Nat) : (s.modIns x).lane k = s.lane k := (rfl)
@[simp] theorem State.modIns_sc (x : InsSt → InsSt) (k : Nat) : (s.modIns x).sc k = s.sc k := (rfl)
@[simp] theorem State.modIns_mach (x : InsSt → InsSt) (k : Nat) : (s.modIns x).mach k = s.mach k := (rfl)
@[simp] theorem State.modIns_fen (x : InsSt → InsSt) (k : Nat) : (s.modIns x).fen k = s.fen k := (rfl)
@[simp] theorem State.modIns_up (x : InsSt → InsSt) (k : Nat) : (s.modIns x).up k = s.up k := (rfl)
@[simp] theorem State.modIns_lock (x : InsSt → InsSt) (k : Nat) : (s.modIns x).lock k = s.lock k := (rfl)
@[simp] theorem State.modIns_enc (x : InsSt → InsSt) (k : Nat) : (s.modIns x).enc k = s.enc k := (rfl)
@[simp] theorem State.modIns_winWord (x : InsSt → InsSt) (k : Nat) : (s.modIns x).winWord k = s.winWord k := (rfl)
@[simp] theorem State.modNzh_reg (x : NzhSt → NzhSt) (a : Nat) : (s.modNzh x).reg a = s.reg a := (rfl)
@[simp] theorem State.modNzh_act (x : NzhSt → NzhSt) (a : Nat) : (s.modNzh x).act a = s.act a := (rfl)
@[simp] theorem State.modNzh_g (x : NzhSt → NzhSt) (f : FR) : (s.modNzh x).g f = s.g f := (rfl)
@[simp] theorem State.modNzh_gb (x : NzhSt → NzhSt) (f : FR) : (s.modNzh x).gb f = s.gb f := (rfl)
@[simp] theorem State.modNzh_port (x : NzhSt → NzhSt) (k : Nat) : (s.modNzh x).port k = s.port k := (rfl)
@[simp] theorem State.modNzh_lane (x : NzhSt → NzhSt) (k : Nat) : (s.modNzh x).lane k = s.lane k := (rfl)
@[simp] theorem State.modNzh_sc (x : NzhSt → NzhSt) (k : Nat) : (s.modNzh x).sc k = s.sc k := (rfl)
@[simp] theorem State.modNzh_mach (x : NzhSt → NzhSt) (k : Nat) : (s.modNzh x).mach k = s.mach k := (rfl)
@[simp] theorem State.modNzh_fen (x : NzhSt → NzhSt) (k : Nat) : (s.modNzh x).fen k = s.fen k := (rfl)
@[simp] theorem State.modNzh_up (x : NzhSt → NzhSt) (k : Nat) : (s.modNzh x).up k = s.up k := (rfl)
@[simp] theorem State.modNzh_lock (x : NzhSt → NzhSt) (k : Nat) : (s.modNzh x).lock k = s.lock k := (rfl)
@[simp] theorem State.modNzh_camPort (x : NzhSt → NzhSt) (k : Nat) : (s.modNzh x).camPort k = s.camPort k := (rfl)
@[simp] theorem State.modNzh_enc (x : NzhSt → NzhSt) (k : Nat) : (s.modNzh x).enc k = s.enc k := (rfl)
@[simp] theorem State.modNzh_winWord (x : NzhSt → NzhSt) (k : Nat) : (s.modNzh x).winWord k = s.winWord k := (rfl)
@[simp] theorem State.modQre_reg (x : QreSt → QreSt) (a : Nat) : (s.modQre x).reg a = s.reg a := (rfl)
@[simp] theorem State.modQre_act (x : QreSt → QreSt) (a : Nat) : (s.modQre x).act a = s.act a := (rfl)
@[simp] theorem State.modQre_g (x : QreSt → QreSt) (f : FR) : (s.modQre x).g f = s.g f := (rfl)
@[simp] theorem State.modQre_gb (x : QreSt → QreSt) (f : FR) : (s.modQre x).gb f = s.gb f := (rfl)
@[simp] theorem State.modQre_port (x : QreSt → QreSt) (k : Nat) : (s.modQre x).port k = s.port k := (rfl)
@[simp] theorem State.modQre_lane (x : QreSt → QreSt) (k : Nat) : (s.modQre x).lane k = s.lane k := (rfl)
@[simp] theorem State.modQre_sc (x : QreSt → QreSt) (k : Nat) : (s.modQre x).sc k = s.sc k := (rfl)
@[simp] theorem State.modQre_mach (x : QreSt → QreSt) (k : Nat) : (s.modQre x).mach k = s.mach k := (rfl)
@[simp] theorem State.modQre_fen (x : QreSt → QreSt) (k : Nat) : (s.modQre x).fen k = s.fen k := (rfl)
@[simp] theorem State.modQre_up (x : QreSt → QreSt) (k : Nat) : (s.modQre x).up k = s.up k := (rfl)
@[simp] theorem State.modQre_lock (x : QreSt → QreSt) (k : Nat) : (s.modQre x).lock k = s.lock k := (rfl)
@[simp] theorem State.modQre_camPort (x : QreSt → QreSt) (k : Nat) : (s.modQre x).camPort k = s.camPort k := (rfl)
@[simp] theorem State.modQre_enc (x : QreSt → QreSt) (k : Nat) : (s.modQre x).enc k = s.enc k := (rfl)
@[simp] theorem State.modQre_winWord (x : QreSt → QreSt) (k : Nat) : (s.modQre x).winWord k = s.winWord k := (rfl)
@[simp] theorem State.modTmb_reg (x : TmbSt → TmbSt) (a : Nat) : (s.modTmb x).reg a = s.reg a := (rfl)
@[simp] theorem State.modTmb_act (x : TmbSt → TmbSt) (a : Nat) : (s.modTmb x).act a = s.act a := (rfl)
@[simp] theorem State.modTmb_g (x : TmbSt → TmbSt) (f : FR) : (s.modTmb x).g f = s.g f := (rfl)
@[simp] theorem State.modTmb_gb (x : TmbSt → TmbSt) (f : FR) : (s.modTmb x).gb f = s.gb f := (rfl)
@[simp] theorem State.modTmb_port (x : TmbSt → TmbSt) (k : Nat) : (s.modTmb x).port k = s.port k := (rfl)
@[simp] theorem State.modTmb_lane (x : TmbSt → TmbSt) (k : Nat) : (s.modTmb x).lane k = s.lane k := (rfl)
@[simp] theorem State.modTmb_sc (x : TmbSt → TmbSt) (k : Nat) : (s.modTmb x).sc k = s.sc k := (rfl)
@[simp] theorem State.modTmb_mach (x : TmbSt → TmbSt) (k : Nat) : (s.modTmb x).mach k = s.mach k := (rfl)
@[simp] theorem State.modTmb_fen (x : TmbSt → TmbSt) (k : Nat) : (s.modTmb x).fen k = s.fen k := (rfl)
@[simp] theorem State.modTmb_up (x : TmbSt → TmbSt) (k : Nat) : (s.modTmb x).up k = s.up k := (rfl)
@[simp] theorem State.modTmb_lock (x : TmbSt → TmbSt) (k : Nat) : (s.modTmb x).lock k = s.lock k := (rfl)
@[simp] theorem State.modTmb_camPort (x : TmbSt → TmbSt) (k : Nat) : (s.modTmb x).camPort k = s.camPort k := (rfl)
@[simp] theorem State.modTmb_enc (x : TmbSt → TmbSt) (k : Nat) : (s.modTmb x).enc k = s.enc k := (rfl)
@[simp] theorem State.modTmb_winWord (x : TmbSt → TmbSt) (k : Nat) : (s.modTmb x).winWord k = s.winWord k := (rfl)
@[simp] theorem State.modPos_reg (x : PosSt → PosSt) (a : Nat) : (s.modPos x).reg a = s.reg a := (rfl)
@[simp] theorem State.modPos_act (x : PosSt → PosSt) (a : Nat) : (s.modPos x).act a = s.act a := (rfl)
@[simp] theorem State.modPos_g (x : PosSt → PosSt) (f : FR) : (s.modPos x).g f = s.g f := (rfl)
@[simp] theorem State.modPos_gb (x : PosSt → PosSt) (f : FR) : (s.modPos x).gb f = s.gb f := (rfl)
@[simp] theorem State.modPos_port (x : PosSt → PosSt) (k : Nat) : (s.modPos x).port k = s.port k := (rfl)
@[simp] theorem State.modPos_lane (x : PosSt → PosSt) (k : Nat) : (s.modPos x).lane k = s.lane k := (rfl)
@[simp] theorem State.modPos_sc (x : PosSt → PosSt) (k : Nat) : (s.modPos x).sc k = s.sc k := (rfl)
@[simp] theorem State.modPos_mach (x : PosSt → PosSt) (k : Nat) : (s.modPos x).mach k = s.mach k := (rfl)
@[simp] theorem State.modPos_fen (x : PosSt → PosSt) (k : Nat) : (s.modPos x).fen k = s.fen k := (rfl)
@[simp] theorem State.modPos_up (x : PosSt → PosSt) (k : Nat) : (s.modPos x).up k = s.up k := (rfl)
@[simp] theorem State.modPos_lock (x : PosSt → PosSt) (k : Nat) : (s.modPos x).lock k = s.lock k := (rfl)
@[simp] theorem State.modPos_camPort (x : PosSt → PosSt) (k : Nat) : (s.modPos x).camPort k = s.camPort k := (rfl)
@[simp] theorem State.modPos_winWord (x : PosSt → PosSt) (k : Nat) : (s.modPos x).winWord k = s.winWord k := (rfl)
@[simp] theorem State.modFir_reg (x : FirSt → FirSt) (a : Nat) : (s.modFir x).reg a = s.reg a := (rfl)
@[simp] theorem State.modFir_act (x : FirSt → FirSt) (a : Nat) : (s.modFir x).act a = s.act a := (rfl)
@[simp] theorem State.modFir_g (x : FirSt → FirSt) (f : FR) : (s.modFir x).g f = s.g f := (rfl)
@[simp] theorem State.modFir_gb (x : FirSt → FirSt) (f : FR) : (s.modFir x).gb f = s.gb f := (rfl)
@[simp] theorem State.modFir_port (x : FirSt → FirSt) (k : Nat) : (s.modFir x).port k = s.port k := (rfl)
@[simp] theorem State.modFir_lane (x : FirSt → FirSt) (k : Nat) : (s.modFir x).lane k = s.lane k := (rfl)
@[simp] theorem State.modFir_sc (x : FirSt → FirSt) (k : Nat) : (s.modFir x).sc k = s.sc k := (rfl)
@[simp] theorem State.modFir_mach (x : FirSt → FirSt) (k : Nat) : (s.modFir x).mach k = s.mach k := (rfl)
@[simp] theorem State.modFir_up (x : FirSt → FirSt) (k : Nat) : (s.modFir x).up k = s.up k := (rfl)
@[simp] theorem State.modFir_lock (x : FirSt → FirSt) (k : Nat) : (s.modFir x).lock k = s.lock k := (rfl)
@[simp] theorem State.modFir_camPort (x : FirSt → FirSt) (k : Nat) : (s.modFir x).camPort k = s.camPort k := (rfl)
@[simp] theorem State.modFir_enc (x : FirSt → FirSt) (k : Nat) : (s.modFir x).enc k = s.enc k := (rfl)
@[simp] theorem State.modFir_winWord (x : FirSt → FirSt) (k : Nat) : (s.modFir x).winWord k = s.winWord k := (rfl)
@[simp] theorem State.modPort_reg (i : Nat) (x : Port → Port) (a : Nat) : (s.modPort i x).reg a = s.reg a := (rfl)
@[simp] theorem State.modPort_act (i : Nat) (x : Port → Port) (a : Nat) : (s.modPort i x).act a = s.act a := (rfl)
@[simp] theorem State.modPort_g (i : Nat) (x : Port → Port) (f : FR) : (s.modPort i x).g f = s.g f := (rfl)
@[simp] theorem State.modPort_gb (i : Nat) (x : Port → Port) (f : FR) : (s.modPort i x).gb f = s.gb f := (rfl)
@[simp] theorem State.modPort_lane (i : Nat) (x : Port → Port) (k : Nat) : (s.modPort i x).lane k = s.lane k := (rfl)
@[simp] theorem State.modPort_sc (i : Nat) (x : Port → Port) (k : Nat) : (s.modPort i x).sc k = s.sc k := (rfl)
@[simp] theorem State.modPort_mach (i : Nat) (x : Port → Port) (k : Nat) : (s.modPort i x).mach k = s.mach k := (rfl)
@[simp] theorem State.modPort_fen (i : Nat) (x : Port → Port) (k : Nat) : (s.modPort i x).fen k = s.fen k := (rfl)
@[simp] theorem State.modPort_up (i : Nat) (x : Port → Port) (k : Nat) : (s.modPort i x).up k = s.up k := (rfl)
@[simp] theorem State.modPort_lock (i : Nat) (x : Port → Port) (k : Nat) : (s.modPort i x).lock k = s.lock k := (rfl)
@[simp] theorem State.modPort_camPort (i : Nat) (x : Port → Port) (k : Nat) : (s.modPort i x).camPort k = s.camPort k := (rfl)
@[simp] theorem State.modPort_enc (i : Nat) (x : Port → Port) (k : Nat) : (s.modPort i x).enc k = s.enc k := (rfl)
@[simp] theorem State.modPort_winWord (i : Nat) (x : Port → Port) (k : Nat) : (s.modPort i x).winWord k = s.winWord k := (rfl)
@[simp] theorem State.modLane_reg (i : Nat) (x : Lane → Lane) (a : Nat) : (s.modLane i x).reg a = s.reg a := (rfl)
@[simp] theorem State.modLane_act (i : Nat) (x : Lane → Lane) (a : Nat) : (s.modLane i x).act a = s.act a := (rfl)
@[simp] theorem State.modLane_g (i : Nat) (x : Lane → Lane) (f : FR) : (s.modLane i x).g f = s.g f := (rfl)
@[simp] theorem State.modLane_gb (i : Nat) (x : Lane → Lane) (f : FR) : (s.modLane i x).gb f = s.gb f := (rfl)
@[simp] theorem State.modLane_port (i : Nat) (x : Lane → Lane) (k : Nat) : (s.modLane i x).port k = s.port k := (rfl)
@[simp] theorem State.modLane_sc (i : Nat) (x : Lane → Lane) (k : Nat) : (s.modLane i x).sc k = s.sc k := (rfl)
@[simp] theorem State.modLane_mach (i : Nat) (x : Lane → Lane) (k : Nat) : (s.modLane i x).mach k = s.mach k := (rfl)
@[simp] theorem State.modLane_fen (i : Nat) (x : Lane → Lane) (k : Nat) : (s.modLane i x).fen k = s.fen k := (rfl)
@[simp] theorem State.modLane_up (i : Nat) (x : Lane → Lane) (k : Nat) : (s.modLane i x).up k = s.up k := (rfl)
@[simp] theorem State.modLane_lock (i : Nat) (x : Lane → Lane) (k : Nat) : (s.modLane i x).lock k = s.lock k := (rfl)
@[simp] theorem State.modLane_camPort (i : Nat) (x : Lane → Lane) (k : Nat) : (s.modLane i x).camPort k = s.camPort k := (rfl)
@[simp] theorem State.modLane_enc (i : Nat) (x : Lane → Lane) (k : Nat) : (s.modLane i x).enc k = s.enc k := (rfl)
@[simp] theorem State.modLane_winWord (i : Nat) (x : Lane → Lane) (k : Nat) : (s.modLane i x).winWord k = s.winWord k := (rfl)
@[simp] theorem State.modSc_reg (i : Nat) (x : ScSt → ScSt) (a : Nat) : (s.modSc i x).reg a = s.reg a := (rfl)
@[simp] theorem State.modSc_act (i : Nat) (x : ScSt → ScSt) (a : Nat) : (s.modSc i x).act a = s.act a := (rfl)
@[simp] theorem State.modSc_g (i : Nat) (x : ScSt → ScSt) (f : FR) : (s.modSc i x).g f = s.g f := (rfl)
@[simp] theorem State.modSc_gb (i : Nat) (x : ScSt → ScSt) (f : FR) : (s.modSc i x).gb f = s.gb f := (rfl)
@[simp] theorem State.modSc_port (i : Nat) (x : ScSt → ScSt) (k : Nat) : (s.modSc i x).port k = s.port k := (rfl)
@[simp] theorem State.modSc_lane (i : Nat) (x : ScSt → ScSt) (k : Nat) : (s.modSc i x).lane k = s.lane k := (rfl)
@[simp] theorem State.modSc_mach (i : Nat) (x : ScSt → ScSt) (k : Nat) : (s.modSc i x).mach k = s.mach k := (rfl)
@[simp] theorem State.modSc_fen (i : Nat) (x : ScSt → ScSt) (k : Nat) : (s.modSc i x).fen k = s.fen k := (rfl)
@[simp] theorem State.modSc_up (i : Nat) (x : ScSt → ScSt) (k : Nat) : (s.modSc i x).up k = s.up k := (rfl)
@[simp] theorem State.modSc_lock (i : Nat) (x : ScSt → ScSt) (k : Nat) : (s.modSc i x).lock k = s.lock k := (rfl)
@[simp] theorem State.modSc_camPort (i : Nat) (x : ScSt → ScSt) (k : Nat) : (s.modSc i x).camPort k = s.camPort k := (rfl)
@[simp] theorem State.modSc_enc (i : Nat) (x : ScSt → ScSt) (k : Nat) : (s.modSc i x).enc k = s.enc k := (rfl)
@[simp] theorem State.modSc_winWord (i : Nat) (x : ScSt → ScSt) (k : Nat) : (s.modSc i x).winWord k = s.winWord k := (rfl)
@[simp] theorem State.modMach_reg (i : Nat) (x : SmtMach → SmtMach) (a : Nat) : (s.modMach i x).reg a = s.reg a := (rfl)
@[simp] theorem State.modMach_act (i : Nat) (x : SmtMach → SmtMach) (a : Nat) : (s.modMach i x).act a = s.act a := (rfl)
@[simp] theorem State.modMach_g (i : Nat) (x : SmtMach → SmtMach) (f : FR) : (s.modMach i x).g f = s.g f := (rfl)
@[simp] theorem State.modMach_gb (i : Nat) (x : SmtMach → SmtMach) (f : FR) : (s.modMach i x).gb f = s.gb f := (rfl)
@[simp] theorem State.modMach_port (i : Nat) (x : SmtMach → SmtMach) (k : Nat) : (s.modMach i x).port k = s.port k := (rfl)
@[simp] theorem State.modMach_lane (i : Nat) (x : SmtMach → SmtMach) (k : Nat) : (s.modMach i x).lane k = s.lane k := (rfl)
@[simp] theorem State.modMach_sc (i : Nat) (x : SmtMach → SmtMach) (k : Nat) : (s.modMach i x).sc k = s.sc k := (rfl)
@[simp] theorem State.modMach_fen (i : Nat) (x : SmtMach → SmtMach) (k : Nat) : (s.modMach i x).fen k = s.fen k := (rfl)
@[simp] theorem State.modMach_up (i : Nat) (x : SmtMach → SmtMach) (k : Nat) : (s.modMach i x).up k = s.up k := (rfl)
@[simp] theorem State.modMach_lock (i : Nat) (x : SmtMach → SmtMach) (k : Nat) : (s.modMach i x).lock k = s.lock k := (rfl)
@[simp] theorem State.modMach_camPort (i : Nat) (x : SmtMach → SmtMach) (k : Nat) : (s.modMach i x).camPort k = s.camPort k := (rfl)
@[simp] theorem State.modMach_enc (i : Nat) (x : SmtMach → SmtMach) (k : Nat) : (s.modMach i x).enc k = s.enc k := (rfl)
@[simp] theorem State.modMach_winWord (i : Nat) (x : SmtMach → SmtMach) (k : Nat) : (s.modMach i x).winWord k = s.winWord k := (rfl)
@[simp] theorem State.modFen_reg (i : Nat) (x : Fen → Fen) (a : Nat) : (s.modFen i x).reg a = s.reg a := (rfl)
@[simp] theorem State.modFen_act (i : Nat) (x : Fen → Fen) (a : Nat) : (s.modFen i x).act a = s.act a := (rfl)
@[simp] theorem State.modFen_g (i : Nat) (x : Fen → Fen) (f : FR) : (s.modFen i x).g f = s.g f := (rfl)
@[simp] theorem State.modFen_gb (i : Nat) (x : Fen → Fen) (f : FR) : (s.modFen i x).gb f = s.gb f := (rfl)
@[simp] theorem State.modFen_port (i : Nat) (x : Fen → Fen) (k : Nat) : (s.modFen i x).port k = s.port k := (rfl)
@[simp] theorem State.modFen_lane (i : Nat) (x : Fen → Fen) (k : Nat) : (s.modFen i x).lane k = s.lane k := (rfl)
@[simp] theorem State.modFen_sc (i : Nat) (x : Fen → Fen) (k : Nat) : (s.modFen i x).sc k = s.sc k := (rfl)
@[simp] theorem State.modFen_mach (i : Nat) (x : Fen → Fen) (k : Nat) : (s.modFen i x).mach k = s.mach k := (rfl)
@[simp] theorem State.modFen_up (i : Nat) (x : Fen → Fen) (k : Nat) : (s.modFen i x).up k = s.up k := (rfl)
@[simp] theorem State.modFen_lock (i : Nat) (x : Fen → Fen) (k : Nat) : (s.modFen i x).lock k = s.lock k := (rfl)
@[simp] theorem State.modFen_camPort (i : Nat) (x : Fen → Fen) (k : Nat) : (s.modFen i x).camPort k = s.camPort k := (rfl)
@[simp] theorem State.modFen_enc (i : Nat) (x : Fen → Fen) (k : Nat) : (s.modFen i x).enc k = s.enc k := (rfl)
@[simp] theorem State.modFen_winWord (i : Nat) (x : Fen → Fen) (k : Nat) : (s.modFen i x).winWord k = s.winWord k := (rfl)
@[simp] theorem State.modUp_reg (i : Nat) (x : UpSt → UpSt) (a : Nat) : (s.modUp i x).reg a = s.reg a := (rfl)
@[simp] theorem State.modUp_act (i : Nat) (x : UpSt → UpSt) (a : Nat) : (s.modUp i x).act a = s.act a := (rfl)
@[simp] theorem State.modUp_g (i : Nat) (x : UpSt → UpSt) (f : FR) : (s.modUp i x).g f = s.g f := (rfl)
@[simp] theorem State.modUp_gb (i : Nat) (x : UpSt → UpSt) (f : FR) : (s.modUp i x).gb f = s.gb f := (rfl)
@[simp] theorem State.modUp_port (i : Nat) (x : UpSt → UpSt) (k : Nat) : (s.modUp i x).port k = s.port k := (rfl)
@[simp] theorem State.modUp_lane (i : Nat) (x : UpSt → UpSt) (k : Nat) : (s.modUp i x).lane k = s.lane k := (rfl)
@[simp] theorem State.modUp_sc (i : Nat) (x : UpSt → UpSt) (k : Nat) : (s.modUp i x).sc k = s.sc k := (rfl)
@[simp] theorem State.modUp_mach (i : Nat) (x : UpSt → UpSt) (k : Nat) : (s.modUp i x).mach k = s.mach k := (rfl)
@[simp] theorem State.modUp_fen (i : Nat) (x : UpSt → UpSt) (k : Nat) : (s.modUp i x).fen k = s.fen k := (rfl)
@[simp] theorem State.modUp_lock (i : Nat) (x : UpSt → UpSt) (k : Nat) : (s.modUp i x).lock k = s.lock k := (rfl)
@[simp] theorem State.modUp_camPort (i : Nat) (x : UpSt → UpSt) (k : Nat) : (s.modUp i x).camPort k = s.camPort k := (rfl)
@[simp] theorem State.modUp_enc (i : Nat) (x : UpSt → UpSt) (k : Nat) : (s.modUp i x).enc k = s.enc k := (rfl)
@[simp] theorem State.modUp_winWord (i : Nat) (x : UpSt → UpSt) (k : Nat) : (s.modUp i x).winWord k = s.winWord k := (rfl)
@[simp] theorem State.modCam_reg (i : Nat) (x : CamPort → CamPort) (a : Nat) : (s.modCam i x).reg a = s.reg a := (rfl)
@[simp] theorem State.modCam_act (i : Nat) (x : CamPort → CamPort) (a : Nat) : (s.modCam i x).act a = s.act a := (rfl)
@[simp] theorem State.modCam_g (i : Nat) (x : CamPort → CamPort) (f : FR) : (s.modCam i x).g f = s.g f := (rfl)
@[simp] theorem State.modCam_gb (i : Nat) (x : CamPort → CamPort) (f : FR) : (s.modCam i x).gb f = s.gb f := (rfl)
@[simp] theorem State.modCam_port (i : Nat) (x : CamPort → CamPort) (k : Nat) : (s.modCam i x).port k = s.port k := (rfl)
@[simp] theorem State.modCam_lane (i : Nat) (x : CamPort → CamPort) (k : Nat) : (s.modCam i x).lane k = s.lane k := (rfl)
@[simp] theorem State.modCam_sc (i : Nat) (x : CamPort → CamPort) (k : Nat) : (s.modCam i x).sc k = s.sc k := (rfl)
@[simp] theorem State.modCam_mach (i : Nat) (x : CamPort → CamPort) (k : Nat) : (s.modCam i x).mach k = s.mach k := (rfl)
@[simp] theorem State.modCam_fen (i : Nat) (x : CamPort → CamPort) (k : Nat) : (s.modCam i x).fen k = s.fen k := (rfl)
@[simp] theorem State.modCam_up (i : Nat) (x : CamPort → CamPort) (k : Nat) : (s.modCam i x).up k = s.up k := (rfl)
@[simp] theorem State.modCam_lock (i : Nat) (x : CamPort → CamPort) (k : Nat) : (s.modCam i x).lock k = s.lock k := (rfl)
@[simp] theorem State.modCam_enc (i : Nat) (x : CamPort → CamPort) (k : Nat) : (s.modCam i x).enc k = s.enc k := (rfl)
@[simp] theorem State.modCam_winWord (i : Nat) (x : CamPort → CamPort) (k : Nat) : (s.modCam i x).winWord k = s.winWord k := (rfl)
@[simp] theorem State.modEnc_reg (i : Nat) (x : Enc → Enc) (a : Nat) : (s.modEnc i x).reg a = s.reg a := (rfl)
@[simp] theorem State.modEnc_act (i : Nat) (x : Enc → Enc) (a : Nat) : (s.modEnc i x).act a = s.act a := (rfl)
@[simp] theorem State.modEnc_g (i : Nat) (x : Enc → Enc) (f : FR) : (s.modEnc i x).g f = s.g f := (rfl)
@[simp] theorem State.modEnc_gb (i : Nat) (x : Enc → Enc) (f : FR) : (s.modEnc i x).gb f = s.gb f := (rfl)
@[simp] theorem State.modEnc_port (i : Nat) (x : Enc → Enc) (k : Nat) : (s.modEnc i x).port k = s.port k := (rfl)
@[simp] theorem State.modEnc_lane (i : Nat) (x : Enc → Enc) (k : Nat) : (s.modEnc i x).lane k = s.lane k := (rfl)
@[simp] theorem State.modEnc_sc (i : Nat) (x : Enc → Enc) (k : Nat) : (s.modEnc i x).sc k = s.sc k := (rfl)
@[simp] theorem State.modEnc_mach (i : Nat) (x : Enc → Enc) (k : Nat) : (s.modEnc i x).mach k = s.mach k := (rfl)
@[simp] theorem State.modEnc_fen (i : Nat) (x : Enc → Enc) (k : Nat) : (s.modEnc i x).fen k = s.fen k := (rfl)
@[simp] theorem State.modEnc_up (i : Nat) (x : Enc → Enc) (k : Nat) : (s.modEnc i x).up k = s.up k := (rfl)
@[simp] theorem State.modEnc_lock (i : Nat) (x : Enc → Enc) (k : Nat) : (s.modEnc i x).lock k = s.lock k := (rfl)
@[simp] theorem State.modEnc_camPort (i : Nat) (x : Enc → Enc) (k : Nat) : (s.modEnc i x).camPort k = s.camPort k := (rfl)
@[simp] theorem State.modEnc_winWord (i : Nat) (x : Enc → Enc) (k : Nat) : (s.modEnc i x).winWord k = s.winWord k := (rfl)
@[simp] theorem State.modCtrig_reg (i : Nat) (x : TrigOut → TrigOut) (a : Nat) : (s.modCtrig i x).reg a = s.reg a := (rfl)
@[simp] theorem State.modCtrig_act (i : Nat) (x : TrigOut → TrigOut) (a : Nat) : (s.modCtrig i x).act a = s.act a := (rfl)
@[simp] theorem State.modCtrig_g (i : Nat) (x : TrigOut → TrigOut) (f : FR) : (s.modCtrig i x).g f = s.g f := (rfl)
@[simp] theorem State.modCtrig_gb (i : Nat) (x : TrigOut → TrigOut) (f : FR) : (s.modCtrig i x).gb f = s.gb f := (rfl)
@[simp] theorem State.modCtrig_port (i : Nat) (x : TrigOut → TrigOut) (k : Nat) : (s.modCtrig i x).port k = s.port k := (rfl)
@[simp] theorem State.modCtrig_lane (i : Nat) (x : TrigOut → TrigOut) (k : Nat) : (s.modCtrig i x).lane k = s.lane k := (rfl)
@[simp] theorem State.modCtrig_sc (i : Nat) (x : TrigOut → TrigOut) (k : Nat) : (s.modCtrig i x).sc k = s.sc k := (rfl)
@[simp] theorem State.modCtrig_mach (i : Nat) (x : TrigOut → TrigOut) (k : Nat) : (s.modCtrig i x).mach k = s.mach k := (rfl)
@[simp] theorem State.modCtrig_fen (i : Nat) (x : TrigOut → TrigOut) (k : Nat) : (s.modCtrig i x).fen k = s.fen k := (rfl)
@[simp] theorem State.modCtrig_up (i : Nat) (x : TrigOut → TrigOut) (k : Nat) : (s.modCtrig i x).up k = s.up k := (rfl)
@[simp] theorem State.modCtrig_lock (i : Nat) (x : TrigOut → TrigOut) (k : Nat) : (s.modCtrig i x).lock k = s.lock k := (rfl)
@[simp] theorem State.modCtrig_camPort (i : Nat) (x : TrigOut → TrigOut) (k : Nat) : (s.modCtrig i x).camPort k = s.camPort k := (rfl)
@[simp] theorem State.modCtrig_enc (i : Nat) (x : TrigOut → TrigOut) (k : Nat) : (s.modCtrig i x).enc k = s.enc k := (rfl)
@[simp] theorem State.modCtrig_winWord (i : Nat) (x : TrigOut → TrigOut) (k : Nat) : (s.modCtrig i x).winWord k = s.winWord k := (rfl)
@[simp] theorem State.modLstb_reg (i : Nat) (x : TrigOut → TrigOut) (a : Nat) : (s.modLstb i x).reg a = s.reg a := (rfl)
@[simp] theorem State.modLstb_act (i : Nat) (x : TrigOut → TrigOut) (a : Nat) : (s.modLstb i x).act a = s.act a := (rfl)
@[simp] theorem State.modLstb_g (i : Nat) (x : TrigOut → TrigOut) (f : FR) : (s.modLstb i x).g f = s.g f := (rfl)
@[simp] theorem State.modLstb_gb (i : Nat) (x : TrigOut → TrigOut) (f : FR) : (s.modLstb i x).gb f = s.gb f := (rfl)
@[simp] theorem State.modLstb_port (i : Nat) (x : TrigOut → TrigOut) (k : Nat) : (s.modLstb i x).port k = s.port k := (rfl)
@[simp] theorem State.modLstb_lane (i : Nat) (x : TrigOut → TrigOut) (k : Nat) : (s.modLstb i x).lane k = s.lane k := (rfl)
@[simp] theorem State.modLstb_sc (i : Nat) (x : TrigOut → TrigOut) (k : Nat) : (s.modLstb i x).sc k = s.sc k := (rfl)
@[simp] theorem State.modLstb_mach (i : Nat) (x : TrigOut → TrigOut) (k : Nat) : (s.modLstb i x).mach k = s.mach k := (rfl)
@[simp] theorem State.modLstb_fen (i : Nat) (x : TrigOut → TrigOut) (k : Nat) : (s.modLstb i x).fen k = s.fen k := (rfl)
@[simp] theorem State.modLstb_up (i : Nat) (x : TrigOut → TrigOut) (k : Nat) : (s.modLstb i x).up k = s.up k := (rfl)
@[simp] theorem State.modLstb_lock (i : Nat) (x : TrigOut → TrigOut) (k : Nat) : (s.modLstb i x).lock k = s.lock k := (rfl)
@[simp] theorem State.modLstb_camPort (i : Nat) (x : TrigOut → TrigOut) (k : Nat) : (s.modLstb i x).camPort k = s.camPort k := (rfl)
@[simp] theorem State.modLstb_enc (i : Nat) (x : TrigOut → TrigOut) (k : Nat) : (s.modLstb i x).enc k = s.enc k := (rfl)
@[simp] theorem State.modLstb_winWord (i : Nat) (x : TrigOut → TrigOut) (k : Nat) : (s.modLstb i x).winWord k = s.winWord k := (rfl)
@[simp] theorem State.emit_reg (o : Output) (a : Nat) : (s.emit o).reg a = s.reg a := (rfl)
@[simp] theorem State.emit_act (o : Output) (a : Nat) : (s.emit o).act a = s.act a := (rfl)
@[simp] theorem State.emit_g (o : Output) (f : FR) : (s.emit o).g f = s.g f := (rfl)
@[simp] theorem State.emit_gb (o : Output) (f : FR) : (s.emit o).gb f = s.gb f := (rfl)

@[simp] theorem State.setReg_act (a v : Nat) (k : Nat) : (s.setReg a v).act k = s.act k := (rfl)
@[simp] theorem State.p_act (f : FR) (v : Nat) (k : Nat) : (s.p f v).act k = s.act k := (rfl)
@[simp] theorem State.incBy_act (f : FR) (n : Nat) (k : Nat) : (s.incBy f n).act k = s.act k := (rfl)
@[simp] theorem State.inc_act (f : FR) (k : Nat) : (s.inc f).act k = s.act k := (rfl)
@[simp] theorem State.latch_act (b : Nat) (k : Nat) : (s.latch b).act k = s.act k := (rfl)

/-- Fields depend on the registers and their active copies alone. -/
theorem State.g_congr {s t : State} (h1 : t.regs = s.regs) (h2 : t.active = s.active) (f : FR) : t.g f = s.g f := by
  simp only [State.g, State.reg, State.act, h1, h2]

theorem State.gb_congr {s t : State} (h1 : t.regs = s.regs) (h2 : t.active = s.active) (f : FR) : t.gb f = s.gb f := by
  simp only [State.gb, State.g_congr h1 h2]

end Sys2Proof.Machine
end

