-- ==== Sys2Proof/Laws/Record.lean ====
section
/-!
SUPPORT. Laws of error events and posted descriptors: they change registers, the error block, the posting queue, the supervisor's pending events and
the SRAM marks, and nothing else of the machine.
-/

namespace Sys2Proof.Machine

/-- The machine without what error events, posted descriptors and supervisor events change. -/
def State.core (s : State) : State :=
  { s with regs := [], err := {}, smt := [], sram := {}, mbx := { s.mbx with postq := [], lostb := [] } }

theorem State.core_regs (s : State) (x : Sparse Word) : ({ s with regs := x } : State).core = s.core := by simp only [State.core]
theorem State.core_err (s : State) (x : ErrSt) : ({ s with err := x } : State).core = s.core := by simp only [State.core]
theorem State.core_smt (s : State) (x : Sparse SmtMach) : ({ s with smt := x } : State).core = s.core := by simp only [State.core]
theorem State.core_sram (s : State) (x : SramSt) : ({ s with sram := x } : State).core = s.core := by simp only [State.core]
theorem State.core_postq (s : State) (x : List Desc) : ({ s with mbx := { s.mbx with postq := x } } : State).core = s.core := by simp only [State.core]
theorem State.core_lostb (s : State) (x : Sparse Bool) : ({ s with mbx := { s.mbx with lostb := x } } : State).core = s.core := by simp only [State.core]

@[simp] theorem State.setReg_core (s : State) (a v : Nat) : (s.setReg a v).core = s.core := s.core_regs _
@[simp] theorem State.p_core (s : State) (f : FR) (v : Nat) : (s.p f v).core = s.core := by unfold State.p; exact s.setReg_core _ _
@[simp] theorem State.incBy_core (s : State) (f : FR) (n : Nat) : (s.incBy f n).core = s.core := by unfold State.incBy; exact s.p_core _ _
@[simp] theorem State.inc_core (s : State) (f : FR) : (s.inc f).core = s.core := by unfold State.inc; exact s.incBy_core _ _
@[simp] theorem State.latch_core (s : State) (b : Nat) : (s.latch b).core = s.core := by unfold State.latch; exact s.setReg_core _ _
@[simp] theorem State.modMach_core (s : State) (m : Nat) (f : SmtMach → SmtMach) : (s.modMach m f).core = s.core := s.core_smt _
@[simp] theorem State.injUse_core (s : State) : s.injUse.core = s.core := by unfold State.injUse; rw [State.inc_core, State.core_err]

/-- A fold of steps that keep the core keeps it. -/
theorem foldl_core {α : Type} (f : State → α → State) (h : ∀ s a, (f s a).core = s.core) (l : List α) (s : State) : (l.foldl f s).core = s.core := by
  induction l generalizing s with
  | nil => rfl
  | cons a l ih => rw [List.foldl_cons, ih, h]

@[simp] theorem State.pendLocal_core (s : State) (m e par : Nat) : (s.pendLocal m e par).core = s.core := by
  unfold State.pendLocal; exact s.modMach_core _ _

@[simp] theorem State.waitsEnd_core (s : State) (d : Dev) (come : Bool) : (s.waitsEnd d come).core = s.core := by
  unfold State.waitsEnd
  refine foldl_core _ (fun s m => ?_) _ _
  split
  · exact s.modMach_core _ _
  · rfl

@[simp] theorem State.raiseTo_core (s : State) (m c par : Nat) : (s.raiseTo m c par).core = s.core := by
  unfold State.raiseTo
  split
  · refine foldl_core _ (fun s a => ?_) _ _
    split
    · exact s.pendLocal_core _ _ _
    · rfl
  · rfl

@[simp] theorem State.raise_core (s : State) (c par : Nat) : (s.raise c par).core = s.core := by
  unfold State.raise
  split
  · rfl
  · exact foldl_core _ (fun s a => State.raiseTo_core s a c par) _ _

@[simp] theorem State.sramClear_core (s : State) (f : Nat × Nat → Bool) : (s.sramClear f).core = s.core := by
  unfold State.sramClear
  split
  · rfl
  · exact s.core_sram _

@[simp] theorem State.sramFlip_core (s : State) (a w : Nat) : (s.sramFlip a w).core = s.core := by
  unfold State.sramFlip
  dsimp only
  split
  · split
    · rw [State.core_sram, State.injUse_core]
    · exact s.injUse_core
  · rfl

@[simp] theorem State.sramWrote_core (s : State) (a w : Nat) : (s.sramWrote a w).core = s.core := by
  unfold State.sramWrote; rw [State.sramFlip_core, State.sramClear_core]

@[simp] theorem State.extend_core (s : State) (o : OpenRec) (n : Nat) : (s.extend o n).core = s.core := by
  unfold State.extend; exact s.core_err _

@[simp] theorem State.loseDesc_core (s : State) (n : Nat) : (s.loseDesc n).core = s.core := by
  unfold State.loseDesc
  dsimp only
  rw [State.core_lostb]
  split
  · rw [State.inc_core, State.inc_core]
  · rw [State.latch_core, State.inc_core, State.inc_core]

@[simp] theorem State.tryPost_core (s : State) (n ty st : Nat) (b : Bytes) : (s.tryPost n ty st b).1.core = s.core := by
  unfold State.tryPost
  split
  · rw [State.loseDesc_core, State.injUse_core]
  · split
    · exact s.core_postq _
    · exact s.loseDesc_core _

@[simp] theorem State.logRec_core (s : State) (r : ErrRec) : (s.logRec r).core = s.core := by
  unfold State.logRec
  dsimp only
  split
  · rw [State.core_err, State.inc_core]
  · rw [State.sramFlip_core, State.sramClear_core, State.core_err, State.p_core]

@[simp] theorem State.capture_core (s : State) (r : ErrRec) (o : Bool) (i : Option Nat) : (s.capture r o i).core = s.core := by
  have h (t : State) : (((List.range 8).foldl (fun s i => s.p (F.ERR_FIRST_WORD i) (leAt (recBytes r o) (4 * i) 4)) t).p F.ERR_STS_FIRSTV 1).core = t.core := by
    rw [State.p_core]; exact foldl_core _ (fun s a => s.p_core _ _) _ _
  unfold State.capture
  dsimp only
  split <;> split
  · rw [State.p_core, State.p_core, State.p_core, State.p_core]; exact h s
  · exact h s
  · rw [State.p_core, State.p_core, State.p_core, State.p_core]
  · rfl

theorem recordN_core (n : Nat) (e : Ev) (s : State) : (recordN n e s).core = s.core := by
  induction n generalizing e s with
  | zero => rfl
  | succ n ih =>
    unfold recordN
    extract_lets key
    split
    · exact s.extend_core _ _
    · rename_i b full idx r s1 s2 opened src s3 s4 body x hx
      have h3 : s3.core = s.core := by
        show (State.core { s2 with err := _ }) = _
        rw [State.core_err]
        show ((s.logRec r).inc _ |>.capture _ _ _).core = _
        rw [State.capture_core, State.inc_core, State.logRec_core]
      have h4 : s4.core = s.core := by
        show (if _ then _ else _ : State).core = _
        split
        · rw [State.raise_core, h3]
        · exact h3
      split
      · exact s.core_err _
      · split
        · split
          rename_i t lost inj ht
          have ht' : t.core = s.core := by
            rw [← h4, ← State.tryPost_core s4 (s4.g F.ERR_CFG_RING) (0x40 + classOf e.c.code) 0 body, ht]
          split
          · rw [ih, ht']
          · exact ht'
        · exact h4

/-- An error event keeps the core. -/
@[simp] theorem State.record_core (s : State) (e : Ev) : (s.record e).core = s.core := recordN_core _ _ _

@[simp] theorem State.recReg_core (s : State) (c : ECode) (a : Nat) (src : Src) : (s.recReg c a src).core = s.core := s.record_core _

@[simp] theorem State.post_core (s : State) (n ty st : Nat) (b : Bytes) : (s.post n ty st b).core = s.core := by
  unfold State.post State.post?
  split
  rename_i t lost inj ht
  have ht' : t.core = s.core := by rw [← State.tryPost_core s n ty st b, ht]
  dsimp only
  split
  · rw [State.record_core, ht']
  · exact ht'

/-! ## What a kept core keeps -/

theorem core_out {s t : State} (h : t.core = s.core) : t.out = s.out := (congrArg State.out h :)
theorem core_free {s t : State} (h : t.core = s.core) : t.free = s.free := (congrArg State.free h :)
theorem core_tb {s t : State} (h : t.core = s.core) : t.tb = s.tb := (congrArg State.tb h :)
theorem core_ns {s t : State} (h : t.core = s.core) : t.ns = s.ns := (congrArg State.ns h :)
theorem core_dev {s t : State} (h : t.core = s.core) : t.dev = s.dev := (congrArg State.dev h :)
theorem core_hrb {s t : State} (h : t.core = s.core) : t.hrb = s.hrb := (congrArg State.hrb h :)
theorem core_pending {s t : State} (h : t.core = s.core) : t.pending = s.pending := (congrArg State.pending h :)
theorem core_active {s t : State} (h : t.core = s.core) : t.active = s.active := (congrArg State.active h :)
theorem core_win {s t : State} (h : t.core = s.core) : t.win = s.win := (congrArg State.win h :)
theorem core_dram {s t : State} (h : t.core = s.core) : t.dram = s.dram := (congrArg State.dram h :)
theorem core_clo {s t : State} (h : t.core = s.core) : t.clo = s.clo := (congrArg State.clo h :)
theorem core_jtag {s t : State} (h : t.core = s.core) : t.jtag = s.jtag := (congrArg State.jtag h :)
theorem core_spn {s t : State} (h : t.core = s.core) : t.spn = s.spn := (congrArg State.spn h :)
theorem core_qre {s t : State} (h : t.core = s.core) : t.qre = s.qre := (congrArg State.qre h :)
theorem core_gth {s t : State} (h : t.core = s.core) : t.gth = s.gth := (congrArg State.gth h :)
theorem core_fir {s t : State} (h : t.core = s.core) : t.fir = s.fir := (congrArg State.fir h :)
theorem core_pos {s t : State} (h : t.core = s.core) : t.pos = s.pos := (congrArg State.pos h :)
theorem core_tmb {s t : State} (h : t.core = s.core) : t.tmb = s.tmb := (congrArg State.tmb h :)
theorem core_thl {s t : State} (h : t.core = s.core) : t.thl = s.thl := (congrArg State.thl h :)
theorem core_nzh {s t : State} (h : t.core = s.core) : t.nzh = s.nzh := (congrArg State.nzh h :)
theorem core_ins {s t : State} (h : t.core = s.core) : t.ins = s.ins := (congrArg State.ins h :)
theorem core_cal {s t : State} (h : t.core = s.core) : t.cal = s.cal := (congrArg State.cal h :)
theorem core_fol {s t : State} (h : t.core = s.core) : t.fol = s.fol := (congrArg State.fol h :)
theorem core_mem {s t : State} (h : t.core = s.core) : t.mem = s.mem := (congrArg State.mem h :)

end Sys2Proof.Machine
end

