-- ==== Sys2Proof/Laws/Regs.lean ====
section
/-!
SUPPORT. Laws of registers and their fields: what a register and a field read after one of them is written, and that the stores keep their canonical form.
-/

namespace Sys2Proof.Machine

/-! ## Bit fields -/

theorem bitsOf_lt (v hi lo : Nat) : bitsOf v hi lo < 2 ^ (hi + 1 - lo) := Nat.mod_lt _ (Nat.two_pow_pos _)

/-- A field reads back what is put into it. -/
theorem bitsOf_putBits_same (v hi lo x : Nat) (h : lo ≤ hi) : bitsOf (putBits v hi lo x) hi lo = x % 2 ^ (hi + 1 - lo) := by
  have hp : 2 ^ (hi + 1) = 2 ^ lo * 2 ^ (hi + 1 - lo) := by rw [← Nat.pow_add]; congr 1; omega
  have h0 : (0 : Nat) < 2 ^ lo := Nat.two_pow_pos _
  have hlt : v % 2 ^ lo / 2 ^ lo = 0 := Nat.div_eq_of_lt (Nat.mod_lt _ h0)
  unfold bitsOf putBits
  rw [hp]
  rw [show v % 2 ^ lo + x % 2 ^ (hi + 1 - lo) * 2 ^ lo + v / (2 ^ lo * 2 ^ (hi + 1 - lo)) * (2 ^ lo * 2 ^ (hi + 1 - lo))
      = v % 2 ^ lo + 2 ^ lo * (x % 2 ^ (hi + 1 - lo) + 2 ^ (hi + 1 - lo) * (v / (2 ^ lo * 2 ^ (hi + 1 - lo)))) by simp only [Nat.mul_add, Nat.add_assoc, Nat.mul_comm, Nat.mul_assoc]]
  rw [Nat.add_mul_div_left _ _ h0, hlt, Nat.zero_add, Nat.add_mul_mod_self_left, Nat.mod_mod]

/-- A field that lies above the one written is as it was. -/
theorem bitsOf_putBits_above (v hi lo x hi' lo' : Nat) (h : lo ≤ hi) (hl : hi < lo') : bitsOf (putBits v hi lo x) hi' lo' = bitsOf v hi' lo' := by
  have hp : 2 ^ lo' = 2 ^ (hi + 1) * 2 ^ (lo' - (hi + 1)) := by rw [← Nat.pow_add]; congr 1; omega
  have hq : 2 ^ (hi + 1) = 2 ^ lo * 2 ^ (hi + 1 - lo) := by rw [← Nat.pow_add]; congr 1; omega
  have h0 : (0 : Nat) < 2 ^ (hi + 1) := Nat.two_pow_pos _
  have hlow : v % 2 ^ lo + x % 2 ^ (hi + 1 - lo) * 2 ^ lo < 2 ^ (hi + 1) := by
    have h1 : v % 2 ^ lo < 2 ^ lo := Nat.mod_lt _ (Nat.two_pow_pos _)
    have h2 : x % 2 ^ (hi + 1 - lo) + 1 ≤ 2 ^ (hi + 1 - lo) := Nat.mod_lt _ (Nat.two_pow_pos _)
    have h3 := Nat.mul_le_mul_right (2 ^ lo) h2
    rw [Nat.add_mul, Nat.one_mul] at h3
    rw [hq, Nat.mul_comm (2 ^ lo)]
    omega
  unfold bitsOf putBits
  congr 1
  rw [hp, ← Nat.div_div_eq_div_mul, ← Nat.div_div_eq_div_mul, Nat.add_mul_div_right _ _ h0, Nat.div_eq_of_lt hlow, Nat.zero_add]

/-- A field that lies below the one written is as it was. -/
theorem bitsOf_putBits_below (v hi lo x hi' lo' : Nat) (h : lo ≤ hi) (hl : hi' < lo) (hh : lo' ≤ hi') : bitsOf (putBits v hi lo x) hi' lo' = bitsOf v hi' lo' := by
  have hq : 2 ^ (hi + 1) = 2 ^ lo * 2 ^ (hi + 1 - lo) := by rw [← Nat.pow_add]; congr 1; omega
  have key (w : Nat) : bitsOf w hi' lo' = w % 2 ^ lo / 2 ^ lo' % 2 ^ (hi' + 1 - lo') := by
    have hp : 2 ^ lo = 2 ^ lo' * (2 ^ (hi' + 1 - lo') * 2 ^ (lo - (hi' + 1))) := by rw [← Nat.pow_add, ← Nat.pow_add]; congr 1; omega
    unfold bitsOf
    rw [hp, Nat.mod_mul_right_div_self, Nat.mod_mul_right_mod]
  rw [key, key v]
  congr 2
  unfold putBits
  rw [hq, show v % 2 ^ lo + x % 2 ^ (hi + 1 - lo) * 2 ^ lo + v / (2 ^ lo * 2 ^ (hi + 1 - lo)) * (2 ^ lo * 2 ^ (hi + 1 - lo))
      = v % 2 ^ lo + 2 ^ lo * (x % 2 ^ (hi + 1 - lo) + v / (2 ^ lo * 2 ^ (hi + 1 - lo)) * 2 ^ (hi + 1 - lo)) by simp only [Nat.mul_add, Nat.add_assoc, Nat.mul_comm, Nat.mul_assoc], Nat.add_mul_mod_self_left, Nat.mod_mod]

/-- Putting a field keeps a number below a power of two above it. -/
theorem putBits_lt (v hi lo x n : Nat) (h : lo ≤ hi) (hn : hi < n) (hv : v < 2 ^ n) : putBits v hi lo x < 2 ^ n := by
  have hp : 2 ^ n = 2 ^ (hi + 1) * 2 ^ (n - (hi + 1)) := by rw [← Nat.pow_add]; congr 1; omega
  have hq : 2 ^ (hi + 1) = 2 ^ lo * 2 ^ (hi + 1 - lo) := by rw [← Nat.pow_add]; congr 1; omega
  have hlow : v % 2 ^ lo + x % 2 ^ (hi + 1 - lo) * 2 ^ lo < 2 ^ (hi + 1) := by
    have h1 : v % 2 ^ lo < 2 ^ lo := Nat.mod_lt _ (Nat.two_pow_pos _)
    have h2 : x % 2 ^ (hi + 1 - lo) + 1 ≤ 2 ^ (hi + 1 - lo) := Nat.mod_lt _ (Nat.two_pow_pos _)
    have h3 := Nat.mul_le_mul_right (2 ^ lo) h2
    rw [Nat.add_mul, Nat.one_mul] at h3
    rw [hq, Nat.mul_comm (2 ^ lo)]
    omega
  have hd : v / 2 ^ (hi + 1) + 1 ≤ 2 ^ (n - (hi + 1)) := by
    rw [Nat.succ_le_iff, Nat.div_lt_iff_lt_mul (Nat.two_pow_pos _), Nat.mul_comm, ← hp]; exact hv
  have := Nat.mul_le_mul_right (2 ^ (hi + 1)) hd
  rw [Nat.add_mul, Nat.one_mul] at this
  unfold putBits
  rw [hp, Nat.mul_comm (2 ^ (hi + 1)) (2 ^ _)]
  omega

/-! ## The stores' canonical form -/

theorem State.wf_iff (s : State) : s.wf = true ↔
    spWf resetAt s.regs = true ∧ spWf resetAt s.active = true ∧ spWf (fun _ => (0 : Word)) s.win = true ∧ Memory.wf s.dram = true := by
  simp [State.wf, and_assoc]

/-- The canonical form depends on the four stores alone. -/
theorem State.wf_congr (s t : State) (h1 : t.regs = s.regs) (h2 : t.active = s.active) (h3 : t.win = s.win) (h4 : t.dram = s.dram) : t.wf = s.wf := by
  simp [State.wf, h1, h2, h3, h4]

/-- A register write keeps the canonical form. -/
theorem State.setReg_wf (s : State) (a v : Nat) (h : s.wf = true) : (s.setReg a v).wf = true := by
  rw [State.wf_iff] at h ⊢
  exact ⟨spWf_spSetD _ _ _ _ h.1, h.2⟩

theorem State.setAct_wf (s : State) (a v : Nat) (h : s.wf = true) : (s.setAct a v).wf = true := by
  rw [State.wf_iff] at h ⊢
  exact ⟨h.1, spWf_spSetD _ _ _ _ h.2.1, h.2.2⟩

theorem State.p_wf (s : State) (f : FR) (v : Nat) (h : s.wf = true) : (s.p f v).wf = true := s.setReg_wf _ _ h

theorem State.incBy_wf (s : State) (f : FR) (n : Nat) (h : s.wf = true) : (s.incBy f n).wf = true := s.p_wf _ _ h

theorem State.inc_wf (s : State) (f : FR) (h : s.wf = true) : (s.inc f).wf = true := s.p_wf _ _ h

@[simp] theorem State.begun_wf (s : State) : s.begun.wf = s.wf := rfl

/-! ## Reading registers and fields -/

theorem State.reg_lt (s : State) (a : Nat) : s.reg a < 2 ^ 32 := (spGetD resetAt s.regs a).isLt

/-- A register reads what was written to it. -/
theorem State.setReg_reg_same (s : State) (a v : Nat) : (s.setReg a v).reg a = v % 2 ^ 32 := by
  simp only [State.reg, State.setReg]
  rw [spGetD_spSetD_same _ _ _ _, BitVec.toNat_ofNat]

/-- A write leaves every other register alone. -/
theorem State.setReg_reg_ne (s : State) (a v b : Nat) (hb : b ≠ a) : (s.setReg a v).reg b = s.reg b := by
  simp only [State.reg, State.setReg]
  rw [spGetD_spSetD_ne _ _ _ _ _ hb]

theorem State.p_reg_ne (s : State) (f : FR) (v b : Nat) (hb : b ≠ f.addr) : (s.p f v).reg b = s.reg b := s.setReg_reg_ne _ _ _ hb

/-- A register after one of its fields is put. -/
theorem State.p_reg_same (s : State) (f : FR) (v : Nat) (hf : f.lo ≤ f.hi) (h32 : f.hi < 32) :
    (s.p f v).reg f.addr = putBits (s.reg f.addr) f.hi f.lo v := by
  unfold State.p
  rw [s.setReg_reg_same _ _, Nat.mod_eq_of_lt (putBits_lt _ _ _ _ _ hf h32 (s.reg_lt _))]

/-- A field without an active copy reads what was put into it. -/
theorem State.p_g_same (s : State) (f : FR) (v : Nat) (hf : f.lo ≤ f.hi) (h32 : f.hi < 32) (hs : f.sh = false) :
    (s.p f v).g f = v % 2 ^ (f.hi + 1 - f.lo) := by
  simp only [State.g, hs, Bool.false_eq_true, if_false]
  rw [s.p_reg_same f v hf h32, bitsOf_putBits_same _ _ _ _ hf]

/-- A counter after one event. -/
theorem State.inc_g_same (s : State) (f : FR) (hf : f.lo ≤ f.hi) (h32 : f.hi < 32) (hs : f.sh = false) :
    (s.inc f).g f = satN (2 ^ (f.hi + 1 - f.lo) - 1) (s.g f + 1) := by
  unfold State.inc State.incBy
  rw [s.p_g_same f _ hf h32 hs]
  refine Nat.mod_eq_of_lt ?_
  have := Nat.two_pow_pos (f.hi + 1 - f.lo)
  unfold satN
  split <;> omega

/-- A field of another register is as it was. -/
theorem State.p_g_ne (s : State) (f f' : FR) (v : Nat) (ha : f'.addr ≠ f.addr) : (s.p f v).g f' = s.g f' := by
  simp only [State.g, State.act, State.p_active]
  rw [s.p_reg_ne f v _ ha]

/-- Another field of the same register is as it was. -/
theorem State.p_g_apart (s : State) (f f' : FR) (v : Nat) (hf : f.lo ≤ f.hi) (h32 : f.hi < 32) (ha : f'.addr = f.addr) (hf' : f'.lo ≤ f'.hi)
    (hd : f.hi < f'.lo ∨ f'.hi < f.lo) : (s.p f v).g f' = s.g f' := by
  simp only [State.g, State.act, State.p_active, ha]
  split
  · rfl
  · rw [s.p_reg_same f v hf h32]
    rcases hd with hd | hd
    · exact bitsOf_putBits_above _ _ _ _ _ _ hf hd
    · exact bitsOf_putBits_below _ _ _ _ _ _ hf hd hf'

end Sys2Proof.Machine
end

