-- ==== Sys2Proof/Laws/Memory.lean ====
section
/-!
SUPPORT. The canonical form of DRAM (Memory.wf): every operation that stores to DRAM keeps it, and every other operation of the memory subsystem leaves DRAM
as it is.
-/

namespace Sys2Proof.Machine

/-- An empty memory is in canonical form. -/
theorem memory_wf_nil : Memory.wf [] = true := rfl

/-! ## What leaves DRAM as it is -/

theorem foldl_dram {α : Type} (f : State → α → State) (h : ∀ s a, (f s a).dram = s.dram) (l : List α) (s : State) : (l.foldl f s).dram = s.dram := by
  induction l generalizing s with
  | nil => rfl
  | cons x r ih => exact (ih _).trans (h s x)

@[simp] theorem State.record_dram (s : State) (e : Ev) : (s.record e).dram = s.dram := core_dram (s.record_core e)

@[simp] theorem State.raise_dram (s : State) (c par : Nat) : (s.raise c par).dram = s.dram := core_dram (s.raise_core c par)

@[simp] theorem State.waitsEnd_dram (s : State) (d : Dev) (come : Bool) : (s.waitsEnd d come).dram = s.dram := core_dram (s.waitsEnd_core d come)

@[simp] theorem State.setDev_dram (s : State) (d : Dev) : (s.setDev d).dram = s.dram := by
  unfold State.setDev
  simp only
  split <;> simp only [State.raise_dram, State.waitsEnd_dram]

@[simp] theorem State.goFault_dram (s : State) : s.goFault.dram = s.dram := by
  unfold State.goFault State.fenAllLow
  rw [foldl_dram _ (fun s m => by unfold State.fenLow; rfl), State.setDev_dram]

@[simp] theorem State.wrDone_dram (s : State) (r : MReq) (ok : Bool) : (s.wrDone r ok).dram = s.dram := by
  unfold State.wrDone
  split
  · rfl
  · exact foldl_dram _ (fun s x => State.emit_dram _ _) _ _

@[simp] theorem State.failQueues_dram (s : State) (i : Nat) : (s.failQueues i).dram = s.dram := by
  unfold State.failQueues
  exact foldl_dram _ (fun s r => State.wrDone_dram _ _ _) _ _

@[simp] theorem State.memStatus_dram (s : State) : s.memStatus.dram = s.dram := by simp [State.memStatus]

@[simp] theorem State.retireSc_dram (s : State) (i : Nat) : (s.retireSc i).dram = s.dram := by
  unfold State.retireSc
  simp only
  repeat' split
  all_goals simp

@[simp] theorem State.scRetry_dram (s : State) (i : Nat) : (s.scRetry i).dram = s.dram := by
  unfold State.scRetry
  simp only
  split <;> simp


theorem ite_dram {c : Prop} [Decidable c] {a b s : State} (h1 : a.dram = s.dram) (h2 : b.dram = s.dram) : (if c then a else b).dram = s.dram := by
  split
  · exact h1
  · exact h2

/-- What a hard error's records and entry leave. -/
theorem hard_dram (s : State) (e e' : Ev) (c : Bool) (o : Option Nat) (page : Nat) :
    (if c then ((s.record e).inc F.MEM_CNT_HARD_COUNT).latch Att.MEMHARD
      else match o with
        | some n => ((((s.record e).inc F.MEM_CNT_HARD_COUNT).latch Att.MEMHARD).p (F.MEM_QLIST_VALID n) 1).p (F.MEM_QLIST_PAGE n) page
        | none => ((((s.record e).inc F.MEM_CNT_HARD_COUNT).latch Att.MEMHARD).record e').latch Att.MEMQFULL).dram = s.dram := by
  cases c <;> cases o <;> simp

@[simp] theorem State.declareHard_dram (s : State) (a i master node dev : Nat) (inj : Bool) : (s.declareHard a i master node dev inj).dram = s.dram := by
  unfold State.declareHard
  exact hard_dram s _ _ _ _ _

@[simp] theorem State.queueWb_dram (s : State) (cw : Nat) (d : Bytes) (p : Bool) : (s.queueWb cw d p).dram = s.dram := by
  unfold State.queueWb
  simp only
  split
  · rfl
  · split <;> rfl

@[simp] theorem State.closeRecs_dram (s : State) (f : List Nat → Bool) : (s.closeRecs f).dram = s.dram := (rfl)

@[simp] theorem State.closeRunOf_dram (s : State) (c : ECode) (k : List Nat) : (s.closeRunOf c k).dram = s.dram := (rfl)

@[simp] theorem State.recordRun_dram (s : State) (e : Ev) : (s.recordRun e).dram = s.dram := by
  unfold State.recordRun
  split
  · rfl
  · exact State.record_dram _ _

@[simp] theorem State.dropWb_dram (s : State) (cw : Nat) (b : Bool) : (s.dropWb cw b).dram = s.dram := by
  unfold State.dropWb
  simp only
  split <;> rfl

@[simp] theorem State.devCount_dram (s : State) (i d : Nat) : (s.devCount i d).dram = s.dram := State.setReg_dram _ _ _

@[simp] theorem State.devSeen_dram (s : State) (a i inst master : Nat) (inj : Bool) (d : Nat) : (s.devSeen a i inst master inj d).dram = s.dram := by
  unfold State.devSeen
  simp only
  split
  · rw [State.latch_dram, State.record_dram, State.modSc_dram, State.devCount_dram]
  · rw [State.modSc_dram, State.devCount_dram]

@[simp] theorem State.countCorrected_dram (s : State) (a i inst master : Nat) (errs : List (Nat × Nat)) :
    (s.countCorrected a i inst master errs).dram = s.dram := by
  unfold State.countCorrected
  rw [foldl_dram _ (fun s d => State.devSeen_dram _ _ _ _ _ _ _), State.inc_dram]

theorem tracker_dram (s : State) (e : Ev) (i : Nat) (known : Option (Nat × Nat)) (full : Bool) (k : List Nat → Bool) (key : List Nat) (f : ScSt → ScSt) (g : Nat × Nat → ScSt → ScSt) :
    let r := (if known.isNone then (s.inc F.MEM_CNT_CE_COUNT).closeRunOf E.MEM_CE key else s.inc F.MEM_CNT_CE_COUNT).recordRun e
    (match known with
      | none => (if full then (r.inc F.MEM_CNT_TRKEVICT_COUNT).closeRecs k else r).modSc i f
      | some t => r.modSc i (g t)).dram = s.dram := by
  cases known <;> cases full <;> simp

@[simp] theorem State.corrected_dram (s : State) (a : Nat) (d : Bytes) (errs : List (Nat × Nat)) (master node : Nat) (rmw : Bool) :
    (s.corrected a d errs master node rmw).dram = s.dram := by
  unfold State.corrected
  simp only
  rw [foldl_dram]
  · refine ite_dram ?_ ?_
    · rw [State.queueWb_dram]; exact tracker_dram s _ _ _ _ _ _ _ _
    · rw [State.declareHard_dram]; exact tracker_dram s _ _ _ _ _ _ _ _
  · exact fun s d => State.devSeen_dram _ _ _ _ _ _ _

/-- What an uncorrectable read leaves. -/
theorem ue_dram (s : State) (e e' : Ev) (rmw inj : Bool) (cw a i master node : Nat) (d : Bytes) :
    ((if rmw then (if rmw then s.record e else s.record e').inc F.MEM_CNT_UE_COUNT
      else ((if rmw then s.record e else s.record e').inc F.MEM_CNT_UE_COUNT).queueWb cw d true).declareHard a i master node 0xFF inj).dram = s.dram := by
  cases rmw <;> simp

theorem State.readCw_dram (s : State) (a master node : Nat) (errs errs2 : List (Nat × Nat)) (rmw patrol : Bool) :
    (s.readCw a master node errs errs2 rmw patrol).2.2.dram = s.dram := by
  unfold State.readCw
  simp only
  generalize rsDecode (a / 64) (withErrs (s.rawCw (a / 64)) errs) = d1
  generalize rsDecode (a / 64) (withErrs (s.rawCw (a / 64)) errs2) = d2
  split
  · exact foldl_dram _ (fun s k => State.p_dram _ _ _) _ _
  · cases d1 with
    | clean => rfl
    | poisoned => exact ite_dram (State.inc_dram _ _) (by rw [State.record_dram, State.inc_dram])
    | corrected es => exact State.corrected_dram _ _ _ _ _ _ _
    | _ =>
      cases d2 with
      | clean => exact (State.scRetry_dram _ _).trans (State.inc_dram _ _)
      | corrected es => exact (State.countCorrected_dram _ _ _ _ _ _).trans ((State.scRetry_dram _ _).trans (State.inc_dram _ _))
      | _ => exact ue_dram s _ _ _ _ _ _ _ _ _ _

/-! ## What stores to DRAM -/

theorem foldl_setD_wf (d : Nat → Byte) (key : Nat → Nat) (v : Nat → Byte) (l : List Nat) (m : List Host.Cell) (h : spWf d m = true) :
    spWf d (l.foldl (fun m k => spSetD d m (key k) (v k)) m) = true := by
  induction l generalizing m with
  | nil => exact h
  | cons k r ih => exact ih _ (spWf_spSetD d m _ _ h)

/-- Writing a byte keeps the form where the default given for it is the memory's own there. -/
theorem spWf_spSetD_at (d d' : Nat → Byte) (m : List Host.Cell) (k : Nat) (v : Byte) (hd : d' k = d k) (h : spWf d m = true) : spWf d (spSetD d' m k v) = true := by
  have : spSetD d' m k v = spSetD d m k v := by unfold spSetD; rw [hd]
  rw [this]
  exact spWf_spSetD d m k v h

/-- Storing a codeword keeps the canonical form. -/
theorem State.setRawCw_wf (s : State) (cw : Nat) (b : Bytes) (h : Memory.wf s.dram = true) : Memory.wf (s.setRawCw cw b).dram = true := by
  unfold State.setRawCw Memory.wf at *
  simp only
  suffices H : ∀ (l : List Nat) (m : List Host.Cell), (∀ k ∈ l, k < 80) → spWf dramDefault m = true →
      spWf dramDefault (l.foldl (fun m k => spSetD (fun _ => (fillCw cw).getD k 0) m (80 * cw + k) (b.getD k 0)) m) = true from
    H _ _ (fun k hk => List.mem_range.1 hk) h
  intro l
  induction l with
  | nil => exact fun _ _ h => h
  | cons k r ih =>
    intro m hl hm
    refine ih _ (fun x hx => hl x (List.mem_cons_of_mem _ hx)) (spWf_spSetD_at _ _ m _ _ ?_ hm)
    have hk : k < 80 := hl k (List.mem_cons_self ..)
    have h1 : (80 * cw + k) / 80 = cw := by omega
    have h2 : (80 * cw + k) % 80 = k := by omega
    simp only [dramDefault, h1, h2]

/-- RESTORE's fresh fill of a subchannel keeps the canonical form. -/
theorem State.refillSc_wf (s : State) (i : Nat) (h : Memory.wf s.dram = true) : Memory.wf (s.refillSc i).dram = true :=
  spWf_filter dramDefault s.dram _ h

theorem wf_of_dram {s t : State} (e : t.dram = s.dram) (h : Memory.wf s.dram = true) : Memory.wf t.dram = true := by rw [e]; exact h

@[simp] theorem State.wcrcInj_dram (s : State) (i : Nat) : (s.wcrcInj i).dram = s.dram := by
  unfold State.wcrcInj
  split <;> simp

theorem State.issueCw_wf (s : State) (cw : Nat) (d : Bytes) (px : List Nat) (h : Memory.wf s.dram = true) : Memory.wf (s.issueCw cw d px).dram = true := by
  unfold State.issueCw
  simp only
  split
  · rw [State.wcrcInj_dram]
    exact State.setRawCw_wf _ _ _ h
  · refine wf_of_dram ?_ (s.setRawCw_wf cw (encodeCw cw d px (s.sc (cfgScOf s.mem.cfg (cw * 64))).injArm) h)
    split <;> simp

theorem State.issueReq_wf (s : State) (r : MReq) (h : Memory.wf s.dram = true) : Memory.wf (s.issueReq r).dram = true := by
  refine wf_of_dram ?_ (s.issueCw_wf (r.a / 64) r.data (if r.poison then rsPoison else List.replicate 16 0) h)
  unfold State.issueReq
  simp only
  split <;> simp

/-! ## What enters the queues leaves DRAM as it is -/

@[simp] theorem State.writeEnter_dram (s : State) (i : Nat) (r : MReq) : (s.writeEnter i r).dram = s.dram := by
  have h := s.dropWb_dram (r.a / 64) (r.master == 7)
  unfold State.writeEnter
  simp only
  generalize s.dropWb (r.a / 64) (r.master == 7) = t at *
  split
  · exact h
  · split <;> exact h

@[simp] theorem State.takeWrite_dram (s : State) (i : Nat) (r : MReq) : (s.takeWrite i r).dram = s.dram :=
  ite_dram (State.writeEnter_dram _ _ _) rfl

@[simp] theorem State.merged_dram (s : State) (i : Nat) (r : MReq) (errs errs2 : List (Nat × Nat)) : (s.merged i r errs errs2).2.dram = s.dram := by
  have hr := s.readCw_dram (r.a / 64 * 64) r.master r.node errs errs2 true false
  unfold State.merged
  generalize s.readCw (r.a / 64 * 64) r.master r.node errs errs2 true false = x at hr
  obtain ⟨d, raw, t⟩ := x
  simp only
  rw [State.modSc_dram]
  split <;> simpa using hr

@[simp] theorem State.modMem_dram (s : State) (f : MemSt → MemSt) : (s.modMem f).dram = s.dram := (rfl)

@[simp] theorem State.putRead_dram (s : State) (i : Nat) (r : MReq) : (s.putRead i r).dram = s.dram := (rfl)

@[simp] theorem State.orderBank_dram (s : State) (i a : Nat) : (s.orderBank i a).dram = s.dram := ite_dram rfl rfl

@[simp] theorem State.readEnter_dram (s : State) (i : Nat) (r : MReq) : (s.readEnter i r).2.dram = s.dram := by
  unfold State.readEnter
  split
  · exact State.inc_dram _ _
  · rw [State.putRead_dram, State.orderBank_dram]

@[simp] theorem State.answer1_dram (s : State) (r : MReq) (d : Option Bytes) : (s.answer1 r d).dram = s.dram := ite_dram rfl (State.emit_dram _ _)

@[simp] theorem State.takeRead_dram (s : State) (i : Nat) (r : MReq) : (s.takeRead i r).dram = s.dram := by
  have h := s.readEnter_dram i r
  unfold State.takeRead
  split
  · rename_i d t e
    rw [e] at h
    rw [State.answer1_dram]
    exact h
  · rename_i t e
    rw [e] at h
    exact h

@[simp] theorem State.enterHeld_dram (s : State) (i : Nat) : (s.enterHeld i).dram = s.dram := by
  unfold State.enterHeld
  generalize (s.mem.held.filter fun r => cfgScOf s.mem.cfg r.a == i) = l
  suffices H : ∀ x : State × Bool × Bool, (l.foldl (fun (x : State × Bool × Bool) r =>
      let (s, rd, wr) := x
      if (if r.wr then wr else rd) || !s.hasRoom i r then (s, rd || !r.wr, wr || r.wr)
      else
        let s := s.modMem fun y => { y with held := y.held.erase r }
        (if r.wr then s.writeEnter i r else s.takeRead i r, rd, wr)) x).1.dram = x.1.dram from H _
  induction l with
  | nil => exact fun _ => rfl
  | cons r l ih =>
    intro x
    refine (ih _).trans ?_
    obtain ⟨s, rd, wr⟩ := x
    simp only
    generalize ((if r.wr = true then wr else rd) || !s.hasRoom i r) = c
    cases c
    · exact ite_dram (State.writeEnter_dram _ _ _) (State.takeRead_dram _ _ _)
    · rfl

/-! ## What serves the queues keeps the form -/

@[simp] theorem State.served_dram (s : State) (i : Nat) (r : MReq) : (s.served i r).dram = s.dram := (rfl)

@[simp] theorem State.drainUpdate_dram (s : State) (i : Nat) : (s.drainUpdate i).dram = s.dram := (rfl)

@[simp] theorem State.refIssue_dram (s : State) (i k : Nat) : (s.refIssue i k).dram = s.dram := ite_dram rfl rfl

/-- Serving a read leaves DRAM as it is: what it corrects waits in the write queue. -/
@[simp] theorem State.serveRead_dram (s : State) (i : Nat) (r : MReq) (errs errs2 : List (Nat × Nat)) : (s.serveRead i r errs errs2).2.dram = s.dram := by
  unfold State.serveRead
  simp only
  split
  · rw [State.enterHeld_dram, State.merged_dram]; rfl
  · rw [State.enterHeld_dram, State.answer1_dram, State.readCw_dram]; rfl

/-- A write's issue keeps the canonical form. -/
theorem State.serveWrite_wf (s : State) (i : Nat) (r : MReq) (h : Memory.wf s.dram = true) : Memory.wf (s.serveWrite i r).dram = true :=
  wf_of_dram (State.enterHeld_dram _ _) (State.issueReq_wf _ r h)

/-- Whatever a subchannel does next keeps the canonical form. -/
theorem State.serveNext_wf (s : State) (i : Nat) (h : Memory.wf s.dram = true) : Memory.wf (s.serveNext i).2.dram = true := by
  unfold State.serveNext
  simp only
  split
  · exact wf_of_dram (State.serveRead_dram _ _ _ _ _) h
  · split
    · exact State.serveWrite_wf _ _ _ h
    · exact wf_of_dram ((State.refIssue_dram _ _ _).trans (State.refIssue_dram _ _ _)) h

theorem State.awaitRoom_wf (n i : Nat) (r : MReq) (s : State) (h : Memory.wf s.dram = true) : Memory.wf (State.awaitRoom n i r s).dram = true := by
  induction n generalizing s with
  | zero => exact h
  | succ n ih =>
    unfold State.awaitRoom
    split
    · exact h
    · exact ih _ (s.serveNext_wf i h)

theorem State.awaitRead_wf (n i q : Nat) (s : State) (h : Memory.wf s.dram = true) : Memory.wf (State.awaitRead n i q s).2.dram = true := by
  induction n generalizing s with
  | zero => exact h
  | succ n ih =>
    have hn := s.serveNext_wf i h
    unfold State.awaitRead
    split
    · rename_i k d t e
      rw [e] at hn
      split
      · exact hn
      · exact ih _ hn
    · rename_i t e
      rw [e] at hn
      exact ih _ hn

theorem State.readPiece_wf (s : State) (x l master node : Nat) (h : Memory.wf s.dram = true) : Memory.wf (s.readPiece x l master node).2.dram = true := by
  unfold State.readPiece
  simp only
  split
  · split <;> simpa using h
  · have h1 := State.awaitRoom_wf (s.serveMax (cfgScOf s.mem.cfg x)) (cfgScOf s.mem.cfg x) (s.ownReq master node x l false [] []) s h
    generalize State.awaitRoom (s.serveMax (cfgScOf s.mem.cfg x)) (cfgScOf s.mem.cfg x) (s.ownReq master node x l false [] []) s = t at h1
    have h2 := wf_of_dram (t.readEnter_dram (cfgScOf s.mem.cfg x) (s.ownReq master node x l false [] [])) h1
    split
    · rename_i d u e
      rw [e] at h2
      exact h2
    · rename_i u e
      rw [e] at h2
      exact State.awaitRead_wf _ _ _ _ h2

/-- A read of DRAM by one of the device's own masters keeps the canonical form (it serves what goes before it). -/
theorem State.dramRead_wf (s : State) (a n master node : Nat) (h : Memory.wf s.dram = true) : Memory.wf (s.dramRead a n master node).2.dram = true := by
  unfold State.dramRead
  suffices H : ∀ (l : List (Nat × Nat × Nat)) (x : Option Bytes × State), Memory.wf x.2.dram = true → Memory.wf (l.foldl (fun (acc, s) (x, _, l) =>
      let (d, s) := s.readPiece x l master node
      ((match acc, d with | some p, some d => some (p ++ d) | _, _ => none), s)) x).2.dram = true from H _ _ h
  intro l
  induction l with
  | nil => exact fun _ h => h
  | cons e rest ih => exact fun x hx => ih _ (x.2.readPiece_wf _ _ _ _ hx)

theorem State.writePiece_wf (s : State) (x : Nat) (b : Bytes) (master node : Nat) (h : Memory.wf s.dram = true) :
    Memory.wf (s.writePiece x b master node).2.dram = true := by
  unfold State.writePiece
  simp only
  split
  · split <;> simpa using h
  · split
    · exact wf_of_dram (State.takeWrite_dram _ _ _) h
    · split
      · exact h
      · generalize s.ownReq master node x b.length true (imageOf (x % 64) b).1 (imageOf (x % 64) b).2 = r
        have h1 := wf_of_dram (State.writeEnter_dram _ (cfgScOf s.mem.cfg x) r) (State.awaitRoom_wf (s.serveMax (cfgScOf s.mem.cfg x)) (cfgScOf s.mem.cfg x) r s h)
        generalize (State.awaitRoom (s.serveMax (cfgScOf s.mem.cfg x)) (cfgScOf s.mem.cfg x) r s).writeEnter (cfgScOf s.mem.cfg x) r = t at h1
        split
        · split
          · exact h1
          · exact State.awaitRead_wf _ _ _ _ h1
        · exact h1

/-- A write to DRAM by one of the device's own masters keeps the canonical form. -/
theorem State.dramWrite_wf (s : State) (a : Nat) (b : Bytes) (master node : Nat) (h : Memory.wf s.dram = true) :
    Memory.wf (s.dramWrite a b master node).2.dram = true := by
  unfold State.dramWrite
  suffices H : ∀ (l : List (Nat × Nat × Nat)) (x : Bool × State), Memory.wf x.2.dram = true → Memory.wf (l.foldl (fun (ok, s) (x, o, l) =>
      let (k, s) := s.writePiece x (slice b o l) master node
      (ok && k, s)) x).2.dram = true from H _ _ h
  intro l
  induction l with
  | nil => exact fun _ h => h
  | cons e rest ih => exact fun x hx => ih _ (x.2.writePiece_wf _ _ _ _ hx)

end Sys2Proof.Machine
end

