-- ==== Sys2Proof/Laws/RecordRegs.lean ====
section
/-!
SUPPORT. Laws of error events and posted descriptors on the registers: those below the messaging block, GLB_ATTN apart, keep their values, and the
stores keep their canonical form.
-/

namespace Sys2Proof.Machine

/-- From a state to another in canonical form where the first is, with the registers below MBX, GLB_ATTN apart, the same. -/
structure lowKept (s t : State) : Prop where
  wf : s.wf = true → t.wf = true
  regs : ∀ a, a < 0x1C0000 → a ≠ 0x18 → t.reg a = s.reg a

theorem lowKept.refl (s : State) : lowKept s s := ⟨id, fun _ _ _ => rfl⟩

theorem lowKept.trans {s t u : State} (h1 : lowKept s t) (h2 : lowKept t u) : lowKept s u :=
  ⟨fun h => h2.wf (h1.wf h), fun a ha hb => (h2.regs a ha hb).trans (h1.regs a ha hb)⟩

/-- The same stores: only registers matter. -/
theorem lowKept.of_stores {s t : State} (h1 : t.regs = s.regs) (h2 : t.active = s.active) (h3 : t.win = s.win) (h4 : t.dram = s.dram) : lowKept s t :=
  ⟨fun h => by rw [State.wf_congr s t h1 h2 h3 h4]; exact h, fun a _ _ => by simp only [State.reg, h1]⟩

theorem State.setReg_low (s : State) (a v : Nat) (ha : 0x1C0000 ≤ a ∨ a = 0x18) : lowKept s (s.setReg a v) :=
  ⟨s.setReg_wf a v, fun b hb hb' => s.setReg_reg_ne a v b (by omega)⟩

theorem State.p_low (s : State) (f : FR) (v : Nat) (ha : 0x1C0000 ≤ f.addr) : lowKept s (s.p f v) := s.setReg_low _ _ (Or.inl ha)

theorem State.inc_low (s : State) (f : FR) (ha : 0x1C0000 ≤ f.addr) : lowKept s (s.inc f) := s.p_low f _ ha

theorem State.latch_low (s : State) (b : Nat) : lowKept s (s.latch b) := s.setReg_low _ _ (Or.inr rfl)

theorem State.smt_low (s : State) (x : Sparse SmtMach) : lowKept s { s with smt := x } := .of_stores rfl rfl rfl rfl
theorem State.err_low (s : State) (x : ErrSt) : lowKept s { s with err := x } := .of_stores rfl rfl rfl rfl
theorem State.mbx_low (s : State) (x : MbxSt) : lowKept s { s with mbx := x } := .of_stores rfl rfl rfl rfl
theorem State.sram_low (s : State) (x : SramSt) : lowKept s { s with sram := x } := .of_stores rfl rfl rfl rfl

theorem foldl_low {α : Type} (f : State → α → State) (h : ∀ s a, lowKept s (f s a)) (l : List α) (s : State) : lowKept s (l.foldl f s) := by
  induction l generalizing s with
  | nil => exact .refl s
  | cons a l ih => exact (h s a).trans (ih _)

theorem State.injUse_low (s : State) : lowKept s s.injUse := (s.err_low _).trans (State.inc_low _ _ (by decide))

theorem State.raise_low (s : State) (c par : Nat) : lowKept s (s.raise c par) := by
  unfold State.raise
  split
  · exact .refl s
  · refine foldl_low _ (fun s m => ?_) _ _
    unfold State.raiseTo
    split
    · refine foldl_low _ (fun s e => ?_) _ _
      split
      · exact s.smt_low _
      · exact .refl s
    · exact .refl s

theorem State.sramClear_low (s : State) (f : Nat × Nat → Bool) : lowKept s (s.sramClear f) := by
  unfold State.sramClear
  split
  · exact .refl s
  · exact s.sram_low _

theorem State.sramFlip_low (s : State) (a w : Nat) : lowKept s (s.sramFlip a w) := by
  unfold State.sramFlip
  dsimp only
  split
  · split
    · exact s.injUse_low.trans (State.sram_low _ _)
    · exact s.injUse_low
  · exact .refl s

theorem State.extend_low (s : State) (o : OpenRec) (n : Nat) : lowKept s (s.extend o n) := by
  unfold State.extend; exact s.err_low _

theorem ringSts_addr (n : Nat) : 0x1C0000 ≤ (F.MBX_RG_STS_LOST n).addr := by show 0x1C0000 ≤ 0x1C4014 + 0x20 * n; omega
theorem errBlk_addr (b : Nat) : 0x1C0000 ≤ (F.ERR_BLKFIRST_VALID b).addr := by show 0x1C0000 ≤ 0x1D0040 + 4 * b; omega
theorem errBlkLost_addr (b : Nat) : 0x1C0000 ≤ (F.ERR_BLKFIRST_LOST b).addr := by show 0x1C0000 ≤ 0x1D0040 + 4 * b; omega
theorem errBlkIndex_addr (b : Nat) : 0x1C0000 ≤ (F.ERR_BLKFIRST_INDEX b).addr := by show 0x1C0000 ≤ 0x1D0040 + 4 * b; omega
theorem errBlkCode_addr (b : Nat) : 0x1C0000 ≤ (F.ERR_BLKFIRST_CODE b).addr := by show 0x1C0000 ≤ 0x1D0040 + 4 * b; omega
theorem errFirst_addr (i : Nat) : 0x1C0000 ≤ (F.ERR_FIRST_WORD i).addr := by show 0x1C0000 ≤ 0x1D0020 + 4 * i; omega
theorem errSev_addr (i : Nat) : 0x1C0000 ≤ (F.ERR_CNT_SEV_COUNT i).addr := by show 0x1C0000 ≤ 0x1D0100 + 4 * i; omega

theorem State.loseDesc_low (s : State) (n : Nat) : lowKept s (s.loseDesc n) := by
  have h : lowKept s ((s.inc (F.MBX_RG_STS_LOST n)).inc F.MBX_CNT_LOST_COUNT) :=
    (s.inc_low _ (ringSts_addr n)).trans (State.inc_low _ _ (by decide))
  unfold State.loseDesc
  dsimp only
  refine lowKept.trans ?_ (State.mbx_low _ _)
  split
  · exact h
  · exact h.trans (State.latch_low _ _)

theorem State.tryPost_low (s : State) (n ty st : Nat) (b : Bytes) : lowKept s (s.tryPost n ty st b).1 := by
  unfold State.tryPost
  split
  · exact s.injUse_low.trans (State.loseDesc_low _ _)
  · split
    · exact s.mbx_low _
    · exact s.loseDesc_low _

theorem State.logRec_low (s : State) (r : ErrRec) : lowKept s (s.logRec r) := by
  unfold State.logRec
  dsimp only
  split
  · exact (s.inc_low _ (by decide)).trans (State.err_low _ _)
  · exact (((s.p_low _ _ (by decide)).trans (State.err_low _ _)).trans (State.sramClear_low _ _)).trans (State.sramFlip_low _ _ _)

theorem State.capture_low (s : State) (r : ErrRec) (o : Bool) (i : Option Nat) : lowKept s (s.capture r o i) := by
  have h : lowKept s (if s.g F.ERR_STS_FIRSTV = 0 ∧ s.g F.ERR_CFG_FSEV ≤ r.sev then
      ((List.range 8).foldl (fun s i => s.p (F.ERR_FIRST_WORD i) (leAt (recBytes r o) (4 * i) 4)) s).p F.ERR_STS_FIRSTV 1 else s) := by
    split
    · exact (foldl_low _ (fun s i => s.p_low _ _ (errFirst_addr i)) _ _).trans (State.p_low _ _ _ (by decide))
    · exact .refl s
  unfold State.capture
  dsimp only
  refine h.trans ?_
  generalize (if s.g F.ERR_STS_FIRSTV = 0 ∧ s.g F.ERR_CFG_FSEV ≤ r.sev then
      ((List.range 8).foldl (fun s i => s.p (F.ERR_FIRST_WORD i) (leAt (recBytes r o) (4 * i) 4)) s).p F.ERR_STS_FIRSTV 1 else s) = u
  generalize blockOf r.code = b
  split
  · exact (((u.p_low _ _ (errBlk_addr b)).trans (State.p_low _ _ _ (errBlkLost_addr b))).trans (State.p_low _ _ _ (errBlkIndex_addr b))).trans (State.p_low _ _ _ (errBlkCode_addr b))
  · exact .refl _

theorem recordN_low (n : Nat) (e : Ev) (s : State) : lowKept s (recordN n e s) := by
  induction n generalizing e s with
  | zero => exact .refl s
  | succ n ih =>
    unfold recordN
    extract_lets key
    split
    · exact s.extend_low _ _
    · rename_i b full idx r s1 s2 opened src s3 s4 body x hx
      have h1 : lowKept s s1 := (s.logRec_low r).trans (State.inc_low _ _ (errSev_addr _))
      have h2 : lowKept s s2 := h1.trans (State.capture_low s1 r e.stays idx)
      have h3 : lowKept s s3 := h2.trans (State.err_low s2 s3.err)
      have h4 : lowKept s s4 := by
        show lowKept s (if _ then _ else _ : State)
        split
        · exact h3.trans (State.raise_low _ _ _)
        · exact h3
      split
      · exact s.err_low _
      · split
        · split
          rename_i t lost inj ht
          have ht' : lowKept s t := by
            have := h4.trans (State.tryPost_low s4 (s4.g F.ERR_CFG_RING) (0x40 + classOf e.c.code) 0 body)
            rwa [ht] at this
          split
          · exact ht'.trans (ih _ _)
          · exact ht'
        · exact h4

/-- An error event keeps the registers below MBX, GLB_ATTN apart, and the canonical form. -/
theorem State.record_low (s : State) (e : Ev) : lowKept s (s.record e) := recordN_low _ _ _

theorem State.recReg_low (s : State) (c : ECode) (a : Nat) (src : Src) : lowKept s (s.recReg c a src) := s.record_low _

theorem State.post_low (s : State) (n ty st : Nat) (b : Bytes) : lowKept s (s.post n ty st b) := by
  unfold State.post State.post?
  split
  rename_i t lost inj ht
  have ht' : lowKept s t := by
    have := s.tryPost_low n ty st b
    rwa [ht] at this
  dsimp only
  split
  · exact ht'.trans (State.record_low _ _)
  · exact ht'

/-- A field of a register below MBX, GLB_ATTN apart, as a record leaves it. -/
theorem lowKept.g {s t : State} (h : lowKept s t) (ha : t.active = s.active) (f : FR) (h1 : f.addr < 0x1C0000) (h2 : f.addr ≠ 0x18) : t.g f = s.g f := by
  simp only [State.g, State.act, ha, h.regs f.addr h1 h2]

end Sys2Proof.Machine
end

