-- ==== Sys2Proof/Laws/Spine.lean ====
section
/-!
SUPPORT. What the Spine operations that only send blocks or take a frame leave alone: everything but the ports, the endpoint's queue and what is put out.
-/

namespace Sys2Proof.Machine

variable (s : State)

/-- Sending a link-control block changes its port and puts the block out. -/
theorem State.sendCtl_eq (p ty : Nat) (b : Bytes) :
    s.sendCtl p ty b = { s with spn := { s.spn with ports := (s.sendCtl p ty b).spn.ports }, out := (s.sendCtl p ty b).out } := (rfl)

theorem State.sendCredit_eq (p v : Nat) :
    s.sendCredit p v = { s with spn := { s.spn with ports := (s.sendCredit p v).spn.ports }, out := (s.sendCredit p v).out } := by
  unfold State.sendCredit; split <;> rfl

theorem State.giveCredit_eq (p v n : Nat) :
    s.giveCredit p v n = { s with spn := { s.spn with ports := (s.giveCredit p v n).spn.ports }, out := (s.giveCredit p v n).out } := by
  unfold State.giveCredit; rw [State.sendCredit_eq]; rfl

theorem State.freeCredit_eq (p : Nat) (f : Frame) :
    s.freeCredit p f = { s with spn := { s.spn with ports := (s.freeCredit p f).spn.ports }, out := (s.freeCredit p f).out } := by
  unfold State.freeCredit; dsimp only
  split
  · rfl
  · split
    · rfl
    · rw [State.giveCredit_eq]

theorem State.freeWithheld_eq :
    s.freeWithheld = { s with spn := { s.spn with ports := s.freeWithheld.spn.ports }, out := s.freeWithheld.out } := by
  unfold State.freeWithheld
  split
  · rfl
  · rename_i h
    clear h
    generalize [(0, 1), (0, 3), (1, 1), (1, 3), (2, 1), (2, 3), (3, 1), (3, 3)] = l
    induction l generalizing s with
    | nil => rfl
    | cons x l ih =>
      obtain ⟨p, v⟩ := x
      simp only [List.foldl_cons]
      split
      · exact ih s
      · refine (ih _).trans ?_
        rw [State.giveCredit_eq]
        rfl

/-- The endpoint takes a frame: its queue, the ports' credits and what is put out may change, nothing else. -/
theorem State.consume_eq (p : Nat) (f : Frame) :
    s.consume p f = { s with spn := { s.spn with ports := (s.consume p f).spn.ports, inbox := (s.consume p f).spn.inbox }, out := (s.consume p f).out } := by
  unfold State.consume
  split
  · rw [State.freeCredit_eq, State.freeWithheld_eq]
  · rfl

/-- A frame that does not stand in the endpoint's queue leaves all as it is. -/
theorem State.consume_absent (p : Nat) (f : Frame) (h : (p, f) ∉ s.spn.inbox) : s.consume p f = s := by
  simp [State.consume, h]

@[simp] theorem State.consume_pending (p : Nat) (f : Frame) : (s.consume p f).pending = s.pending := by rw [State.consume_eq]
@[simp] theorem State.consume_free (p : Nat) (f : Frame) : (s.consume p f).free = s.free := by rw [State.consume_eq]
@[simp] theorem State.consume_tb (p : Nat) (f : Frame) : (s.consume p f).tb = s.tb := by rw [State.consume_eq]
@[simp] theorem State.consume_tbFrac (p : Nat) (f : Frame) : (s.consume p f).tbFrac = s.tbFrac := by rw [State.consume_eq]
@[simp] theorem State.consume_ns (p : Nat) (f : Frame) : (s.consume p f).ns = s.ns := by rw [State.consume_eq]
@[simp] theorem State.consume_dev (p : Nat) (f : Frame) : (s.consume p f).dev = s.dev := by rw [State.consume_eq]
@[simp] theorem State.consume_prev (p : Nat) (f : Frame) : (s.consume p f).prev = s.prev := by rw [State.consume_eq]
@[simp] theorem State.consume_hrb (p : Nat) (f : Frame) : (s.consume p f).hrb = s.hrb := by rw [State.consume_eq]
@[simp] theorem State.consume_hrbFell (p : Nat) (f : Frame) : (s.consume p f).hrbFell = s.hrbFell := by rw [State.consume_eq]
@[simp] theorem State.consume_fuses (p : Nat) (f : Frame) : (s.consume p f).fuses = s.fuses := by rw [State.consume_eq]
@[simp] theorem State.consume_role (p : Nat) (f : Frame) : (s.consume p f).role = s.role := by rw [State.consume_eq]
@[simp] theorem State.consume_regs (p : Nat) (f : Frame) : (s.consume p f).regs = s.regs := by rw [State.consume_eq]
@[simp] theorem State.consume_active (p : Nat) (f : Frame) : (s.consume p f).active = s.active := by rw [State.consume_eq]
@[simp] theorem State.consume_win (p : Nat) (f : Frame) : (s.consume p f).win = s.win := by rw [State.consume_eq]
@[simp] theorem State.consume_dram (p : Nat) (f : Frame) : (s.consume p f).dram = s.dram := by rw [State.consume_eq]
@[simp] theorem State.consume_err (p : Nat) (f : Frame) : (s.consume p f).err = s.err := by rw [State.consume_eq]
@[simp] theorem State.consume_mbx (p : Nat) (f : Frame) : (s.consume p f).mbx = s.mbx := by rw [State.consume_eq]
@[simp] theorem State.consume_smt (p : Nat) (f : Frame) : (s.consume p f).smt = s.smt := by rw [State.consume_eq]
@[simp] theorem State.consume_clo (p : Nat) (f : Frame) : (s.consume p f).clo = s.clo := by rw [State.consume_eq]
@[simp] theorem State.consume_jtag (p : Nat) (f : Frame) : (s.consume p f).jtag = s.jtag := by rw [State.consume_eq]
@[simp] theorem State.consume_qre (p : Nat) (f : Frame) : (s.consume p f).qre = s.qre := by rw [State.consume_eq]
@[simp] theorem State.consume_gth (p : Nat) (f : Frame) : (s.consume p f).gth = s.gth := by rw [State.consume_eq]
@[simp] theorem State.consume_fir (p : Nat) (f : Frame) : (s.consume p f).fir = s.fir := by rw [State.consume_eq]
@[simp] theorem State.consume_pos (p : Nat) (f : Frame) : (s.consume p f).pos = s.pos := by rw [State.consume_eq]
@[simp] theorem State.consume_tmb (p : Nat) (f : Frame) : (s.consume p f).tmb = s.tmb := by rw [State.consume_eq]
@[simp] theorem State.consume_thl (p : Nat) (f : Frame) : (s.consume p f).thl = s.thl := by rw [State.consume_eq]
@[simp] theorem State.consume_nzh (p : Nat) (f : Frame) : (s.consume p f).nzh = s.nzh := by rw [State.consume_eq]
@[simp] theorem State.consume_ins (p : Nat) (f : Frame) : (s.consume p f).ins = s.ins := by rw [State.consume_eq]
@[simp] theorem State.consume_cal (p : Nat) (f : Frame) : (s.consume p f).cal = s.cal := by rw [State.consume_eq]
@[simp] theorem State.consume_fol (p : Nat) (f : Frame) : (s.consume p f).fol = s.fol := by rw [State.consume_eq]
@[simp] theorem State.consume_mem (p : Nat) (f : Frame) : (s.consume p f).mem = s.mem := by rw [State.consume_eq]
@[simp] theorem State.consume_sram (p : Nat) (f : Frame) : (s.consume p f).sram = s.sram := by rw [State.consume_eq]
@[simp] theorem State.consume_tags (p : Nat) (f : Frame) : (s.consume p f).spn.tags = s.spn.tags := by rw [State.consume_eq]
@[simp] theorem State.consume_gens (p : Nat) (f : Frame) : (s.consume p f).spn.gens = s.spn.gens := by rw [State.consume_eq]
@[simp] theorem State.consume_attest (p : Nat) (f : Frame) : (s.consume p f).spn.attest = s.spn.attest := by rw [State.consume_eq]
@[simp] theorem State.consume_floodSeq (p : Nat) (f : Frame) : (s.consume p f).spn.floodSeq = s.spn.floodSeq := by rw [State.consume_eq]
@[simp] theorem State.consume_discBusy (p : Nat) (f : Frame) : (s.consume p f).spn.discBusy = s.spn.discBusy := by rw [State.consume_eq]
@[simp] theorem State.consume_rootSeq (p : Nat) (f : Frame) : (s.consume p f).spn.rootSeq = s.spn.rootSeq := by rw [State.consume_eq]
@[simp] theorem State.consume_quarOwn (p : Nat) (f : Frame) : (s.consume p f).spn.quarOwn = s.spn.quarOwn := by rw [State.consume_eq]
@[simp] theorem State.consume_reg (p : Nat) (f : Frame) (a : Nat) : (s.consume p f).reg a = s.reg a := by rw [State.consume_eq]; rfl
@[simp] theorem State.consume_act (p : Nat) (f : Frame) (a : Nat) : (s.consume p f).act a = s.act a := by rw [State.consume_eq]; rfl
@[simp] theorem State.consume_g (p : Nat) (f : Frame) (x : FR) : (s.consume p f).g x = s.g x := by rw [State.consume_eq]; rfl
@[simp] theorem State.consume_gb (p : Nat) (f : Frame) (x : FR) : (s.consume p f).gb x = s.gb x := by rw [State.consume_eq]; rfl
@[simp] theorem State.consume_winWord (p : Nat) (f : Frame) (a : Nat) : (s.consume p f).winWord a = s.winWord a := by rw [State.consume_eq]; rfl
@[simp] theorem State.consume_lane (p : Nat) (f : Frame) (m : Nat) : (s.consume p f).lane m = s.lane m := by rw [State.consume_eq]; rfl
@[simp] theorem State.consume_laneUp (p : Nat) (f : Frame) (m : Nat) : (s.consume p f).laneUp m = s.laneUp m := by rw [State.consume_eq]; rfl
@[simp] theorem State.consume_sc (p : Nat) (f : Frame) (i : Nat) : (s.consume p f).sc i = s.sc i := by rw [State.consume_eq]; rfl
@[simp] theorem State.consume_member (p : Nat) (f : Frame) : (s.consume p f).member = s.member := by rw [State.consume_eq]; rfl
@[simp] theorem State.consume_primary (p : Nat) (f : Frame) : (s.consume p f).primary = s.primary := by rw [State.consume_eq]; rfl
@[simp] theorem State.consume_standby (p : Nat) (f : Frame) : (s.consume p f).standby = s.standby := by rw [State.consume_eq]; rfl
@[simp] theorem State.consume_running (p : Nat) (f : Frame) : (s.consume p f).running = s.running := by rw [State.consume_eq]; rfl
@[simp] theorem State.consume_answers (p : Nat) (f : Frame) : (s.consume p f).answers = s.answers := by rw [State.consume_eq]; rfl
@[simp] theorem State.consume_mods (p : Nat) (f : Frame) : (s.consume p f).mods = s.mods := by rw [State.consume_eq]; rfl
@[simp] theorem State.consume_now (p : Nat) (f : Frame) : (s.consume p f).now = s.now := by rw [State.consume_eq]; rfl
@[simp] theorem State.consume_epoch (p : Nat) (f : Frame) : (s.consume p f).epoch = s.epoch := by rw [State.consume_eq]; rfl
@[simp] theorem State.consume_follower (p : Nat) (f : Frame) : (s.consume p f).follower = s.follower := by rw [State.consume_eq]; rfl
@[simp] theorem State.consume_folSt (p : Nat) (f : Frame) : (s.consume p f).folSt = s.folSt := by rw [State.consume_eq]; rfl
@[simp] theorem State.consume_ctxGrid (p : Nat) (f : Frame) : (s.consume p f).ctxGrid = s.ctxGrid := by rw [State.consume_eq]; rfl
@[simp] theorem State.consume_ownNode (p : Nat) (f : Frame) : (s.consume p f).ownNode = s.ownNode := by rw [State.consume_eq]; rfl
@[simp] theorem State.consume_nodeValid (p : Nat) (f : Frame) : (s.consume p f).nodeValid = s.nodeValid := by rw [State.consume_eq]; rfl
@[simp] theorem State.consume_delayOf (p : Nat) (f : Frame) (q : Nat) : (s.consume p f).delayOf q = s.delayOf q := by rw [State.consume_eq]; rfl
@[simp] theorem State.consume_kNow (p : Nat) (f : Frame) : (s.consume p f).kNow = s.kNow := by rw [State.consume_eq]; rfl
@[simp] theorem State.consume_estAt (p : Nat) (f : Frame) (t : Nat) : (s.consume p f).estAt t = s.estAt t := by rw [State.consume_eq]; rfl

end Sys2Proof.Machine
end

