-- ==== Sys2Proof/Laws/Writes.lean ====
section
/-!
SUPPORT. Laws of register writes: what a write to a register without RW fields does, and to one that is written with its RW fields as they stand.
-/

namespace Sys2Proof.Machine

theorem maskIn_zero (v w : Nat) (h : v < 2 ^ 32) : maskIn v 0 w = v := by
  have e : Nat.land v 0xFFFFFFFF = v := by
    show v &&& (2 ^ 32 - 1) = v
    rw [Nat.and_two_pow_sub_one_eq_mod, Nat.mod_eq_of_lt h]
  unfold maskIn
  rw [show Nat.xor 0 0xFFFFFFFF = 0xFFFFFFFF from rfl, e]
  show v ||| (w &&& 0) = v
  simp

/-- An address whose writes go to a register's fields alone: no window, log or lock, and none of the registers that `writeReg` handles itself. -/
def fieldAddr (a : Nat) : Bool :=
  a % 4 == 0 && addrExists a && !inLog a && (lockOf a).isNone && (windowOf a).isNone && a != 0x18 && a != 0x60014 && a != 0x140028
    && !(decide (0x1C1000 ≤ a) && decide (a < 0x1C3000)) && !(decide (0x1C4000 ≤ a) && decide (a < 0x1C5000) && a % 0x20 == 0x10) && a != 0x1D000C

/-- A register that no write changes by itself: no RW field, no active copy, no SRAM word, no check of its value. -/
def woAddr (a : Nat) : Bool :=
  fieldAddr a && regMask a isS == 0 && regMask a isBL == 0 && [Cls.bLine, Cls.bQuire, Cls.bSig, Cls.bSwath].all (fun c => clsMask a c == 0)
    && (sramOf a).isNone && !(decide (0x30080 ≤ a) && decide (a < 0x300C0)) && !(decide (0x50100 ≤ a) && decide (a < 0x50180))

/-- A write to a register goes to its fields, then starts what it starts. -/
theorem State.writeAt_fields (s : State) (src : Src) (via : Option Nat) (a w : Nat) (ha : fieldAddr a = true) (hs : s.answers) :
    (s.writeAt src via a w).2 = (s.writeFields src a w).2.started src via a w (s.reg a) := by
  simp only [fieldAddr, Bool.and_eq_true, beq_iff_eq, Bool.not_eq_true', bne_iff_ne, Option.isNone_iff_eq_none] at ha
  obtain ⟨⟨⟨⟨⟨⟨⟨⟨⟨⟨h1, h2⟩, h3⟩, h4⟩, h5⟩, h6⟩, h7⟩, h8⟩, h9⟩, h10⟩, h11⟩ := ha
  have e9 : ¬ (0x1C1000 ≤ a ∧ a < 0x1C3000) := by simpa using h9
  have e10 : ¬ (0x1C4000 ≤ a ∧ a < 0x1C5000 ∧ a % 0x20 = 0x10) := by
    intro h
    simp [h.1, h.2.1, h.2.2] at h10
  have e0 : s.noAccess = false := by
    unfold State.noAccess
    rw [beq_false_of_ne hs.1, beq_false_of_ne hs.2]; rfl
  simp only [State.writeAt, h1, h2, h3, h4, h5, State.writeReg, h6, h7, h8, e9, e10, h11, e0, ne_eq, not_true_eq_false, Bool.not_true, Bool.false_or,
    if_false, Bool.false_eq_true, false_and]

theorem State.wr_fields (s : State) (src : Src) (a w : Nat) (ha : fieldAddr a = true) (hs : s.answers) :
    s.wr src a w = (s.writeFields src a w).2.started src none a w (s.reg a) := s.writeAt_fields src none a w ha hs

theorem State.valueRecs_none (s : State) (src : Src) (a v : Nat) (h1 : ¬ (0x30080 ≤ a ∧ a < 0x300C0)) (h2 : ¬ (0x50100 ≤ a ∧ a < 0x50180)) :
    s.valueRecs src a v = s := by
  unfold State.valueRecs
  rw [if_neg (fun h => h1 ⟨h.1, h.2.1⟩), if_neg (fun h => h2 ⟨h.1, h.2.1⟩)]

/-- A write to a register without RW fields changes none of them. -/
theorem State.writeFields_wo (s : State) (src : Src) (a w : Nat) (ha : woAddr a = true) : s.writeFields src a w = (.ok, s) := by
  simp only [woAddr, Bool.and_eq_true, beq_iff_eq, Bool.not_eq_true', Option.isNone_iff_eq_none, List.all_cons, List.all_nil, Bool.and_true] at ha
  obtain ⟨⟨⟨⟨⟨⟨_, h1⟩, h2⟩, c1, c2, c3, c4⟩, h4⟩, h5⟩, h6⟩ := ha
  have e5 : ¬ (0x30080 ≤ a ∧ a < 0x300C0) := by simpa using h5
  have e6 : ¬ (0x50100 ≤ a ∧ a < 0x50180) := by simpa using h6
  have hr := s.reg_lt a
  simp only [State.writeFields, h1, h2, State.valueRecs_none _ _ _ _ e5 e6, maskIn_zero _ _ hr, bne_self_eq_false, Bool.and_false, Bool.false_eq_true, if_false,
    ite_self, if_true, List.foldl_cons, List.foldl_nil, State.copyAt, c1, c2, c3, c4, State.addrWrote, h4]

theorem State.writeAt_wo (s : State) (src : Src) (via : Option Nat) (a w : Nat) (ha : woAddr a = true) (hs : s.answers) :
    (s.writeAt src via a w).2 = s.started src via a w (s.reg a) := by
  have hf : fieldAddr a = true := by
    simp only [woAddr, Bool.and_eq_true] at ha
    exact ha.1.1.1.1.1.1
  rw [s.writeAt_fields src via a w hf hs, s.writeFields_wo src a w ha]

/-- A write to a register without RW fields is what it starts. -/
theorem State.wr_wo (s : State) (src : Src) (a w : Nat) (ha : woAddr a = true) (hs : s.answers) : s.wr src a w = s.started src none a w (s.reg a) := by
  have hf : fieldAddr a = true := by
    simp only [woAddr, Bool.and_eq_true] at ha
    exact ha.1.1.1.1.1.1
  rw [s.wr_fields src a w hf hs, s.writeFields_wo src a w ha]

/-! ## Writes that leave the RW fields as they stand -/

/-- Bits that agree under a mask change nothing. -/
theorem maskIn_same (v m w : Nat) (hv : v < 2 ^ 32) (h : Nat.land w m = Nat.land v m) : maskIn v m w = v := by
  unfold maskIn
  rw [h]
  refine Nat.eq_of_testBit_eq fun i => ?_
  show (v &&& (m ^^^ 0xFFFFFFFF) ||| v &&& m).testBit i = v.testBit i
  rw [Nat.testBit_or, Nat.testBit_and, Nat.testBit_and, Nat.testBit_xor]
  by_cases hi : i < 32
  · have : Nat.testBit 0xFFFFFFFF i = true := by
      rw [show (0xFFFFFFFF : Nat) = 2 ^ 32 - 1 from rfl, Nat.testBit_two_pow_sub_one]; simpa using hi
    rw [this]
    cases v.testBit i <;> cases m.testBit i <;> rfl
  · have : v.testBit i = false := Nat.testBit_lt_two_pow (Nat.lt_of_lt_of_le hv (Nat.pow_le_pow_right (by decide) (by omega)))
    simp [this]

/-- The RW bits of a register. -/
def rwMask (a : Nat) : Nat := regMask a fun x => x.acc == .rw

/-- What a strobe writes, under a part of the RW mask. -/
theorem land_strobe (v bits m k : Nat) (hk : Nat.land k m = k) (hb : Nat.land bits m = 0) : Nat.land (Nat.lor (maskIn 0 m v) bits) k = Nat.land v k := by
  unfold maskIn
  refine Nat.eq_of_testBit_eq fun i => ?_
  have h1 := congrArg (Nat.testBit · i) hk
  have h2 := congrArg (Nat.testBit · i) hb
  change (k &&& m).testBit i = k.testBit i at h1
  change (bits &&& m).testBit i = Nat.testBit 0 i at h2
  show (((0 &&& (m ^^^ 0xFFFFFFFF) ||| v &&& m) ||| bits) &&& k).testBit i = (v &&& k).testBit i
  simp only [Nat.testBit_and, Nat.testBit_or, Nat.zero_testBit, Bool.false_and, Bool.false_or] at h1 h2 ⊢
  revert h1 h2
  cases k.testBit i <;> cases m.testBit i <;> cases bits.testBit i <;> cases v.testBit i <;> decide

/-- A register whose command bits can be written with its RW fields as they stand, and nothing but what the bits start happens. -/
def strobeAddr (a bits : Nat) : Bool :=
  fieldAddr a && Nat.land bits (rwMask a) == 0 && Nat.land (regMask a isS) (rwMask a) == regMask a isS && Nat.land (regMask a isBL) (rwMask a) == regMask a isBL
    && [Cls.bLine, Cls.bQuire, Cls.bSig, Cls.bSwath].all (fun c => clsMask a c == 0) && (sramOf a).isNone && !pairReg a
    && !(decide (0x30080 ≤ a) && decide (a < 0x300C0)) && !(decide (0x50100 ≤ a) && decide (a < 0x50180))

/-- Command bits alone start what they start. -/
theorem State.strobe_started (s : State) (src : Src) (a bits : Nat) (ha : strobeAddr a bits = true) (hs : s.answers) :
    s.strobe src a bits = s.started src none a (Nat.lor (maskIn 0 (rwMask a) (s.reg a)) bits) (s.reg a) := by
  simp only [strobeAddr, Bool.and_eq_true, beq_iff_eq, Bool.not_eq_true', Option.isNone_iff_eq_none, List.all_cons, List.all_nil, Bool.and_true] at ha
  obtain ⟨⟨⟨⟨⟨⟨⟨⟨hf, hb⟩, h1⟩, h2⟩, c1, c2, c3, c4⟩, h4⟩, hp⟩, h5⟩, h6⟩ := ha
  have e5 : ¬ (0x30080 ≤ a ∧ a < 0x300C0) := by simpa using h5
  have e6 : ¬ (0x50100 ≤ a ∧ a < 0x50180) := by simpa using h6
  have hr := s.reg_lt a
  unfold State.strobe
  rw [s.wr_fields src a _ hf hs]
  have k1 : maskIn (s.reg a) (regMask a isS) (Nat.lor (maskIn 0 (rwMask a) (s.reg a)) bits) = s.reg a := maskIn_same _ _ _ hr (land_strobe _ _ _ _ h1 hb)
  have k2 : maskIn (s.reg a) (regMask a isBL) (Nat.lor (maskIn 0 (rwMask a) (s.reg a)) bits) = s.reg a := maskIn_same _ _ _ hr (land_strobe _ _ _ _ h2 hb)
  have : (s.writeFields src a (Nat.lor (maskIn 0 (rwMask a) (s.reg a)) bits)).2 = s := by
    simp only [State.writeFields, k1, k2, bne_self_eq_false, Bool.and_false, Bool.false_eq_true, if_false, ite_self, hp, Bool.false_and, if_true,
      List.foldl_cons, List.foldl_nil, State.copyAt, c1, c2, c3, c4, State.addrWrote, h4, State.valueRecs_none _ _ _ _ e5 e6]
  show ((s.writeFields src a (Nat.lor (maskIn 0 (rwMask a) (s.reg a)) bits)).2).started src none a _ (s.reg a) = _
  rw [this]
  rfl

/-! ## SPN_PCMD -/

theorem spnPcmd_wo (p : Fin 4) : woAddr (0x180028 + 0x4000 * p) = true := by revert p; decide

/-- A write to SPN_PCMD of port p is its commands. -/
theorem State.started_spnPcmd (s : State) (src : Src) (via : Option Nat) (p : Fin 4) (w old : Nat) :
    s.started src via (0x180028 + 0x4000 * p) w old = s.spnPcmd p src via w := by
  have hp := p.isLt
  generalize ha : 0x180028 + 0x4000 * p.val = a
  have e1 : (a - 0x180000) / 0x4000 = p.val := by omega
  have e2 : a % 0x4000 = 0x28 := by omega
  unfold State.started State.startHigh
  rw [if_neg (by omega), if_neg (by omega), if_neg (by omega), if_neg (by omega), if_neg (by omega), if_pos (by omega)]
  simp only [e1, e2]
  rw [if_neg (by decide), if_neg (by decide), if_pos trivial]

end Sys2Proof.Machine
end

