-- ==== Sys2Proof/WellFormed.lean ====
section
/-!
DEFINITION. Well-formed commands: the bounds that the operands' types do not state themselves.
-/

namespace Sys2Proof

/-- A Spine frame's fields fit their widths and its payload the limit of R328. -/
def Frame.wf (f : Frame) : Bool :=
  decide (f.dst < 65536) && decide (f.src < 65536) && decide (f.vl < 4) && decide (f.hop < 256) && decide (f.ty < 256) && decide (f.status < 256)
    && decide (f.tag < 1024) && decide (f.gen < 4) && decide (f.payload.length ≤ 1024)

/-- A CFG message's fields fit their widths (R330). -/
def Cfg.wf (m : Cfg) : Bool :=
  decide (m.stage ≤ 8) && decide (m.widths < 8) && decide (m.lanes < 16) && decide (m.port < 4) && decide (m.node < 65536) && decide (m.uid.length = 16)
    && decide (m.credits.length = 4) && m.credits.all fun c => decide (c < 65536)

/-- The fuses' fields fit their widths (R438). -/
def Fuses.wf (f : Fuses) : Bool :=
  decide (f.uid.length = 16) && decide (f.grade < 4) && decide (f.major < 16) && decide (f.minor < 16)
    && (match f.keyHash with | some h => decide (h.length = 32) | none => true)

/-- A command's operands are in range. -/
def Instr.wf : Instr → Bool
  | .fuseReadDone f => f.wf
  | .imageHeadersRead h0 h1 => decide (h0.length = 64) && decide (h1.length = 64)
  | .verifyPassDone img | .applyPassDone img => decide (img.length ≤ 16777216)
  | .qdFrameReceive _ f | .hbSyncReceive _ f _ _ | .hbPdreqReceive _ f _ _ | .hbPdrespReceive _ f _ | .hbBeaconReceive _ f | .folLineReceive _ f
  | .folFwdReceive _ f | .folStartReceive _ f | .folStateReceive _ f | .folDigestReceive _ f | .folJoinReceive _ f | .rdReqReceive _ f | .wrReqReceive _ f
  | .wrPostReceive _ f | .respReceive _ f | .discReceive _ f | .discRespReceive _ f | .attestReqReceive _ f => f.wf
  | .spineFrameReceive _ b _ => decide (20 ≤ b.length) && decide (b.length ≤ 1044)
  | .spnCfgReceive _ (some m) => m.wf
  | .spnAmReceive _ _ _ _ far => decide (far ≤ 8)
  | .dramRequest _ _ _ b _ _ => decide (b.length ≤ 64)
  | .cloFlashDone data => decide (data.length ≤ 256)
  | _ => true

end Sys2Proof
end

