-- ==== Sys2Proof/Tests/Slice0.lean ====
section
/-!
SUPPORT. The model's own tests: an ill-formed command for each check, for every statement states that meet its hypotheses, and single steps with values taken
from the spec's own numbers.
-/

namespace Sys2Proof.Tests

-- one theorem after another: many kernel checks at once take too much memory
set_option Elab.async false

open Sys2Proof.Machine

/-! ## Small states and data -/

/-- The device in a state, the rest as at reset. -/
def atDev (d : Dev) : State := { State.reset with dev := d }

/-- A field set, in the active copy too where it has one. -/
def put (s : State) (f : FR) (v : Nat) : State := let t := s.p f v; if f.sh then t.setAct f.addr (t.reg f.addr) else t

/-- A frame with a type and payload. -/
def fr (ty : Nat) (b : Bytes) : Frame := { dst := 0, src := 5, vl := 1, dr := false, ll := false, soq := true, hop := 16, ty, status := 0, tag := 0, gen := 0, payload := b }

/-- A CFG of a far end in CONFIG that reports complete. -/
def cfgGood : Cfg := { stage := 4, widths := 7, lanes := 15, port := 0, node := 7, valid := true, uid := List.replicate 16 0, credits := [16, 64, 128, 48], complete := true }

/-- A folio member in an acting role. -/
def folio (d : Dev) (standby : Bool) : State := put (put (atDev d) F.FOL_CTL_EN 1) F.FOL_STS_ACTROLE (b2n standby)

/-- The record of an event at the log's slot 0. -/
def firstCode (s : State) : Nat := ((spGet none s.err.log 0).map (·.code)).getD 0

/-- A test on the next state. -/
def nextIs (o : Host.Outcome State Fault Refusal) (f : State → Bool) : Bool :=
  match o with
  | .next t => f t
  | _ => false

/-! ## Well-formedness -/

theorem wf_smoke_good : (Instr.qdFrameReceive 4 (fr 1 [])).wf = true ∧ (Instr.fuseReadDone {}).wf = true ∧ (Instr.thlLockLoss 31).wf = true := by decide +kernel

theorem wf_smoke_frame : (Instr.hbSyncReceive 0 { fr 8 [] with dst := 65536 } 0 []).wf = false ∧ (Instr.rdReqReceive 0 { fr 2 [] with src := 65536 }).wf = false
    ∧ (Instr.respReceive 0 { fr 2 [] with vl := 4 }).wf = false ∧ (Instr.respReceive 0 { fr 2 [] with hop := 256 }).wf = false
    ∧ (Instr.respReceive 0 (fr 256 [])).wf = false ∧ (Instr.respReceive 0 { fr 2 [] with status := 256 }).wf = false
    ∧ (Instr.respReceive 0 { fr 2 [] with tag := 1024 }).wf = false ∧ (Instr.respReceive 0 { fr 2 [] with gen := 4 }).wf = false
    ∧ (Instr.respReceive 0 (fr 2 (List.replicate 1025 0))).wf = false := by decide +kernel

theorem wf_smoke_cfg : ∀ m ∈ [({ cfgGood with stage := 9 } : Cfg), { cfgGood with widths := 8 }, { cfgGood with lanes := 16 }, { cfgGood with port := 4 },
    { cfgGood with node := 65536 }, { cfgGood with uid := [] }, { cfgGood with credits := [] }, { cfgGood with credits := [65536, 0, 0, 0] }],
    (Instr.spnCfgReceive 0 (some m)).wf = false ∧ (Instr.spnCfgReceive 0 (some cfgGood)).wf = true := by decide +kernel

theorem wf_smoke_fuses : ∀ f ∈ [({ uid := [] } : Fuses), { grade := 4 }, { major := 16 }, { minor := 16 }, { keyHash := some [] }], (Instr.fuseReadDone f).wf = false := by
  decide +kernel

theorem wf_smoke_lengths : (Instr.imageHeadersRead [] (List.replicate 64 0)).wf = false ∧ (Instr.imageHeadersRead (List.replicate 64 0) []).wf = false
    ∧ (Instr.spineFrameReceive 0 (List.replicate 19 0) 0).wf = false ∧ (Instr.spineFrameReceive 0 (List.replicate 1045 0) 0).wf = false
    ∧ (Instr.spnAmReceive 0 0 ⟨[], 0⟩ true 9).wf = false ∧ (Instr.dramRequest 0 0 true (List.replicate 65 0) 0 0).wf = false
    ∧ (Instr.cloFlashDone (List.replicate 257 0)).wf = false := by decide +kernel

/-- An image of more than 16 MiB is refused. -/
theorem wf_smoke_image (b : Bytes) (h : 16777216 < b.length) : (Instr.verifyPassDone b).wf = false ∧ (Instr.applyPassDone b).wf = false := by
  simp [Instr.wf]; omega

/-! ## States that meet the hypotheses of the statements -/

theorem witness_StepRunsFront : ({ State.reset with pending := [Instr.refclk0Loss, .pllLock] } : State).pending = Instr.refclk0Loss :: [.pllLock] := rfl

theorem witness_StepsComplete : State.reset.pending = [] ∧ nextIs (step State.reset) (fun t => t.tb == 65536 && t.ns == 1) = true := by decide +kernel

/-- HRB is high in STANDBY with nothing pending, and stays high over a step. -/
theorem witness_StepKeepsHrbRule : let s := { atDev .standby with hrb := true, pending := [Instr.refclk0Loss] }
    s.hrb = true ∧ (s.dev = .standby ∨ s.dev = .run) ∧ s.attn = 0 ∧ nextIs (step s) (fun t => t.hrb) = true := by decide +kernel

theorem witness_AfterQuiet : let s := { atDev .standby with hrb := true, hrbFell := none }
    (∀ c < 64, (s.chPending c && s.msgClass c != 1) = false) ∧ s.fol.stopDue = false ∧ s.dev ≠ .train ∧ s.dev ≠ .fault ∧ s.dev ≠ .retired
      ∧ maskIn s.attn s.attn 0 = 0 ∧ s.hrbHigh = true ∧ (atDev .standby).hrb = false ∧ (atDev .hold).hrbHigh = false := by decide +kernel

theorem witness_PowerAndReset : (atDev .off).dev = .off ∧ (atDev .run).dev ≠ .off ∧ (atDev .run).jtag.hold = false := by decide +kernel

theorem witness_RebootNeedsKey : (atDev .run).dev ≠ .off ∧ (atDev .run).dev ≠ .reset ∧ (0x4B44 : BitVec 16) = 0x4B44 ∧ (0x4B45 : BitVec 16) ≠ 0x4B44 := by decide +kernel

theorem witness_PowerAndReset_release : ∀ b ∈ [BootStep.resetHeld, .pll, .fuse, .sram], let s := { atDev .reset with clo := { step := b } }
    s.dev = .reset ∧ s.jtag.hold = false ∧ s.clo.step = b := by decide +kernel

/-- A header with a length and sequence number (R384). -/
def hdrOf (len seq : Nat) : Bytes :=
  let h := leBytes 4 0x4C4F434B ++ leBytes 2 1 ++ leBytes 2 64 ++ leBytes 4 len ++ leBytes 4 seq ++ leBytes 2 1 ++ List.replicate 42 0
  h ++ leBytes 4 (crc32c h)

/-- An image of one empty section of type 6. -/
def imgOf : Bytes := let x := leBytes 2 6 ++ leBytes 2 0 ++ leBytes 4 0; hdrOf 80 1 ++ x ++ leBytes 4 (crc32c x) ++ leBytes 4 0

/-- The header of that image, read. -/
def imgHdr : ImgHdr := { len := 80, seq := 1, sections := 1, signed := false, sck := 0, quad := false }

theorem witness_DiscoveryAndHeaders : (atDev .load).dev = .load ∧ (atDev .load).clo.step = .discovery ∧ (true && true && false) = false
    ∧ ({ atDev .load with clo := { step := .headers } } : State).clo.step = .headers ∧ parseHeader (hdrOf 80 1) = .inr imgHdr
    ∧ parseHeader (hdrOf 80 2) = .inr { imgHdr with seq := 2 } ∧ parseHeader [] = .inl 0 ∧ (atDev .load).clo.hdr1 = none := by decide +kernel

theorem witness_VerifyAndApply : ∀ b ∈ [BootStep.verify, .apply], let s := { atDev .load with clo := { step := b, hdr0 := some imgHdr, todo := [false] } }
    s.dev = .load ∧ s.clo.todo = [false] ∧ s.hdr false = some imgHdr ∧ s.err.inj = none ∧ s.clo.step = b
      ∧ verifyCopy imgHdr s.fuses.keyHash false imgOf = .inr ([⟨64, 6, false, 0⟩], false) ∧ verifyCopy imgHdr s.fuses.keyHash false [] = .inl (.sectCrc, 64)
      ∧ sectionsFrom imgOf 80 11 64 = .inr [⟨64, 6, false, 0⟩] ∧ ∀ x ∈ [(⟨64, 6, false, 0⟩ : Section)], x.crcOk imgOf = true := by decide +kernel

theorem witness_SubchannelSteps : ∀ x ∈ [(ScState.init, 0), (.init, 1), (.filling, 2), (.training, 3)], let s := (atDev .train).modSc 3 fun q => { q with st := x.1, done := x.2 }
    (s.sc 3).st = x.1 ∧ (s.sc 3).done = x.2 ∧ (s.sc 3).fails < 3 ∧ s.dev ≠ .fill ∧ s.dev = .train ∧ (s.sc 3).injArm = none ∧ (s.sc 3).injCrc = false := by decide +kernel

theorem witness_SubchannelSteps_retire : let s := put ((atDev .train).modSc 3 fun q => { q with st := .init, fails := 3 }) F.MEM_CTL_RETEN 1
    (s.sc 3).st = .init ∧ (s.sc 3).done = 0 ∧ (s.sc 3).fails = 3 ∧ s.gb F.MEM_CTL_RETEN = true := by decide +kernel

theorem witness_FlashAndTemperature : ∀ b ∈ [0, 1], ∀ d ∈ [0, 1], let s := put (put (put (atDev .run) F.CLO_FCTL_BUSY b) F.CLO_FCTL_DIR d) F.CLO_FCTL_LEN 256
    s.dev = .run ∧ s.gb F.CLO_FCTL_BUSY = (b == 1) ∧ s.gb F.CLO_FCTL_DIR = (d == 1) ∧ 4 * 63 + 4 ≤ Nat.min 256 (s.g F.CLO_FCTL_LEN) := by decide +kernel

/-- A read request of register 0 over Spine with a length. -/
def rdReq (len : Nat) : Frame := fr FT.RD_REQ (leBytes 8 0 ++ leBytes 2 len)

theorem witness_UnalignedAccess : (3 : Nat) % 4 ≠ 0 ∧ (0x20080002 : Word).toNat % 4 ≠ 0 ∧ (0xFFFFFFFF : Word).toNat % 4 ≠ 0
    ∧ targetOf (leAt (txnBody (rdReq 8)) 0 8) = .regs 0 ∧ leAt (txnBody (rdReq 8)) 8 2 ≠ 4 ∧ ((txnBody (rdReq 8)).drop 8).length ≠ 4 := by decide +kernel

theorem witness_StandbyWriteFields : (atDev .standby).dev = .standby ∧ 2 ^ 32 - 1 < 2 ^ 32 ∧ (atDev .standby).sram.flips = [] ∧ (atDev .standby).err.inj = none := by
  decide +kernel

theorem witness_ClassViolation : (atDev .run).dev ≠ .standby ∧ (Src.jtag : Src) ≠ .loader ∧ (atDev .run).member = false
    ∧ maskIn ((atDev .run).reg 0x20034) (regMask 0x20034 isS) 1 ≠ (atDev .run).reg 0x20034 ∧ maskIn ((atDev .run).reg 0x20034) (regMask 0x20034 isS) 0 = (atDev .run).reg 0x20034
    ∧ (0x20034 < 0x1C0000 ∧ 0x20034 ≠ 0x18) := by decide +kernel

theorem witness_ReadsAndScratch : ((atDev .run).dev ≠ .off ∧ (atDev .run).dev ≠ .reset) ∧ (3 : Fin 4) ≠ 0 := by decide +kernel

theorem witness_JtagPort : (∀ d ∈ [Dev.reset, .run], (atDev d).dev ≠ .off ∧ (atDev d).jtag.hold = false) ∧ ({ atDev .reset with jtag := { hold := true } } : State).jtag.hold = true ∧ (atDev .run).jtagLive = true ∧ (atDev .run).jtag.busy = none
    ∧ bitOf (BitVec.ofNat 66 (2 ^ 57)).toNat 57 = true
    ∧ ({ atDev .run with jtag := { busy := some (false, 0x28, 0) } } : State).jtag.busy = some (false, 0x28, 0)
    ∧ ({ atDev .run with jtag := { busy := some (false, 0x28, 0) } } : State).jtagLive = true := by decide +kernel

theorem witness_SramScrubber : (atDev .run).sram.flips = [] ∧ (3 : Fin 11).val ∈ [3, 7, 8, 10] := by decide +kernel

/-- An open record without a log slot, and one in slot 0. -/
def opened : State := { put (atDev .run) F.ERR_HEAD_INDEX 1 with err := { opened := [⟨[E.ERR_TAILPTR.code, 0], some 0, true, 0⟩] } }

theorem witness_LogAndErrorCommands : ((atDev .run).dev ≠ .off ∧ (atDev .run).dev ≠ .reset)
    ∧ ((1 : Word).toNat + 2 ^ 32 - opened.g F.ERR_TAIL_INDEX) % 2 ^ 32 ≤ opened.logCount ∧ opened.logCount < ((2 : Word).toNat + 2 ^ 32 - opened.g F.ERR_TAIL_INDEX) % 2 ^ 32
    ∧ (∃ o ∈ opened.err.opened, o.idx = some 0) ∧ (0 < (0x1B : BitVec 7).toNat ∧ (0x1B : BitVec 7).toNat ≤ 0x1B ∧ (0x1B : BitVec 7).toNat ∉ [0x0A, 0x0F, 0x10, 0x12])
    ∧ 0x1B < (0x1C : BitVec 7).toNat := by decide +kernel

theorem witness_RecordEvent : let e : Ev := { c := E.ERR_TAILPTR }
    (∃ o ∈ opened.err.opened, o.key = e.c.code :: e.inst :: e.key) ∧ (∀ o ∈ (atDev .run).err.opened, o.key ≠ e.c.code :: e.inst :: e.key)
      ∧ (atDev .run).gb F.ERR_CFG_RINGEN = false ∧ e.c.sev < 3 ∧ (atDev .run).logCount < 256 ∧ 256 ≤ (put (atDev .run) F.ERR_HEAD_INDEX 256).logCount := by decide +kernel

/-- A machine with event 9 pending in state 0, its entry with GUARD 1, action NOP, NEXT 5 (R396). -/
def machine9 : State := ((atDev .run).modMach 2 fun x => { x with pend := 2 ^ 9 }).setWin (0x540000 + 8192 * 2 + 4 * 9) (5 * 2 ^ 26 + 1)

theorem witness_SupervisorRound : 2 < 16 ∧ 9 < 32 ∧ ((atDev .run).mach 2).pend = 0 ∧ (∀ j < 9, bitOf (machine9.mach 2).pend j = false)
    ∧ bitOf (machine9.mach 2).pend 9 = true ∧ machine9.smtEntry 2 (machine9.mach 2).state 9 % 64 = 1
    ∧ bitsOf (machine9.smtEntry 2 (machine9.mach 2).state 9) 25 18 = 0 ∧ machine9.dev = .run := by decide +kernel

theorem witness_SupervisorRound_commands : ((atDev .hold).dev ≠ .off ∧ (atDev .hold).dev ≠ .reset)
    ∧ (((atDev .run).modMach 15 fun x => { x with timer := some 7 }).mach 15).timer = some 7
    ∧ (evListed (1 : BitVec 6).toNat = true ∧ (1 : BitVec 6).toNat < 0x38) ∧ (evListed (0x3B : BitVec 6).toNat = true ∧ 0x38 ≤ (0x3B : BitVec 6).toNat)
    ∧ (atDev .hold).dev = .hold ∧ (atDev .hold).standby = false ∧ (atDev .run).dev ≠ .hold := by decide +kernel

theorem witness_DeviceActions : (∀ d ∈ [Dev.standby, .run, .hold], (atDev d).member = false ∧ (atDev d).dev = d) ∧ (atDev .standby).dev ≠ .run := by decide +kernel

/-! ### Quires -/

/-- The header of a quire of one line of context 0 at b = 1 (R38, R39): a STORED quire of 128 bytes of zeros. -/
def qHdr : Bytes :=
  let h := leBytes 2 0x4B51 ++ leBytes 1 1 ++ leBytes 1 0 ++ leBytes 4 0 ++ leBytes 4 0 ++ leBytes 2 1 ++ leBytes 1 1 ++ leBytes 1 1 ++ leBytes 4 128 ++ List.replicate 8 0
  h ++ leBytes 4 (crc32c h)

/-- That quire in one frame. -/
def qFrame : Frame := let d : Bytes := List.replicate 128 0; fr FT.QD (qHdr ++ d ++ leBytes 4 (crc32c d) ++ leBytes 4 (crc32c d))

/-- A device in RUN that takes quires of context 0. -/
def qDev : State := put (put (put (atDev .run) F.QRE_CTL_ACCEPT 1) (F.QRE_CTXEN_EN 0) 1) F.QRE_STPAGES_PAGES 65536

theorem witness_QuireIngress_arrives : (let a := qDev.begun.qdArrive 4 qFrame
      qDev.gth.cur = none ∧ a.qdBehind 4 qFrame = false ∧ (a.ingressHeader qFrame.src qFrame.payload 4).1 = .accept [1024] ∧ (a.ingressHeader qFrame.src qFrame.payload 4).2 = a)
    ∧ (let a := (atDev .run).begun.qdArrive 4 qFrame; (atDev .run).qdTaken = false ∧ (a.ingressFrame 4 qFrame).isNone = true)
    ∧ (let f := { qFrame with soq := false }; f.soq = false ∧ qDev.slotOf f.src = none ∧ (qDev.begun.qdArrive 4 f).qdBehind 4 f = false)
    ∧ (let s : State := { atDev .run with spn := { inbox := [(4, qFrame)] } }; s.spn.inbox = [(4, qFrame)] ∧ s.qdTaken = false ∧ (s.begun.ingressFrame 4 qFrame).isNone = true) := by
  decide +kernel

theorem witness_QuireIngress : ((atDev .run).begun.ingressFrame 4 qFrame).isNone = true ∧ qFrame.ty = FT.QD
    ∧ ({ qDev with spn := { inbox := [(4, qFrame)] } } : State).spn.inbox = [(4, qFrame)]
    ∧ (({ qDev with spn := { inbox := [(4, qFrame)] } } : State).begun.ingressFrame 4 qFrame).isSome = true
    ∧ ({ qDev with spn := { inbox := [(4, fr 16 []), (4, qFrame)] } } : State).qdBehind 4 qFrame = true ∧ qDev.qdBehind 4 qFrame = false ∧ qDev.qdTaken = true ∧ qFrame.soq = true ∧ qDev.qre.slots = [] ∧ qDev.err.inj = none ∧ qFrame.payload.length = 40 + (parseQHdr qFrame.payload).clen
    ∧ (qDev.begun.ingressHeader qFrame.src qFrame.payload 4).1 = .accept [1024] ∧ qDev.quire 0 0 0 = none ∧ ¬ sigDiff 0 qDev.sRef < 0 ∧ 0 ∉ qDev.qre.dead
    ∧ crc32c (slice qFrame.payload 32 128) = leAt qFrame.payload (32 + 128) 4 := by decide +kernel

/-- A quire of context 0 in the directory, in a state. -/
def qIn (st : QState) (attempt : Nat) : Quire :=
  { sig := 0, ctx := 0, first := 0, count := 1, bpn := 1, isStored := true, last := false, flush := false, clen := 128, src := 5, pages := [0], st, attempt }

/-- With that quire alone. -/
def qWith (st : QState) (attempt : Nat) : State := { qDev with qre := { dir := [qIn st attempt] } }

theorem witness_Inflation : (qWith .stored 0).engineBusy 0 = false ∧ (qWith .stored 0).dev = .run ∧ (qWith .stored 0).ready 0 = some (qIn .stored 0)
    ∧ (∀ r ∈ [1, 2, 3], (qWith .stored 0).ready r = none) ∧ (qWith .inflating 0).inflating 0 = some (qIn .inflating 0)
    ∧ (qWith .inflating 0).err.inj = none ∧ (qWith .inflating 0).sram.poisoned = [] ∧ (qWith .inflating 0).sram.flips = []
    ∧ (qIn .inflating 0).isStored = true ∧ (qIn .inflating 0).clen = (qIn .inflating 0).size := by decide +kernel

/-- The same device with that quire's bytes in page 0 of subchannel 0, which is active and read raw. -/
def qStored : State :=
  { put ((qWith .inflating 0).modSc 0 fun q => { q with st := .active }) F.MEM_TEST_BYPASS 1 with
    dram := qFrame.payload.zipIdx.filterMap fun (b, i) => if b = 0 then none else some (80 * (i / 64) + i % 64, b) }

theorem witness_Inflation_read : let b := (qStored.begun.fetchQuire [0] 168).1.getD []
    (qStored.begun.fetchQuire [0] 168).1.isSome = true ∧ (qStored.begun.fetchQuire [0] 168).2.err.inj.isNone = true
    ∧ crc32c (slice b 32 128) = leAt b 160 4 ∧ crc32c (slice b 32 128) = leAt b 164 4 := by decide +kernel

theorem witness_ResendAttempts : (qWith .resend 1).quire 0 0 0 = some (qIn .resend 1) ∧ (qIn .resend 1).st = .resend ∧ 0 < (qIn .resend 1).attempt
    ∧ 1 < (put (qWith .resend 1) F.QRE_RSCFG_MAX 2).g F.QRE_RSCFG_MAX ∧ (put (qWith .resend 1) F.QRE_RSCFG_MAX 1).g F.QRE_RSCFG_MAX ≤ 1
    ∧ ({ qWith .resend 0 with qre := { dir := [qIn .resend 0], waiting := [(0, 0, 0)] } } : State).rsOut < 256 := by decide +kernel

theorem witness_QuireRegisters : ((atDev .standby).dev ≠ .off ∧ (atDev .standby).dev ≠ .reset)
    ∧ (¬ ((qWith .stored 0).qre.started = true ∧ (qWith .stored 0).g F.QRE_SIGSEL_NUM = (qWith .stored 0).g F.QRE_SIGCUR_NUM) ∧ (qWith .stored 0).g F.QRE_SIGSEL_NUM ∈ (qWith .stored 0).openSigs)
    ∧ qDev.g F.QRE_SIGSEL_NUM ∉ qDev.openSigs ∧ (1 : Word).toNat ≠ (atDev .standby).reg 0x20034
    ∧ (∀ k < 4, (1 : Word).toNat ≠ (atDev .standby).reg (0x20010 + 4 * k))
    ∧ (let s : State := { atDev .run with qre := { started := true } }; s.qre.started = true ∧ s.g F.QRE_SIGSEL_NUM = s.g F.QRE_SIGCUR_NUM) := by decide +kernel

/-! ### Motion and firing -/

/-- An encoder with its last edge at time 0 and homing armed, in a mode, ENC0 not followed. -/
def encDev (mode : Nat) : State := (put (put (atDev .run) F.POS_CTL_SRC 2) (F.POS_ENCCFG_ZMODE 0) mode).modEnc 0 fun x => { x with lastEdge := some 0, zarm := true }

theorem witness_EncoderEdges : 4 ≤ devCode (encDev 1).dev ∧ (encDev 1).err.inj = none ∧ (encDev 1).g F.POS_CTL_SRC ≠ 0
    ∧ (let s := { encDev 1 with tb := 16 * 65536 }; (s.enc 0).lastEdge = some 0 ∧ (nsU 16 : Int) ≤ tdiff (tAdd s.now 0) 0)
    ∧ (let s := { encDev 1 with tb := 16 * 65536 - 1 }; (s.enc 0).lastEdge = some 0 ∧ tdiff (tAdd s.now 0) 0 < (nsU 16 : Int))
    ∧ (encDev 1).g (F.POS_ENCCFG_ZMODE 0) = 1 ∧ (encDev 2).g (F.POS_ENCCFG_ZMODE 0) = 2 ∧ ((encDev 2).enc 0).zarm = true := by decide +kernel

theorem witness_EncoderEdges_levels : let s := put (encDev 0) (F.POS_ENCCFG_FILT 0) 7
    let la (x : EncIn) : Bool := encAccept x (s.g (F.POS_ENCCFG_FILT 0)) (s.enc 0).a
    la ⟨true, 8⟩ ≠ (s.enc 0).a ∧ la ⟨true, 7⟩ = (s.enc 0).a ∧ la ⟨false, 0⟩ = (s.enc 0).b ∧ s.running = true ∧ 0 < s.dirI * (1 - s.pos.x)
      ∧ (put s F.POS_CTL_SRC 0).g F.POS_CTL_SRC = 0 ∧ (atDev .standby).running = false ∧ 0 < (atDev .standby).dirI * (1 - (atDev .standby).pos.x) := by decide +kernel

theorem witness_StartEvents : ((atDev .standby).dev = .standby ∧ (atDev .standby).member = false) ∧ (atDev .run).dev ≠ .standby ∧ (atDev .run).g F.POS_SIGCFG_SRC < 2
    ∧ (atDev .run).running = true ∧ (atDev .run).scanning = false ∧ 2 ≤ (put (atDev .run) F.POS_SIGCFG_SRC 2).g F.POS_SIGCFG_SRC
    ∧ (put (atDev .run) F.POS_SIGCFG_SRC 2).running = true ∧ (put (atDev .run) F.POS_SIGCFG_SRC 2).scanning = false
    ∧ (atDev .run).g F.POS_SIGCFG_SRC = 0 ∧ (true : Bool) ≠ (atDev .run).gb F.POS_SIGCFG_TOFPOL
    ∧ (atDev .run).pos.cur = none ∧ (atDev .run).pos.old = none ∧ (atDev .run).gth.cur = none := by decide +kernel

/-- A line whose frame was sent on lane 0, with fire time 1000 and bundle 0 acknowledged. -/
def lineOf (came : Bool) : Line :=
  { k := 7, sig := 1, line := 0, rev := false, blank := 0, wh := false, phi := [],
    mods := [(0, { words := [0], sent := true, tf := some 1000, came, bunds := [{ acked := true }, {}] })] }

/-- Lane 0 ACTIVE and that line in flight. -/
def fireDev (came : Bool) : State := { (atDev .run).modLane 0 fun x => { x with stage := .active } with gth := { lines := [lineOf came] } }

theorem witness_FireAndFall : (fireDev false).err.inj = none ∧ (fireDev false).err.opened = [] ∧ 1000 < 2 ^ 64
    ∧ (fireDev false).nextFire 0 = some (lineOf false) ∧ ((lineOf false).ml 0).tf = some 1000 ∧ (fireDev false).laneUp 0 = true ∧ ((lineOf false).ml 0).sent = true
    ∧ (fireDev false).lineHeld (lineOf false) = false ∧ bitOf ((fireDev false).g F.FIR_WDSTS_CUT) 0 = false ∧ (fireDev false).fir.clkLost = false
    ∧ (fireDev false).lastFall 0 = none ∧ ((fireDev false).fen 0).skUntil = none := by decide +kernel

theorem witness_FireAndFall_held : ∀ s ∈ [{ fireDev false with fir := { gate := true } }], s.nextFire 0 = some (lineOf false) ∧ s.laneUp 0 = true
    ∧ s.lineHeld (lineOf false) = true ∧ s.err.inj = none ∧ s.err.opened = [] := by decide +kernel

theorem witness_FireAndFall_slip : let s := put ((fireDev false).modFen 0 fun x => { x with fell := some 990 }) F.FIR_FGCFG_MINLOW 1
    s.lastFall 0 = some 990 ∧ ((lineOf false).ml 0).slip = false ∧ (s.fen 0).skUntil = none ∧ s.nextFire 0 = some (lineOf false) ∧ s.lineHeld (lineOf false) = false
      ∧ 0 < tdiff (tAdd 990 (nsU (s.g F.FIR_FGCFG_MINLOW) : Nat)) 1000 := by decide +kernel

theorem witness_FireAndFall_slot : let s := fireDev true
    (s.gth.lines.find? fun x => (x.ml 0).came && decide ((x.ml 0).slot < 16)) = some (lineOf true) ∧ ((lineOf true).ml 0).slot < 15
      ∧ (((lineOf true).ml 0).bunds[((lineOf true).ml 0).slot]?.any fun b => b.acked) = true
      ∧ (((atDev .run).modFen 31 fun x => { x with drive := true, high := true }).fen 31).drive = true ∧ s.err.inj = none ∧ s.err.opened = [] := by decide +kernel

theorem witness_WatchdogAndClock : (((atDev .run).modFen 31 fun x => { x with high := true }).fen 31).high = true ∧ ((atDev .run).dev ≠ .off ∧ (atDev .run).dev ≠ .reset) := by
  decide +kernel

theorem witness_WatchdogAndClock_forms : (∀ h ∈ [true, false], let s := { (atDev .run).modFen 31 fun x => { x with high := true } with jtag := { hold := h } }
      (s.fen 31).high = true ∧ s.jtag.hold = h) ∧ (atDev .run).mayCal = true ∧ ((atDev .run).modFen 31 fun x => { x with high := true }).mayCal = false := by decide +kernel

theorem witness_LineDoneAndRamp_sent : let s := fireDev false
    (s.gth.lines.find? fun x => !(x.ml 0).words.isEmpty && !(x.ml 0).done) = some (lineOf false) ∧ s.laneUp 0 = true ∧ ((lineOf false).ml 0).slot ≠ 16 ∧ ((lineOf false).ml 0).came = false
      ∧ ∀ y ∈ s.gth.lines, y.k = (lineOf false).k → y = lineOf false := by decide +kernel

theorem witness_LineDoneAndRamp : ((atDev .run).gth.lines.find? fun x => !(x.ml 0).words.isEmpty && !(x.ml 0).done) = none
    ∧ (let s := { atDev .run with gth := { lines := [lineOf false] } }
       (s.gth.lines.find? fun x => !(x.ml 0).words.isEmpty && !(x.ml 0).done) = some (lineOf false) ∧ (lineOf false).ptEntry = none ∧ (lineOf false).dead = false
         ∧ s.member = false ∧ s.laneUp 0 = false ∧ s.err.opened = [] ∧ ((lineOf false).ml 0).lowered = false ∧ ((lineOf false).ml 0).shaved = 0
         ∧ ∀ y ∈ s.gth.lines, y.k = (lineOf false).k → y = lineOf false)
    ∧ ((atDev .run).running = true ∧ (atDev .run).gth.k % 64 = 0 ∧ (atDev .run).gth.rampK ≠ some (atDev .run).gth.k)
    ∧ ({ atDev .run with gth := { k := 63 } } : State).gth.k % 64 ≠ 0 := by decide +kernel

/-! ### Time -/

/-- A follower of node 9 by port 2, in a follower state. -/
def tmbFol (st : Fol) : State :=
  { put (put (put (put (put (atDev .run) F.TMB_CTL_ROLE 0) F.TMB_CTL_UPPORT 2) F.TMB_MASTER_NODE 9) F.POS_CTL_SRC 2) F.POS_BCNCFG_SRCNODE 5 with pos := { fol := { st, v := 1, valid := true } } }

/-- HB_SYNC of a node with hop 0. -/
def syncFr (node : Nat) : Frame := fr FT.HB_SYNC (syncBytes 0 0 0 node 0 0 1)

/-- A beacon of node 5 with an epoch and a sequence. -/
def bcnFr (pos epoch seq : Nat) : Frame := fr FT.HB_BEACON (leBytes 8 0 ++ leBytes 6 pos ++ leBytes 6 0 ++ leBytes 2 epoch ++ leBytes 1 0 ++ leBytes 1 seq)

theorem witness_TimebaseEvents : (let s := put (atDev .run) (F.TMB_EVTCTL_ARMED 7) 1
      s.gb (F.TMB_EVTCTL_ARMED 7) = true ∧ 0 ≤ tdiff s.now (s.g (F.TMB_EVT_LO_VAL 7) + 2 ^ 32 * s.g (F.TMB_EVT_HI_VAL 7)) ∧ s.gb (F.TMB_EVTCTL_RINGEN 7) = false)
    ∧ (atDev .run).gb (F.TMB_EVTCTL_ARMED 7) = false ∧ ((atDev .run).dev ≠ .off ∧ (atDev .run).dev ≠ .reset) ∧ (tmbFol .acq).follower = true ∧ (put (atDev .run) F.TMB_CTL_ROLE 1).follower = false
    ∧ ((tmbFol .acq).gb F.TMB_STS_HOLDOVER = false ∧ (tmbFol .acq).err.inj = none) ∧ (atDev .run).g F.TMB_CTL_ROLE ≠ 2
    ∧ (let s := put (atDev .run) F.TMB_CTL_ROLE 2
       s.g F.TMB_CTL_ROLE = 2 ∧ true ≠ s.gb F.TMB_CTL_PPSPOL ∧ false = s.gb F.TMB_CTL_PPSPOL ∧ -(nsU 1000000000 : Int) < 2 * 0 ∧ 2 * (0 : Int) ≤ nsU 1000000000
         ∧ (((tAdd s.now 0 : Nat) : Int) - 0) % (nsU 1000000000 : Int) = 0 ∧ (0 : Int).natAbs ≤ nsU (s.g F.TMB_STEPTHR_NS)) := by decide +kernel

theorem witness_SyncAndDelay : (tmbFol .acq).err.inj = none ∧ (tmbFol .acq).follower = true ∧ (put (atDev .run) F.TMB_CTL_ROLE 1).follower = false
    ∧ ¬ (leAt (syncFr 8).payload 18 2 = (tmbFol .acq).g F.TMB_MASTER_NODE ∧ byteAt (syncFr 8).payload 20 < 32)
    ∧ (leAt (syncFr 9).payload 18 2 = (tmbFol .acq).g F.TMB_MASTER_NODE ∧ byteAt (syncFr 9).payload 20 < 32) ∧ (tmbFol .acq).g F.TMB_CTL_UPPORT = 2 ∧ (tmbFol .acq).spn.inbox = []
    ∧ (leAt (syncFr 0).payload 18 2 = (atDev .run).g F.TMB_MASTER_NODE ∧ byteAt (syncFr 0).payload 20 < 32)
    ∧ (tmbFol .acq).upPorts = [] ∧ ((tmbFol .acq).modPort 2 fun q => { q with stage := .active }).upPorts = [2]
    ∧ (let s := { tmbFol .acq with tmb := { pd := [(2, some ⟨3, 0⟩)] } }
       spGet none s.tmb.pd 2 = some ⟨3, 0⟩ ∧ leAt (leBytes 22 0 ++ leBytes 2 3) 22 2 = 3 ∧ leAt (leBytes 22 0 ++ leBytes 2 4) 22 2 ≠ 3) := by decide +kernel

theorem witness_BeaconsAndFollower : (∀ st ∈ [Fol.acq, .locked], (tmbFol st).err.inj = none ∧ (tmbFol st).folSt ≠ .notFollower ∧ (tmbFol st).folSt ≠ .hold ∧ (tmbFol st).spn.inbox = []
      ∧ (bcnFr 0 0 0).src = (tmbFol st).g F.POS_BCNCFG_SRCNODE)
    ∧ (atDev .run).gb F.POS_CTL_BCNTX = false
    ∧ (let s := put (atDev .run) F.POS_CTL_BCNTX 1; 4 ≤ devCode s.dev ∧ s.gb F.POS_CTL_BCNTX = true ∧ s.g F.POS_CTL_SRC < 2 ∧ ∀ k < 8, s.gb (F.POS_BCNDST_EN k) = false)
    ∧ (atDev .run).folSt = .notFollower ∧ leAt (bcnFr 0 1 0).payload 20 2 ≠ (tmbFol .locked).epoch ∧ leAt (bcnFr 0 0 0).payload 20 2 = (tmbFol .locked).epoch
    ∧ (let l := 3; byteAt (bcnFr 0 0 3).payload 23 = l ∧ (3 + 256 - l) % 256 = 0) ∧ (tmbFol .locked).pos.fol.lastSeq = none ∧ (tmbFol .locked).folSt = .locked
    ∧ (atDev .run).estDrives = false ∧ ((tmbFol .locked).estDrives = true ∧ (tmbFol .locked).missed = none)
    ∧ ((tmbFol .locked).running = true ∧ (tmbFol .locked).g F.POS_CTL_SRC = 2) ∧ (tmbFol .hold).folSt = .hold := by decide +kernel

/-- A beacon of node 5 at time 0 for the position 0, of sequence 7; with a residual of 5 counts. -/
def resBcn : Frame := bcnFr 5 0 7

theorem witness_BeaconsAndFollower_usable : (∀ st ∈ [Fol.locked, .extrap], let s := put (tmbFol st) F.POS_BCNCFG_MAXRES 5
      s.folSt = st ∧ resBcn.src = s.g F.POS_BCNCFG_SRCNODE ∧ leAt resBcn.payload 20 2 = s.epoch ∧ s.pos.fol.lastSeq = none
        ∧ (sext 48 (leAt resBcn.payload 8 6) : Rat) - s.estAt (leAt resBcn.payload 0 8) = 5 ∧ (put s F.POS_BCNCFG_MAXRES 4).g F.POS_BCNCFG_MAXRES = 4)
    ∧ (∀ l ∈ [true, false], let s := { tmbFol .acq with pos := { fol := { st := .acq, loaded := l, good := 2 } } }; s.folSt = .acq ∧ s.pos.fol.loaded = l ∧ s.pos.fol.lastSeq = none)
    ∧ (atDev .run).pos.stamp = none ∧ (tmbFol .locked).folSt = .locked ∧ (tmbFol .extrap).folSt ≠ .locked := by decide +kernel

/-- A locked follower in RUN with a trigger of its grid behind it, catching up. -/
def lateFol : State :=
  { tmbFol .locked with pos := { x := 10, cur := some { sig := 0, b0 := 65536, rev := false, pitch := 65536, next := 0 }, fol := { st := .locked, v := 1, valid := true, cu := true } } }

theorem witness_BeaconsAndFollower_late : lateFol.estDrives = true ∧ lateFol.running = true ∧ lateFol.g F.POS_CTL_SRC = 2 ∧ lateFol.folSt ≠ .hold
    ∧ lateFol.missed = some ({ sig := 0, b0 := 65536, rev := false, pitch := 65536, next := 0 }, true) ∧ lateFol.pos.fol.cu = true := by decide +kernel

/-! ### Thread lanes -/

/-- Lane 3 in a stage. -/
def lane3 (st : LStage) (d : Dev) : State := (atDev d).modLane 3 fun x => { x with stage := st, locked := true }

/-- A TS block in stage 4, a CR block, an AK block and a bad block. -/
def tsB : Bytes := ctlBlock 0x66 (leBytes 1 4)
/-- A CR block for command 2 with result 0. -/
def crB : Bytes := ctlBlock 0xAA (leBytes 1 2)
/-- An AK block of line 7, bundle g, with a generation and a NAK flag. -/
def akB (g gen nak : Nat) : Bytes := ctlBlock 0x78 (leBytes 2 7 ++ leBytes 1 (g + 32 * gen + 64 * nak))

/-- A capability frame that passes the check with every limit 0 (R169). -/
def cpB : Bytes :=
  let c : Bytes := leBytes 1 1 ++ List.replicate 5 0 ++ List.replicate 8 0 ++ leBytes 1 15 ++ leBytes 1 7 ++ List.replicate 4 0 ++ leBytes 1 5 ++ leBytes 1 4 ++ List.replicate 4 0
  ctlBlock 0x99 (c.take 6) ++ c.drop 6 ++ leBytes 4 (crc32c c)

theorem witness_LaneBringUp : (∀ st ∈ [LStage.detect, .train, .bitlock, .blocklock, .recover], ((lane3 st .train).lane 3).wait = false ∧ ((lane3 st .train).lane 3).stage = st
      ∧ ((lane3 st .train).lane 3).locked = true ∧ ((lane3 st .train).lane 3).cpSeen = false)
    ∧ ctlOk [] = false ∧ (ctlOk tsB = true ∧ byteAt tsB 0 = 0x66 ∧ 4 ≤ byteAt tsB 1 ∧ byteAt tsB 1 ≤ 6) ∧ (ctlOk cpB = true ∧ byteAt cpB 0 = 0x99)
    ∧ (let c := slice cpB 1 6 ++ slice cpB 8 24
       (((lane3 .blocklock .train).begun.modLane 3 fun x => { x with cpSeen := true }).capReport 3 c).capOk 3 c = true
         ∧ (((lane3 .blocklock .train).begun.modLane 3 fun x => { x with cpSeen := true }).capReport 3 []).capOk 3 [] = false)
    ∧ (((atDev .train).modLane 3 fun x => { x with wait := true }).lane 3).wait = true := by decide +kernel

theorem witness_LaneCommands : (∀ n ∈ [0, 3], let s := (lane3 .active .standby).modLane 3 fun x => { x with cmd := some ⟨2, 0, n, false⟩ }
      (s.lane 3).cmd = some ⟨2, 0, n, false⟩ ∧ s.err.inj = none ∧ (s.lane 3).stage = .active ∧ s.g (F.THL_RETCFG_RECMAX 3) = (lane3 .active .standby).g (F.THL_RETCFG_RECMAX 3))
    ∧ (ctlOk crB = true ∧ byteAt crB 0 = 0xAA ∧ byteAt crB 1 = 2 ∧ byteAt crB 2 = 0) ∧ ctlOk [] = false ∧ ((lane3 .active .run).lane 3).cmd = none
    ∧ (put (lane3 .active .run) (F.THL_RETCFG_RECMAX 3) 0).g (F.THL_RETCFG_RECMAX 3) = 0 ∧ ((lane3 .detect .run).lane 3).stage ≠ .active
    ∧ ((lane3 .active .run).dev ≠ .standby ∧ (lane3 .active .run).dev ≠ .hold ∧ (lane3 .active .run).dev ≠ .off ∧ (lane3 .active .run).dev ≠ .reset)
    ∧ (∀ st ∈ [LStage.retired, .active, .test], (lane3 st .standby).dev = .standby ∧ ((lane3 st .standby).lane 3).stage = st) := by decide +kernel

theorem witness_AckAndResend : (ctlOk (akB 1 0 0) = true ∧ byteAt (akB 1 0 0) 0 = 0x78) ∧ ((fireDev false).lane 0).stage = .active ∧ ((fireDev false).lane 0).injAck = false
    ∧ (fireDev false).lineOfLfn 0 (leAt (akB 1 0 0) 1 2) = some (lineOf false) ∧ (fireDev false).lineOfLfn 0 (7 : BitVec 16).toNat = some (lineOf false)
    ∧ ((lineOf false).ml 0).open? 1 = some {} ∧ (bitsOf (byteAt (akB 1 0 0) 3) 5 4 = 0 ∧ bitOf (byteAt (akB 1 0 0) 3) 6 = false)
    ∧ (bitsOf (byteAt (akB 1 0 1) 3) 5 4 = 0 ∧ bitOf (byteAt (akB 1 0 1) 3) 6 = true) ∧ bitsOf (byteAt (akB 1 1 0) 3) 5 4 ≠ 0 ∧ ((lane3 .detect .run).lane 3).stage ≠ .active
    ∧ (atDev .run).lineOfLfn 0 7 = none ∧ (((atDev .run).modLane 0 fun x => { x with blocks := 989 }).lane 0).blocks < 990
    ∧ 990 ≤ (((atDev .run).modLane 0 fun x => { x with blocks := 990 }).lane 0).blocks := by decide +kernel

theorem witness_AckAndResend_room : (fireDev false).lineK (lineOf false).k = some (lineOf false) ∧ (fireDev false).laneUp 0 = true
    ∧ (put (fireDev false) (F.THL_RTCFG_NRS 0) 1).g (F.THL_RTCFG_NRS 0) = 1 ∧ (fireDev false).sram.poisoned = []
    ∧ (let x := { (lineOf false).ml 0 with tf := some 10000000 }; (fireDev false).copyFits 0 x 1 = true ∧ x.open? 1 = some {})
    ∧ (let s := (fireDev false).modLane 0 fun x => { x with blocks := 990 }; s.laneSends 0 = true ∧ 990 ≤ (s.lane 0).blocks ∧ (s.lane 0).txBr = []) := by decide +kernel

/-- A status frame that is not a line frame, without results. -/
def stsB : Bytes :=
  let h : Bytes := leBytes 2 7 ++ leBytes 4 1
  let d : Bytes := List.replicate 140 0
  ctlBlock 0x87 h ++ d ++ leBytes 4 (crc32c (h ++ d))

/-- The status frame of line 0, without results. -/
def stsL : Bytes :=
  let h : Bytes := leBytes 6 0
  let d : Bytes := List.replicate 140 0
  ctlBlock 0x87 h ++ d ++ leBytes 4 (crc32c (h ++ d))

theorem witness_StatusAndInjections_line : ctlOk stsL = true ∧ byteAt stsL 0 = 0x87 ∧ (parseStatus stsL).isSome = true ∧ (∀ f ∈ parseStatus stsL, f.isLine = true ∧ f.res = [] ∧ f.blank = 0) := by
  decide +kernel

theorem witness_StatusAndInjections : (atDev .run).err.inj = none ∧ ((atDev .run).lane 0).injScrc = false ∧ ctlOk [] = false ∧ (ctlOk stsB = true ∧ byteAt stsB 0 = 0x87)
    ∧ (∀ f ∈ parseStatus stsB, f.isLine = false ∧ f.res = []) ∧ (parseStatus stsB).isSome = true ∧ (parseStatus (stsB.take 150)).isNone = true
    ∧ (put (atDev .run) F.FIR_TLIM_HARD 100).g F.FIR_TLIM_HARD ≠ 0 ∧ (put (atDev .run) F.FIR_TLIM_HARD 100).g F.FIR_TLIM_HARD ≤ 100 ∧ (atDev .run).isHot 0 = false
    ∧ bitOf (atDev .run).fir.lost 0 = false ∧ bitOf ({ atDev .run with fir := { lost := 1 } } : State).fir.lost 0 = true := by decide +kernel

theorem witness_StatusAndInjections_lane : ((atDev .run).dev ≠ .off ∧ (atDev .run).dev ≠ .reset) ∧ ((lane3 .active .run).lane 3).stage = .active
    ∧ (put (lane3 .active .run) (F.THL_RETCFG_RECMAX 3) 0).g (F.THL_RETCFG_RECMAX 3) = 0
    ∧ (let s := put (put (lane3 .test .standby) (F.THL_PRBS_GENEN 3) 1) (F.THL_PRBS_CHKEN 3) 1
       (s.lane 3).stage = .test ∧ s.gb (F.THL_PRBS_GENEN 3) = true ∧ s.gb (F.THL_PRBS_CHKEN 3) = true ∧ (s.lane 3).injBits = 0) := by decide +kernel

theorem witness_StatusAndInjections_parts : (∀ v ∈ [0, 1], let s := put (put (lane3 .test .standby) (F.THL_PRBS_GENEN 3) v) (F.THL_PRBS_CHKEN 3) (1 - v)
      (s.lane 3).stage = .test ∧ s.gb (F.THL_PRBS_GENEN 3) = (v == 1) ∧ s.gb (F.THL_PRBS_CHKEN 3) = (v == 0)) ∧ ((lane3 .active .run).lane 3).stage ≠ .test := by decide +kernel

/-! ### Nozzle map and cameras -/

/-- WRMASK selects every field. -/
def mapAll (d : Dev) : State := put (atDev d) F.NZH_MAPCFG_WRMASK 63

/-- A write to nozzle 4095 of module 31. -/
def mapW (cond from' : Nat) : MapW := { m := 31, q := 4095, e := none, src := 1, mask := 0xFFFFFFFF, val := 0, cond, from' }

theorem witness_MapWrites : ((mapAll .run).sram.poisoned = [] ∧ (mapAll .run).err.inj = none ∧ (Src.jtag : Src) ≠ .loader ∧ (mapAll .run).dev ≠ .off ∧ (mapAll .run).dev ≠ .reset)
    ∧ nzMask ((put (atDev .run) F.NZH_MAPCFG_WRMASK 0).g F.NZH_MAPCFG_WRMASK) = 0 ∧ nzMask ((mapAll .run).g F.NZH_MAPCFG_WRMASK) ≠ 0
    ∧ (mapAll .standby).running = false ∧ (mapAll .run).running = true ∧ (mapAll .run).member = false
    ∧ (put (put (mapAll .run) F.FOL_CTL_EN 1) F.FOL_STS_ACTROLE 1).standby = true ∧ (put (put (mapAll .run) F.FOL_CTL_EN 1) F.FOL_STS_ACTROLE 1).running = true
    ∧ nzState ((mapAll .run).nz 31 4095) = nzState (maskIn ((mapAll .run).nz 31 4095) (nzMask 63) 7)
    ∧ nzState ((mapAll .run).nz 31 4095) ≠ (mapW 1 3).from' ∧ nzUsable (((mapAll .run).setWin 0x400000 (2 * 2 ^ 29)).nz 0 0) = false
    ∧ ((mapAll .run).nzh.waiting.find? fun y => y.m == 31) = none
    ∧ (({ mapAll .run with nzh := { waiting := [mapW 0 0] } } : State).nzh.waiting.find? fun y => y.m == 31) = some (mapW 0 0) ∧ ((mapAll .run).stagedOf 31).length < 1024 := by
  decide +kernel

theorem witness_MapWrites_primary : let s := put (put (mapAll .run) F.FOL_CTL_EN 1) F.FOL_STS_ACTROLE 0
    s.primary = true ∧ s.running = true ∧ nzMask (s.g F.NZH_MAPCFG_WRMASK) ≠ 0 := by decide +kernel

/-- Module 0's lane ACTIVE in a sweep in STANDBY, with a candidate. -/
def measDev : State :=
  { put (put (put ((atDev .standby).modLane 0 fun x => { x with stage := .active }) F.NZH_CTL_MEASEN 1) (F.THL_LANESTS_CAPOK 0) 1) F.NZH_STS_SWEEPING 1 with
    nzh := { cands := [(0, [⟨9, 2, 0, 1, false⟩])] } }

theorem witness_MeasureAndDump : ((atDev .standby).measOf 0 = none ∧ (atDev .standby).measAllowed 0 = false)
    ∧ (({ atDev .standby with nzh := { meas := [(0, some ⟨0, 1, false, false⟩)] } } : State).measOf 0 = some ⟨0, 1, false, false⟩)
    ∧ (measDev.measOf 0 = none ∧ measDev.measAllowed 0 = true ∧ measDev.candsOf 0 = [⟨9, 2, 0, 1, false⟩]) ∧ (atDev .standby).dev = .standby ∧ (atDev .run).dev ≠ .standby
    ∧ (put (atDev .run) F.NZH_STS_DUMPBUSY 1).gb F.NZH_STS_DUMPBUSY = true ∧ (atDev .run).gb F.NZH_STS_DUMPBUSY = false := by decide +kernel

/-- A pulse waiting on CTRIG1 and LSTB1, each output in a state. -/
def pulseDev (high : Bool) : State := { put (put (atDev .run) (F.INS_CTX_CFG_EN 2) 1) (F.INS_CTX_CFG_TSEL 2) 1 with
  ins := { ctrig := [(1, { high, waiting := [⟨0, 1, 1, false, 0, []⟩] })], lstb := [(1, { high, waiting := [⟨0, 1, 1, false, 0, []⟩] })] } }

theorem witness_CameraTriggers : ((atDev .run).ctrig 1).waiting = [] ∧ ((atDev .run).lstb 1).waiting = []
    ∧ (∀ h ∈ [true, false], ((pulseDev h).ctrig 1).waiting = [⟨0, 1, 1, false, 0, []⟩] ∧ ((pulseDev h).ctrig 1).high = h ∧ ((pulseDev h).lstb 1).waiting = [⟨0, 1, 1, false, 0, []⟩]
      ∧ ((pulseDev h).lstb 1).high = h)
    ∧ 2 ∈ ((pulseDev false).camCtxs 1).filter (fun n => dirAdmits ((pulseDev false).g (F.INS_CTX_CFG_DIRSEL n)) false) ∧ ((pulseDev false).anchorsOf 2).length < 4
    ∧ 3 ∉ ((pulseDev false).camCtxs 1).filter (fun n => dirAdmits ((pulseDev false).g (F.INS_CTX_CFG_DIRSEL n)) false) := by decide +kernel

/-- CTRIG1 and LSTB1 high till time 1000, a pulse waiting that rises before or after. -/
def highDev (t : Nat) : State := { atDev .run with ins := { ctrig := [(1, { high := true, fall := 1000, waiting := [⟨t, 5, 1, false, 0, []⟩] })], lstb := [(1, { high := true, fall := 1000, waiting := [⟨t, 5, 1, false, 0, []⟩] })] } }

theorem witness_CameraTriggers_still : ((highDev 999).ctrig 1).stillHigh 999 = true ∧ ((highDev 1000).ctrig 1).stillHigh 1000 = false ∧ ((highDev 999).lstb 1).stillHigh 999 = true
    ∧ ((highDev 1000).lstb 1).stillHigh 1000 = false ∧ ((highDev 0).ctrig 1).stillHigh (highDev 0).now = true
    ∧ (({ highDev 0 with tb := 1000 } : State).ctrig 1).stillHigh ({ highDev 0 with tb := 1000 } : State).now = false := by decide +kernel

/-- Camera port 1 enabled with context 2 bound to its virtual channel 0, of RAW12. -/
def camDev : State := put (put (put (put (put (atDev .run) (F.INS_PORTCFG_EN 1) 1) (F.INS_CTX_CFG_EN 2) 1) (F.INS_CTX_CFG_PORT 2) 1) (F.INS_CTX_CFG_VC 2) 0) (F.INS_CTX_CFG_RAW12 2) 1

/-- With a frame of that context open. -/
def camOpen : State := { camDev with ins := { frames := [{ ctx := 2, num := 1, order := 0, anchor := none }] } }

theorem witness_CameraPackets : (camDev.camPort 1).inj = 0 ∧ camDev.err.inj = none ∧ (atDev .run).gb (F.INS_PORTCFG_EN 1) = false
    ∧ (camDev.gb (F.INS_PORTCFG_EN 1) = true ∧ camDev.gb (F.INS_PORTSTS_RETIRED 1) = false) ∧ camDev.camCtx 1 (0 : BitVec 2).toNat = some 2 ∧ camDev.camCtx 1 (3 : BitVec 2).toNat = none
    ∧ camDev.openFrame 2 = none ∧ camDev.ins.frames = [] ∧ camDev.ins.proc = none ∧ camDev.anchorsOf 2 = [] ∧ camDev.err.opened = []
    ∧ (∃ f ∈ camOpen.openFrame 2, (put camOpen (F.INS_CTX_SIZE_HEIGHT 2) 0).g (F.INS_CTX_SIZE_HEIGHT 2) ≤ f.rows.length) ∧ 3 < (4 : BitVec 6).toNat
    ∧ (2 : BitVec 6).toNat = 2 ∧ ((0x2A : BitVec 6) ≠ 0x2B ∧ (0x2A : BitVec 6) ≠ 0x2C) ∧ camDev.gb (F.INS_CTX_CFG_RAW12 2) = true := by decide +kernel

theorem witness_CameraPackets_anchor : let a : Anchor := ⟨0, 1, false, 0, []⟩
    let s : State := { put camDev F.INS_CTL_FSWIN 1 with ns := 1000, ins := { anchors := [(2, [a])] } }
    s.anchorsOf 2 = [a] ∧ s.ns ≤ a.ns + 1000 * s.g F.INS_CTL_FSWIN ∧ s.openFrame 2 = none := by decide +kernel

theorem witness_CameraPipeline : (let s := put camOpen F.INS_CTL_EN 1
      s.ins.proc = none ∧ s.ins.frames = [{ ctx := 2, num := 1, order := 0, anchor := none }] ∧ s.gb F.INS_CTL_EN = true) ∧ camDev.ins.frames = []
    ∧ (∀ e ∈ [true, false], let f : CamFrame := { ctx := 2, num := 1, order := 0, anchor := none, ended := e }
       ({ camDev with ins := { proc := some f } } : State).ins.proc = some f ∧ f.ended = e ∧ f.anchor = none)
    ∧ ((atDev .standby).dev = .standby ∧ (atDev .run).dev ≠ .standby ∧ (15 : BitVec 4) ≠ 0) ∧ bitOf (5 : BitVec 4).toNat 0 = true ∧ bitOf (5 : BitVec 4).toNat 1 = false := by
  decide +kernel

/-! ### Calibration and the folio pair -/

/-- CAL on, module 31 with an enabled context, since when it has met the conditions of quiet. -/
def calDev (k : Nat) : State :=
  { put (put (put (atDev .run) F.CAL_CTL_EN 1) (F.QRE_CTXEN_EN 3) 0xFFFFFFFF) F.CAL_PUBCFG_INTLG 1 with gth := { k }, cal := { since := [(31, some 0)], lines := k } }

theorem witness_Uniformity : (spGet none (calDev 4096).cal.since 31 = some 0 ∧ (calDev 4096).gb (F.CAL_MODSTS_QUIET 31) = false ∧ 0 + (calDev 4096).settle ≤ (calDev 4096).gth.k)
    ∧ (calDev 0).gth.k < 0 + (calDev 0).settle ∧ spGet none (atDev .run).cal.since 31 = none
    ∧ ((calDev 2).publishes = true ∧ (calDev 2).modOn 31 = true ∧ (calDev 2).running = true ∧ (calDev 2).g F.CAL_PUBCFG_INTLG ≠ 0
      ∧ spGet 0 (calDev 2).cal.lastPub 31 + 2 ^ (calDev 2).g F.CAL_PUBCFG_INTLG ≤ (calDev 2).cal.lines) ∧ (calDev 2).member = false ∧ (calDev 1).cal.lines < spGet 0 (calDev 1).cal.lastPub 31 + 2 ^ (calDev 1).g F.CAL_PUBCFG_INTLG
    ∧ ((calDev 0).dev = .run ∧ (atDev .standby).dev ≠ .run ∧ (atDev .standby).dev ≠ .off ∧ (atDev .standby).dev ≠ .reset) ∧ (calDev 0).cal.job = none
    ∧ (({ calDev 0 with cal := { job := some ⟨31, 4095, []⟩ } } : State).cal.job = some ⟨31, 4095, []⟩ ∧ 4095 < 4096) ∧ (calDev 0).standby = false ∧ (folio .run true).standby = true
    ∧ (put (folio .run false) (F.INS_CTX_CFG_EN 3) 1).camOn = true ∧ (put (put (folio .run false) (F.INS_CTX_CFG_EN 3) 1) F.CAL_CTL_EN 1).publishes = true := by decide +kernel

/-- CAL on with the streak test, module 0 quiet and nozzle 0's record full and dead by DEADF and DEADG of 0. -/
def strkDev : State :=
  (put (put (put (put (put (put (atDev .run) F.CAL_CTL_EN 1) F.CAL_CTL_STRKEN 1) (F.CAL_MODSTS_QUIET 0) 1) F.CAL_STRKCFG_DEADNLG 3) F.CAL_STRKCFG_DEADF 0) F.CAL_STRKCFG_DEADG 0).setStat 0
    (Stat.bits { n := 8, see := 8, sen := 0, sep := -8, srr := 0, sr := 0, defs := 8, halves := 0 })

theorem witness_Uniformity_streaks : ((atDev .standby).dev ≠ .run ∧ (atDev .standby).dev ≠ .off ∧ (atDev .standby).dev ≠ .reset)
    ∧ (let s := put (put (atDev .run) F.CAL_CTL_FFAUTO 1) F.CAL_FFCFG_FFPER 1
       s.dev = .run ∧ s.standby = false ∧ s.gb F.CAL_CTL_FFAUTO = true ∧ s.g F.CAL_FFCFG_FFPER ≠ 0 ∧ 7 ∉ s.cal.ff)
    ∧ ({ atDev .run with cal := { ff := [7] } } : State).cal.ff = [7] ∧ (atDev .run).wroteNow (F.INS_CTX_CFG_FFBANK 7).addr = false ∧ (atDev .run).standby = false
    ∧ ({ atDev .run with ins := { wrote := [((F.INS_CTX_CFG_FFBANK 7).addr, 0)] } } : State).wroteNow (F.INS_CTX_CFG_FFBANK 7).addr = true ∧ (put (atDev .run) F.CAL_CTL_STRKEN 0).gb F.CAL_CTL_STRKEN = false
    ∧ (strkDev.gb F.CAL_CTL_STRKEN = true ∧ strkDev.publishes = true ∧ strkDev.cal.inj = false ∧ nzUsable (strkDev.nz 0 0) = true ∧ strkDev.gb (F.CAL_MODSTS_QUIET 0) = true
      ∧ 2 ^ strkDev.g F.CAL_STRKCFG_DEADNLG ≤ (statOf (strkDev.stat 0)).scaled.n ∧ strkDev.streakDead (statOf (strkDev.stat 0)) = true)
    ∧ nzUsable ((strkDev.setWin 0x400000 (2 * 2 ^ 29)).nz 0 0) = false := by decide +kernel

/-- A payload of a folio frame that begins with these bytes. -/
def folB (b : List Nat) : Frame := fr FT.FOL_STATE (b.map (BitVec.ofNat 8) ++ List.replicate 40 0)

theorem witness_FolioFrames : ((atDev .run).member = false ∧ (atDev .run).spn.inbox = [])
    ∧ (∀ sb ∈ [true, false], (folio .run sb).member = true ∧ (folio .run sb).gb F.FOL_STS_ISOLATED = false ∧ (folio .run sb).primary = !sb ∧ (folio .run sb).standby = sb
      ∧ (folio .run sb).running = true ∧ (folio .run sb).spn.inbox = [] ∧ (folio .run sb).dev ≠ .standby ∧ (folio .run sb).fol.rejoin = false ∧ (folio .run sb).fol.own = [])
    ∧ (byteAt (folB [6]).payload 0 ≠ 8 ∧ byteAt (folB [6]).payload 0 ≠ 10 ∧ bitOf (byteAt (folB [6]).payload 3) 3 = false ∧ byteAt (folB [6]).payload 4 = 0)
    ∧ byteAt (folB [1]).payload 0 = 1 ∧ sigDiff (leAt (folB [1]).payload 1 4) (folio .run false).pos.nextSig ≥ 0 ∧ (folio .standby false).running = false := by decide +kernel

/-- A digest of line k with all else 0. -/
def digD (k : Nat) : LineDig := { k, sig := 0, line := 0, flags := 0, blank := 0, cause := 0, dig := [] }

theorem witness_FolioFrames_line : (digOf (folB [7]).payload).k = 7 ∧ (∀ o ∈ ({ folio .run true with fol := { own := [digD 6, digD 65542] } } : State).fol.own, o.k % 65536 ≠ 7)
    ∧ (let s := { folio .run true with fol := { own := [digD 65543] } }; s.fol.own = digD 65543 :: [] ∧ (digD 65543).k % 65536 = 7 ∧ s.fol.rejoin = false)
    ∧ (let s := { folio .run true with fol := { rejoin := true } }; s.fol.rejoin = true ∧ s.standby = true ∧ s.fol.own = [])
    ∧ (put (folio .run false) F.FOL_STS_ISOLATED 1).gb F.FOL_STS_ISOLATED = true ∧ (put (folio .run false) F.FOL_STS_ISOLATED 1).primary = true
    ∧ (bitOf (byteAt (folB [0, 0, 0, 0, 100]).payload 12) 0 = false
      ∧ (folio .run true).pos.x * 65536 < (sext 64 (leAt (folB [0, 0, 0, 0, 100]).payload 4 8) + (folio .run true).g F.POS_SIGCFG_DLY) * 65536
        - ((folio .run true).g F.GTH_CFG_LEAD * (folio .run true).g F.POS_PITCH_COUNTS : Nat))
    ∧ (let b := (folB [4, 0, 0, 1]).payload; byteAt b 0 ≠ 8 ∧ byteAt b 0 ≠ 10 ∧ bitOf (byteAt b 3) 0 = true ∧ bitOf (byteAt b 3) 2 = false) := by decide +kernel

/-- A digest exchanged: the kind, the line and the value 0. -/
def digF (kind k : Nat) : Frame := folB [kind, 0, 0, 0, k]

theorem witness_FolioFrames_digest : (∀ kind ∈ [1, 2, 3], byteAt (digF kind 9).payload 0 = kind ∧ leAt (digF kind 9).payload 4 4 = 9 ∧ leAt (digF kind 9).payload 8 4 = 0)
    ∧ (let s := { folio .standby false with fol := { runReq := true, digs := [(1, 0, 5)] } }
       s.dev = .standby ∧ s.primary = true ∧ s.fol.runReq = true ∧ s.fol.digs = [(1, 0, 5)]) ∧ (folio .run false).fol.digs = []
    ∧ (∀ v ∈ [0, 1], let s := { folio .run true with fol := { digs := [(3, 9, v)], chk := some ⟨0, false, 31⟩ } }
       s.fol.digs = [(3, 9, v)] ∧ s.fol.chk = some ⟨0, false, 31⟩ ∧ (31 : Nat) < 32 ∧ (v = leAt (digF 3 9).payload 8 4 ↔ v = 0))
    ∧ ((folio .run true).fol.joinSig = none ∧ byteAt (folB [2]).payload 0 = 2 ∧ byteAt (folB [3]).payload 0 = 3) := by decide +kernel

/-- A member in RUN as the acting standby, module 0 enabled and its lane ACTIVE, owned here or not. -/
def ownDev (own : Nat) : State := put (put ((folio .run true).modLane 0 fun x => { x with stage := .active }) (F.QRE_CTXEN_EN 0) 1) F.FOL_OWNA_MAP own

/-- SUSPECT with CLEARN 0 and some clean lines. -/
def suspDev (clean : Nat) : State := { put (put (folio .run false) F.FOL_STS_SUSPECT 1) F.FOL_CFG_CLEARN 0 with fol := { clean } }

theorem witness_PeerAndCommands : (atDev .run).member = false ∧ ((folio .standby true).member = true ∧ (folio .standby true).running = false)
    ∧ ((ownDev 0).standby = true ∧ (ownDev 0).running = true ∧ (ownDev 0).ownsAll = false) ∧ ((ownDev 1).ownsAll = true ∧ (ownDev 1).standby = true)
    ∧ (folio .run true).fol.missNs = none ∧ (folio .run true).fol.chk = none
    ∧ (∀ p ∈ [[], [(0, 1)]], let s := { folio .run true with fol := { chk := some ⟨0, false, 32⟩ }, sram := { poisoned := p } }
       s.fol.chk = some ⟨0, false, 32⟩ ∧ s.sram.poisoned = p ∧ (32 : Nat) < 33)
    ∧ ((suspDev 1).gb F.FOL_STS_SUSPECT = true ∧ (suspDev 1).fol.chk = none ∧ (suspDev 1).fol.askChk = false ∧ 2 ^ (suspDev 1).g F.FOL_CFG_CLEARN ≤ (suspDev 1).fol.clean)
    ∧ (suspDev 0).fol.clean < 2 ^ (suspDev 0).g F.FOL_CFG_CLEARN ∧ (put (atDev .run) F.FOL_STS_JOINING 1).gb F.FOL_STS_JOINING = true ∧ (atDev .run).fol.joinEnd ≤ (atDev .run).gth.k
    ∧ (atDev .run).gb F.FOL_STS_JOINING = false ∧ (((folio .run false).modPort 3 fun q => { q with stage := .active }).port 3).stage = .active ∧ ((folio .run false).port 3).stage ≠ .active := by
  decide +kernel

theorem witness_PeerAndCommands_more : (let s := put (put (folio .run false) F.FOL_OWNA_MAP 1) (F.QRE_CTXEN_EN 0) 1
      s.primary = true ∧ s.running = true ∧ ∃ m ∈ s.mods, s.owns m = true)
    ∧ (let s := put (folio .run false) (F.QRE_CTXEN_EN 0) 1; s.mods ≠ [] ∧ (put s F.FOL_OWNA_MAP 0).mods ≠ [] ∧ ∀ m ∈ (put s F.FOL_OWNA_MAP 0).mods, (put s F.FOL_OWNA_MAP 0).owns m = false)
    ∧ (folio .run false).mods = []
    ∧ (∀ n ∈ [5000, 5001], let s := put { folio .run true with ns := n, fol := { missNs := some 0 } } F.FOL_CFG_PTMO 5
       s.fol.missNs = some 0 ∧ s.err.opened = [] ∧ (s.ns - 0 ≤ s.g F.FOL_CFG_PTMO * 1000 ↔ n = 5000))
    ∧ (∀ n ∈ [32, 33], let s := { folio .run true with fol := { chk := some ⟨0, false, n⟩ } }; s.fol.chk = some ⟨0, false, n⟩ ∧ s.sram.poisoned = [] ∧ (33 ≤ n ↔ n = 33)) := by decide +kernel

theorem witness_PeerAndCommands_join : (∀ l ∈ [0, 1], let s := put (put (folio .standby false) F.TMB_CTL_ROLE 0) F.TMB_STS_LOCK l
      s.mayJoin = (l == 1) ∧ s.member = true ∧ s.dev = .standby) := by decide +kernel

theorem witness_PeerAndCommands_commands : (∀ d ∈ [Dev.run, .standby], (folio d false).member = true ∧ (folio d false).dev = d ∧ (folio d false).primary = true ∧ d ≠ .off ∧ d ≠ .reset)
    ∧ (atDev .run).member = false ∧ (folio .run true).primary = false := by decide +kernel

/-! ### DRAM -/

/-- Four active subchannels, the last with these queues. -/
def memDev (d : Dev) (rq wq : List MReq) : State :=
  (List.range 4).foldl (fun s i => s.modSc i fun q => { q with st := .active, rq := if i = 3 then rq else [], wq := if i = 3 then wq else [] }) (atDev d)

/-- A full write, or a read, of codeword 192 of subchannel 3. -/
def mreq (wr : Bool) : MReq :=
  { master := 9, a := 3 * 4096, wr, data := if wr then List.replicate 64 7 else [], mask := if wr then List.replicate 64 true else [], len := 64, cls := 3, node := 0, seq := 0, ns := 0,
    rmw := false, poison := false, wb := false }

theorem witness_DramRequests : (let s := memDev .run [] []
      cfgScOf s.mem.cfg (3 * 4096) = 3 ∧ s.memOk (3 * 4096) = true ∧ (3 * 4096) % 64 + 64 ≤ 64 ∧ (s.sc 3).wq = [] ∧ (s.sc 3).tracker = [] ∧ (s.sc 3).rq.length < 64)
    ∧ ((atDev .run).memOk 0 = false ∧ (atDev .run).memRetired 0 = false ∧ ((atDev .run).modSc 0 fun q => { q with st := .retired }).memRetired 0 = true)
    ∧ (let s := { memDev .run [] [mreq true] with mem := { (memDev .run [] [mreq true]).mem with ordMode := 1 } }
       (s.sc 3).wq = [mreq true] ∧ (mreq true).a / 64 = 3 * 4096 / 64 ∧ s.mem.ordMode = 1 ∧ (mreq true).mask.all id = true ∧ (mreq true).rmw = false ∧ (mreq true).poison = false)
    ∧ (let s := memDev .run [] [mreq true]
       (s.sc 3).wq = [mreq true] ∧ (s.sc 3).rq = [] ∧ cfgScOf s.mem.cfg (mreq true).a = 3 ∧ (mreq true).wb = false ∧ (mreq true).a % 64 = 0 ∧ (mreq true).data.length = 64
         ∧ (s.sc 3).injArm = none ∧ (s.sc 3).injCrc = false ∧ s.gb F.MEM_TEST_BYPASS = false)
    ∧ (let s := memDev .run [mreq false] []
       (s.sc 3).rq = [mreq false] ∧ (s.sc 3).wq = [] ∧ (mreq false).rmw = false ∧ s.gb F.MEM_TEST_BYPASS = false) := by decide +kernel

theorem witness_DramRequests_order : (let s := memDev .run [] (List.replicate 64 (mreq true))
      s.memOk (3 * 4096) = true ∧ (s.sc 3).wq.length = 64 ∧ (List.replicate 64 (7 : Byte)).length = 64)
    ∧ (∀ r ∈ [mreq true, mreq false], (memDev .run [] []).refFirst 3 r = false ∧ r.quiet = false ∧ r.more = [] ∧ r.rmw = false) ∧ (memDev .run [] []).mem.held = [] := by decide +kernel

theorem witness_RefreshAndCommands_waits : (let s := put ((memDev .run [] []).modSc 3 fun q => { q with owed := [2, 0] }) F.MEM_CTL_PTEN 1
      s.gb F.MEM_CTL_PTEN = true ∧ (s.sc 3).st = .active ∧ s.retrainWaits 3 = true)
    ∧ (memDev .run [] []).mem.held = [] ∧ ((memDev .run [] []).sc 3).rq = [] ∧ ((memDev .run [] []).sc 3).wq = [] ∧ (∀ k < 2, (memDev .run [] []).owed 3 k = 0)
    ∧ (∀ r ∈ ((memDev .run [mreq false] []).sc 3).rq, r.master ≠ 7) := by decide +kernel

/-- FILL's data decodes clean: also what a patrol read and a queued read of a codeword never written meet. -/
theorem fill_decodes_clean : (rsDecode 0 ((atDev .run).rawCw 0) == .clean) = true := by decide +kernel

theorem witness_RefreshAndCommands : (let s := memDev .run [] []
      s.err.inj = none ∧ (s.sc 3).owed.length = 2 ∧ (s.sc 3).rate.length = 2 ∧ s.scLive 3 = true ∧ s.hasRank 0 = true ∧ s.owed 3 0 + 1 < Nat.min 4 (Nat.max 1 (s.g F.MEM_RFCFG_POSTMAX))
        ∧ s.owed 3 0 = 0 ∧ (s.sc 3).rate.getD 0 1 = 1 ∧ 2 * s.owed 3 0 < Nat.min 4 (Nat.max 1 (s.g F.MEM_RFCFG_POSTMAX)) ∧ s.owed 3 1 < 2)
    ∧ Nat.min 4 (Nat.max 1 ((put (memDev .run [] []) F.MEM_RFCFG_POSTMAX 0).g F.MEM_RFCFG_POSTMAX)) ≤ (memDev .run [] []).owed 3 0 + 1
    ∧ (atDev .run).scLive 3 = false ∧ (memDev .run [] []).hasRank 1 = false
    ∧ (let s := (memDev .run [] []).modSc 3 fun q => { q with owed := [1, 0], rate := [2, 1], ptWrite := true }
       0 < s.owed 3 0 ∧ s.urgent 3 (some 0) = false ∧ s.urgent 3 none = false ∧ (s.sc 3).rate.getD 0 1 = 2 ∧ (put s F.MEM_RFCFG_FORCE2X 0).gb F.MEM_RFCFG_FORCE2X = false
         ∧ (s.sc 3).lower.getD 0 false = false ∧ (s.sc 3).lower.length = 2 ∧ s.owed 3 0 < 2 ∧ (s.sc 3).ptWrite = true ∧ (0 : BitVec 16).toNat ≤ s.g F.MEM_PTCFG_DRIFT)
    ∧ (memDev .run [{ mreq false with cls := 0 }] []).urgent 3 (some 0) = true
    ∧ (∀ v ∈ [0, 1], let s := put (put (memDev .run [] []) F.MEM_CTL_PTEN v) F.MEM_CTL_PATROL v
       s.gb F.MEM_CTL_PTEN = (v == 1) ∧ s.gb F.MEM_CTL_PATROL = (v == 1) ∧ (s.sc 3).st = .active ∧ (s.sc 3).passing = false ∧ s.gb F.MEM_TEST_BYPASS = false ∧ s.scCws ≠ 0
         ∧ s.scAddr 0 (s.sc 0).patrol / 64 = 0) := by decide +kernel

theorem witness_RefreshAndCommands_commands : ((memDev .run [] []).dev ≠ .standby ∧ (memDev .run [] []).dev ≠ .off ∧ (memDev .run [] []).dev ≠ .reset ∧ (8 : BitVec 4) ≠ 0)
    ∧ ((memDev .standby [] []).dev = .standby ∧ cfgLegal ((memDev .standby [] []).reg 0x140004) = true ∧ 3 < cfgSubs (memDev .standby [] []).mem.cfg)
    ∧ bitOf (8 : BitVec 4).toNat 3 = true ∧ bitOf (8 : BitVec 4).toNat 2 = false := by decide +kernel

/-! ### Spine -/

/-- Port 2 in a stage, on all four lanes. -/
def port2 (st : PStage) (d : Dev) : State := (atDev d).modPort 2 fun q => { q with stage := st, lanesAct := 15 }

theorem witness_SpineBringUp : (∀ st ∈ [PStage.detect, .train, .align, .config, .active], let s := put (put (put (port2 st .train) (F.SPN_RETCFG_THR 2) 0) (F.SPN_RETCFG_RECMAX 2) 0) (F.SPN_PCTL_WMAX 2) 2
      s.err.inj = none ∧ (s.port 2).stage = st ∧ (s.port 2).waitRetry = false ∧ s.g (F.SPN_RETCFG_THR 2) = 0 ∧ s.g (F.SPN_RETCFG_RECMAX 2) = 0 ∧ bitOf (s.port 2).lanesAct 3 = true
        ∧ (s.port 2).laneRet ≠ 15 ∧ (s.port 2).txq = [] ∧ (s.port 2).lastW = none ∧ (s.port 2).fails + 1 ≠ 3 ∧ s.nbrFits 2 (slice cfgGood.uid 0 16) = true
        ∧ chooseWidth (lanesFree (s.port 2) (15 : BitVec 4).toNat) (s.g (F.SPN_PCTL_WMAX 2)) 7 = some (2, 15)
        ∧ chooseWidth (lanesFree (s.port 2) cfgGood.lanes) (s.g (F.SPN_PCTL_WMAX 2)) cfgGood.widths = some (2, 15)
        ∧ ∀ i < 4, bitOf (s.port 2).lanesAct i = true → bitOf (s.port 2).laneRet i = false → bitOf (15 : BitVec 4).toNat i = true)
    ∧ cfgGood.complete = true ∧ (((port2 .detect .train).modPort 2 fun q => { q with waitRetry := true }).port 2).waitRetry = true
    ∧ aligned ((port2 .detect .train).port 2) = false ∧ bitOf (((port2 .active .train).modPort 2 fun q => { q with lanesAct := 1 }).port 2).lanesAct 3 = false
    ∧ (aligned (((port2 .active .train).modPort 2 fun q => { q with lanesAct := 1 }).port 2) = true) := by decide +kernel

/-- An AM of lane 3 with the parity of one block. -/
def amRx (par : Nat) : AmRx := ⟨[0xFF], BitVec.ofNat 64 (leAt (spnBlock 0x99 (leBytes 1 3 ++ leBytes 1 par)) 0 8)⟩

theorem witness_SpineBringUp_am : (let am := leBytes 8 (amRx 0xFF).am.toNat
      crc8 (am.take 7) = byteAt am 7 ∧ byteAt am 0 = 0x99 ∧ byteAt am 2 = (amRx 0xFF).blocks.foldl (fun v x => Nat.xor v (bip8 (leBytes 8 x.toNat))) 0
        ∧ byteAt (leBytes 8 (amRx 0).am.toNat) 2 ≠ (amRx 0).blocks.foldl (fun v x => Nat.xor v (bip8 (leBytes 8 x.toNat))) 0)
    ∧ (∀ v ∈ [0, 1], ¬ (crc8 ((leBytes 8 (v * 2 ^ 56)).take 7) = byteAt (leBytes 8 (v * 2 ^ 56)) 7 ∧ byteAt (leBytes 8 (v * 2 ^ 56)) 0 = 0x99)) ∧ aligned ((port2 .active .run).port 2) = true ∧ ((port2 .active .run).port 2).stage = .active := by decide +kernel

/-- A link-local frame on VL 0, as bytes with a sequence. -/
def llBytes (seq : Nat) : Bytes := frameBytes { fr FT.HB_SYNC [] with ll := true, vl := 0 } seq 0 0

/-- A frame in the replay buffer. -/
def kept : Kept := { seq := 5, w := ⟨fr FT.NOTIFY [], fr FT.NOTIFY [], 4, 0⟩, stomped := false, replays := 3 }

/-- A link-control block as a number. -/
def blkOf (ty : Nat) (b : Bytes) : BitVec 64 := BitVec.ofNat 64 (leAt (spnBlock ty b) 0 8)

theorem witness_SpineFrames : ((port2 .detect .run).port 2).stage ≠ .active
    ∧ (let q := (port2 .active .run).port 2
       q.stage = .active ∧ q.nakSent = false ∧ q.sinceAck < 7 ∧ q.inj.ackDrop = false ∧ q.txq = [] ∧ (parseFrame []).hdrOk = false
       ∧ (∀ n ∈ [0, 1, 4095], (parseFrame (llBytes n)).hdrOk = true ∧ (parseFrame (llBytes n)).crcOk = true ∧ (parseFrame (llBytes n)).seq = n)
       ∧ q.rxSeq = 0 ∧ (1 + 4096 - q.rxSeq) % 4096 < 2048 ∧ 2048 ≤ (4095 + 4096 - q.rxSeq) % 4096 ∧ (parseFrame (llBytes 0)).frame.ll = true ∧ vlFits (parseFrame (llBytes 0)).frame = true
       ∧ (port2 .active .run).portFilters 2 (parseFrame (llBytes 0)).frame = false)
    ∧ readBlock (0 : BitVec 64).toNat = some (List.replicate 8 0) ∧ (readBlock (1 : BitVec 64).toNat).isNone = true
    ∧ (readBlock (blkOf 0x4B (leBytes 2 5)).toNat).any (fun c => byteAt c 0 == 0x4B) = true
    ∧ (readBlock (blkOf 0x55 (leBytes 2 5)).toNat).any (fun c => byteAt c 0 == 0x55 && leAt c 1 2 % 4096 == kept.seq) = true
    ∧ (readBlock (blkOf 0x66 (leBytes 1 3)).toNat).any (fun c => byteAt c 0 == 0x66 && decide (byteAt c 1 < 4)) = true
    ∧ (((port2 .active .run).modPort 2 fun q => { q with replay := [kept] }).port 2).replay = [kept] ∧ kept.stomped = false ∧ kept.replays < 4 := by decide +kernel

theorem witness_SpineFrames_credit : ((port2 .active .run).port 2).txLane < (logicalLanes ((port2 .active .run).port 2)).length ∧ aligned ((port2 .detect .run).port 2) = false
    ∧ aligned ((port2 .active .run).port 2) = true ∧ (let s := (port2 .active .run).modPort 2 fun q => { q with replay := [kept] }; (s.port 2).replay = [kept] ∧ (s.port 2).stage = .active) := by
  decide +kernel

/-- A DISC of root 7, sequence 0, that has come so many hops. -/
def discFr (hops : Nat) : Frame := fr FT.DISC (leBytes 2 7 ++ leBytes 2 0 ++ leBytes 1 hops)

/-- A request for 16 bytes at DRAM address 0, and one for an address that is nothing's. -/
def dramRd : Frame := fr FT.RD_REQ (leBytes 8 0x1000000000 ++ leBytes 2 16)

theorem witness_SpineEndpoint_turn : (let s : State := { atDev .run with spn := { inbox := [(1, rdReq 4)] } }
      s.reqBehind 2 (rdReq 8) = true ∧ (2, rdReq 8) ∉ s.spn.inbox ∧ s.reqBehind 1 (rdReq 4) = false) ∧ (atDev .run).reqBehind 4 (rdReq 4) = false
    ∧ targetOf (leAt (txnBody dramRd) 0 8) = .dram 0 ∧ leAt (txnBody dramRd) 8 2 = 16 ∧ windowFits 0 16 = true ∧ targetOf (leAt (txnBody (fr FT.WR_POST (leBytes 12 0x3000000000))) 0 8) = .none
    ∧ (let s := put ((atDev .run).modSc 0 fun q => { q with st := .active }) F.MEM_TEST_BYPASS 1; ((s.begun.consume 4 dramRd).dramRead 0 16 4 5).1.isSome = true) := by decide +kernel

/-- The roots that are known. -/
def rootDev (r0 r1 : Option Nat) : State :=
  let one (s : State) (k : Nat) (r : Option Nat) : State := match r with | some n => put (put s (F.SPN_ROOT_VALID k) 1) (F.SPN_ROOT_NODE k) n | none => s
  one (one (atDev .run) 0 r0) 1 r1

theorem witness_SpineEndpoint : ((atDev .run).dev ≠ .off ∧ (atDev .run).dev ≠ .reset ∧ (atDev .run).err.inj = none ∧ (atDev .run).spn.inbox = [])
    ∧ (targetOf (leAt (txnBody (rdReq 4)) 0 8) = .regs 0 ∧ (rdReq 4).vl = 1 ∧ leAt (txnBody (rdReq 4)) 8 2 = 4 ∧ ((atDev .run).begun.busRead (.spine 5) 0).1 = .ok)
    ∧ ((txnBody (fr FT.WR_POST (leBytes 12 0))).drop 8).length = 4
    ∧ (((rdReq 4).tag, (rdReq 4).gen) ∈ ({ atDev .run with spn := { tags := [(0, 0)] } } : State).spn.tags) ∧ ((rdReq 4).tag, (rdReq 4).gen) ∉ (atDev .run).spn.tags
    ∧ (atDev .run).spn.attest = none ∧ (({ atDev .run with spn := { attest := some (2, rdReq 4) } } : State).spn.attest = some (2, rdReq 4))
    ∧ ((rootDev (some 7) none).gb (F.SPN_ROOT_VALID 0) = true ∧ (rootDev (some 7) none).g (F.SPN_ROOT_NODE 0) = leAt (discFr 0).payload 0 2
      ∧ leAt (discFr 0).payload 2 2 = spGet 0 (rootDev (some 7) none).spn.rootSeq 0 ∧ (rootDev (some 7) none).g (F.SPN_ROOT_HOPS 0) ≤ byteAt (discFr 0).payload 4 + 1)
    ∧ ((rootDev (some 1) (some 2)).gb (F.SPN_ROOT_VALID 0) = true ∧ (rootDev (some 1) (some 2)).gb (F.SPN_ROOT_VALID 1) = true
      ∧ (rootDev (some 1) (some 2)).g (F.SPN_ROOT_NODE 0) ≠ 7 ∧ (rootDev (some 1) (some 2)).g (F.SPN_ROOT_NODE 1) ≠ 7 ∧ leAt (discFr 0).payload 0 2 = 7)
    ∧ (let s := put ((atDev .run).setReg 0x181004 7) F.SPN_CTL_ROOT 1; s.gb F.SPN_CTL_ROOT = true ∧ leAt (discFr 0).payload 0 2 = s.ownNode)
    ∧ (let s := put (put (rootDev none none) F.SPN_CTL_ROOT 0) F.SPN_CTL_DISCFWD 0
       s.gb (F.SPN_ROOT_VALID 0) = false ∧ s.gb (F.SPN_ROOT_VALID 1) = false ∧ byteAt (discFr 15).payload 4 < 16 ∧ s.gb F.SPN_CTL_ROOT = false ∧ s.gb F.SPN_CTL_DISCFWD = false) := by
  decide +kernel

/-- The check of an all-zero unique or neighbour ID. -/
def idCheck : BitVec 16 := BitVec.ofNat 16 (crc32c (List.replicate 16 0))

theorem witness_SpinePortCommands : ((atDev .standby).dev ≠ .off ∧ (atDev .standby).dev ≠ .reset ∧ (atDev .standby).err.inj = none)
    ∧ (put (atDev .run) F.SPN_CTL_ROOT 0).gb F.SPN_CTL_ROOT = false ∧ ((put (atDev .run) F.SPN_CTL_ROOT 1).gb F.SPN_CTL_ROOT = true ∧ (put (atDev .run) F.SPN_CTL_ROOT 1).upPorts = [])
    ∧ (atDev .run).dev ≠ .quarantine ∧ idCheck.toNat = crc32c (slice (atDev .quarantine).fuses.uid 0 16) % 65536 ∧ (idCheck + 1).toNat ≠ crc32c ((atDev .run).nbrId 2) % 65536
    ∧ (let s := (atDev .run).modPort 2 fun q => { q with mgmtOnly := true }; (s.port 2).mgmtOnly = true ∧ idCheck.toNat = crc32c (s.nbrId 2) % 65536)
    ∧ ((atDev .run).port 2).mgmtOnly = false ∧ ((some 2 : Option (Fin 4)) = some 2) ∧ ((none : Option (Fin 4)) ≠ some 2)
    ∧ (∀ st ∈ [PStage.active, .test, .retired], ((port2 st .standby).port 2).stage = st ∧ ((port2 st .standby).port 2).txq = [] ∧ (port2 st .standby).dev = .standby)
    ∧ ((put (atDev .standby) (F.SPN_PCTL_EN 2) 1).gb (F.SPN_PCTL_EN 2) = true) ∧ ((atDev .run).dev ≠ .standby ∧ (atDev .run).dev ≠ .hold) ∧ aligned ((port2 .active .run).port 2) = true
    ∧ ((put (port2 .active .run) (F.SPN_RETCFG_RECMAX 2) 0).g (F.SPN_RETCFG_RECMAX 2) = 0 ∧ ((port2 .active .run).port 2).laneRet ≠ 15)
    ∧ (let s := (put (put (port2 .test .standby) (F.SPN_PRBS_GENEN 2) 1) (F.SPN_PRBS_CHKEN 2) 1).modPort 2 fun q => { q with lanesAct := 1 }
       (s.port 2).stage = .test ∧ s.gb (F.SPN_PRBS_GENEN 2) = true ∧ s.gb (F.SPN_PRBS_CHKEN 2) = true ∧ (s.port 2).lanesAct = 1 ∧ bitOf (s.port 2).lanesAct 0 = true ∧ (s.port 2).injBits = []) := by
  decide +kernel

theorem witness_SpinePortCommands_parts : (∀ v ∈ [0, 1], let s := (put (put (port2 .test .standby) (F.SPN_PRBS_GENEN 2) v) (F.SPN_PRBS_CHKEN 2) (1 - v))
      (s.port 2).stage = .test ∧ s.gb (F.SPN_PRBS_GENEN 2) = (v == 1) ∧ s.gb (F.SPN_PRBS_CHKEN 2) = (v == 0) ∧ bitOf (s.port 2).lanesAct 3 = true)
    ∧ ((port2 .active .run).port 2).stage ≠ .test ∧ ((port2 .active .run).port 2).loop = false := by decide +kernel

/-! ### Messaging -/

/-- Channel 63 owned by node 5, pending or accepted, its message of a length for the supervisor. -/
def chanDev (pend acc len : Nat) : State :=
  (put (put (put (put (put (atDev .run) (F.MBX_CH_OWNER_VALID 63) 1) (F.MBX_CH_OWNER_NODE 63) 5) (F.MBX_CH_STS_PENDING 63) pend) (F.MBX_CH_STS_ACCEPTED 63) acc) (F.MBX_CH_CTL_LEN 63) len).setReg
    0x1C2F80 (2 ^ 24)

theorem witness_MailboxesAndRings : ((atDev .run).dev ≠ .off ∧ (atDev .run).dev ≠ .reset ∧ (atDev .run).err.inj = none)
    ∧ ((chanDev 0 0 8).isOwner 63 (.spine 6) = false ∧ (chanDev 1 0 8).chPending 63 = true ∧ (chanDev 0 1 8).chAccepted 63 = true)
    ∧ ((chanDev 0 0 8).isOwner 63 (.spine 5) = true ∧ (chanDev 0 0 8).chPending 63 = false ∧ (chanDev 0 0 8).chAccepted 63 = false)
    ∧ (∀ l ∈ [8, 16], 8 ≤ (chanDev 0 0 l).g (F.MBX_CH_CTL_LEN 63) ∧ (chanDev 0 0 l).g (F.MBX_CH_CTL_LEN 63) ≤ 16 ∧ (chanDev 0 0 l).msgClass 63 = 1)
    ∧ ((chanDev 1 0 8).isOwner 63 (.spine 5) = true ∧ (chanDev 0 1 8).isOwner 63 (.spine 5) = true ∧ (chanDev 0 1 8).chPending 63 = false)
    ∧ ((atDev .run).gb (F.MBX_CH_OWNER_VALID 63) = false ∧ bitsOf (BitVec.ofNat 32 (65536 + 6)).toNat 15 0 = (6 : BitVec 16).toNat ∧ bitOf (BitVec.ofNat 32 (65536 + 6)).toNat 16 = true)
    ∧ (chanDev 0 0 8).gb (F.MBX_CH_OWNER_VALID 63) = true
    ∧ ((atDev .standby).dev = .standby ∧ (atDev .standby).member = false ∧ (atDev .standby).sram.flips = [] ∧ bitOf ((atDev .standby).reg (0x1C4008 + 0x20 * 127)) 31 = false
      ∧ bitOf (BitVec.ofNat 32 (2 ^ 31)).toNat 31 = true)
    ∧ (let s := put (put (put (atDev .run) (F.MBX_RG_HEAD_INDEX 127) 3) (F.MBX_RG_CFG_EN 127) 1) (F.MBX_RG_CFG_SIZELG 127) 4
       let d (x : Nat) : Nat := (x + 2 ^ 32 - s.g (F.MBX_RG_TAIL_INDEX 127)) % 2 ^ 32
       d 3 ≤ d (s.g (F.MBX_RG_HEAD_INDEX 127)) ∧ d (s.g (F.MBX_RG_HEAD_INDEX 127)) < d 4 ∧ s.gb (F.MBX_RG_CFG_EN 127) = true ∧ d (s.g (F.MBX_RG_HEAD_INDEX 127)) < s.ringSize 127)
    ∧ ((atDev .run).mbx.postq = [] ∧ (({ atDev .run with mbx := { postq := [⟨127, 1, 0, 0, 0, []⟩] } } : State).mbx.postq = [⟨127, 1, 0, 0, 0, []⟩] ∧ 127 < 128))
    ∧ (127 ∈ ({ atDev .run with mbx := { notify := [127, 256] } } : State).mbx.notify ∧ 256 ∈ ({ atDev .run with mbx := { notify := [127, 256] } } : State).mbx.notify ∧ 127 ∉ (atDev .run).mbx.notify
      ∧ ({ atDev .run with mbx := { notify := [127, 256] } } : State).notifyDue 127 = true ∧ ({ atDev .run with mbx := { notify := [127, 256] } } : State).notifyDue 256 = true
      ∧ ({ atDev .run with mbx := { notify := [127], notifyAt := [(127, some 0)] } } : State).notifyDue 127 = false
      ∧ spGet none ({ atDev .run with mbx := { notify := [127], notifyAt := [(127, some 0)] } } : State).mbx.notifyAt 127 = some 0)
    ∧ (∀ pages ∈ [0, 1], let s := put ((atDev .run).modUp 3 fun x => { x with waiting := [⟨[1], 0, 1, 0⟩] }) (F.MBX_UP_SIZE_PAGES 3) pages
       (s.up 3).waiting = [⟨[1], 0, 1, 0⟩] ∧ (s.up 3).run = none ∧ s.g (F.MBX_UP_SIZE_PAGES 3) = pages
         ∧ (uploadBound [(1 : Byte)].length ≤ pages * 4096 ↔ pages = 1)
         ∧ (s.g (F.MBX_UP_WPTR_BYTES 3) + 2 ^ 32 - s.g (F.MBX_UP_TAIL_BYTES 3)) % 2 ^ 32 = 0)
    ∧ (((atDev .run).modUp 3 fun x => { x with run := some ⟨⟨[1], 0, 1, 0⟩, 0, 7, 0⟩ }).up 3).run = some ⟨⟨[1], 0, 1, 0⟩, 0, 7, 0⟩ := by decide +kernel

/-- A ring whose descriptor's write is accepted. -/
def ringDev : State :=
  { put (put ((atDev .run).modSc 0 fun q => { q with st := .active }) (F.MBX_RG_CFG_EN 127) 1) (F.MBX_RG_CFG_SIZELG 127) 4 with mbx := { postq := [⟨127, 1, 0, 0, 0, []⟩] } }

theorem witness_MailboxesAndRings_write : ringDev.memOk (ringDev.descAddr 127 0) = true ∧ 0 < ringDev.ringSize 127 := by decide +kernel

/-- R450 and R18: in RESET CTRIG and LSTB are high-impedance and HRB is low; EXTEST drives them from the boundary cells. -/
theorem test_output_balls : (atDev .reset).ctrigBall 3 = .z ∧ (atDev .reset).lstbBall 0 = .z ∧ (atDev .reset).hrbBall = .low ∧ (atDev .off).hrbBall = .z
    ∧ ({ atDev .reset with jtag := { hold := true, instr := 0, cells := 2 ^ 36 } } : State).ctrigBall 3 = .high
    ∧ ({ atDev .reset with jtag := { hold := true, instr := 0, cells := 2 ^ 36 } } : State).lstbBall 0 = .low := by decide +kernel

theorem witness_LocksAndAttention : (atDev .run).lock 255 = none ∧ ({ atDev .run with mbx := { locks := [(255, some .jtag)] } } : State).lock 255 = some .jtag
    ∧ ({ atDev .run with mbx := { locks := [(255, some .jtag)] } } : State).lock 255 ≠ some .internal ∧ (∀ j < 256, (atDev .run).lock j = none) := by decide +kernel

theorem witness_conditions_of_every_command : (atDev .run).dev ≠ .off ∧ (atDev .run).dev ≠ .reset := by decide +kernel


/-! ## The spec's own numbers -/

/-- The ASCII string of the check values. -/
def digits9 : Bytes := [0x31, 0x32, 0x33, 0x34, 0x35, 0x36, 0x37, 0x38, 0x39]

/-- The check values the spec gives over "123456789" (R38, the Thread Link and Spine chapters' CRCs). -/
theorem test_crc_checks : crc32c digits9 = 0xE3069283 ∧ hdrCrc digits9 = 0x29B1 ∧ crc8 digits9 = 0xF4 := by decide +kernel

/-- Example of R37: the 28 header bytes of a quire of context 54. -/
theorem test_quire_header : let h := parseQHdr [0x51, 0x4B, 0x01, 0x36, 0x1C, 0x0A, 0, 0, 0xA8, 0x02, 0, 0, 0xAA, 0, 3, 0, 0x20, 0x3E, 0, 0, 0, 0, 0, 0, 0, 0, 0, 0]
    h.ctxByte = 54 ∧ h.sig = 2588 ∧ h.first = 680 ∧ h.count = 170 ∧ h.bpn = 3 ∧ h.flags = 0 ∧ h.clen = 15904 ∧ h.count * bLine h.bpn = 65280
      ∧ cdiv (40 + h.clen) 4096 = 4 := by decide +kernel

/-- Example of R40: levels 5, 0 and 7 in three bits each. -/
theorem test_unpack : (unpackLine 3 ([0xC5, 0x01] ++ List.replicate 382 0)).take 4 = [5, 0, 7, 0] := by decide +kernel

/-- Example of R93, R94: module 13's nozzle 20 of rank 2 is dead, and module 12's nozzle 1,012 takes its level over. -/
theorem test_takeover : let s := ((put (atDev .run) (F.GTH_SEAM_OVL 12) 32).setWin (nzAddr 13 (2048 + 20)) (4 * 2 ^ 29))
    let l : Levels := [(50, some (List.replicate 1024 0)), (54, some ((List.replicate 1024 0).set 20 4))]
    let (t, n) := s.stitchAt l 12 2 20 3
    n = 1 ∧ lvAt t 50 1012 = 4 ∧ lvAt t 54 20 = 0 := by decide +kernel

/-- Example of R95 to R97: nozzle 603 of module 9 is open, weight set 2, level 6; the dither entries of the four receivers. -/
def tipDev : State :=
  let s := put (put (atDev .run) (F.GTH_MODCFG_LAYOUT 9) 1) F.GTH_CTL_TIPEN 1
  let s := put (put (put (put s (F.GTH_SUBWT_WM2 2) 1) (F.GTH_SUBWT_WM1 2) 4) (F.GTH_SUBWT_WP1 2) 4) (F.GTH_SUBWT_WP2 2) 1
  let dt (s : State) (a b v : Nat) : State := let o := (64 * a + b) * 2; s.setWin (0x502000 + o / 4 * 4) (putBits (s.winWord (0x502000 + o / 4 * 4)) (8 * (o % 4) + 15) (8 * (o % 4)) v)
  let s := dt (dt (dt (dt s 57 25 211) 57 26 57) 57 28 333) 57 29 64
  s.setWin (nzAddr 9 (1024 + 301)) (2 * 2 ^ 29 + 2 * 2 ^ 25)

theorem test_tipping_in : let l : Levels := [(36, some (List.replicate 1024 0)), (37, some ((List.replicate 1024 0).set 301 6))]
    [601, 602, 604, 605].map (fun j => tipDev.tipInto l 9 0 j 57) = [1, 3, 3, 0] := by decide +kernel

theorem test_trim_levels : trimLevel 4 (-6) 390 = 3 ∧ trimLevel 7 3 0 = 7 ∧ trimLevel 5 8 17 = 6 ∧ trimLevel 0 0 0 = 0 := by decide +kernel

/-- Example of R90, R91: a swath's pixel designated to band 2, whose nozzle is flagged, goes to band 3; band 2 itself prints nothing. -/
theorem test_pass_substitution : passTarget (fun b => b == 2) 4 1 2 4 2 = (3, false) ∧ passTarget (fun _ => true) 4 1 2 4 2 = (2, true) := by decide +kernel

/-- Example of R107 to R110: nozzle 437 of rank 1 of module 22, level 6, index 110,230. -/
def energyDev : State :=
  let s := (put (atDev .run) F.FIR_CTL_HISTEN 1).p (F.FIR_MODCFG_RTYPE 22) 4
  let s := (s.setWin (nzAddr 22 1461) (14 * 2 ^ 14)).setWin (0x480000 + 0x1D748) 0x0B000000
  { s with gth := { s.gth with hist := [(22, [5, 7, 0, 3].map fun v => List.replicate 1461 0 ++ [v])] } }

theorem test_energy_index : energyDev.histCode 22 1461 = 46 ∧ energyDev.energyIdx 22 1461 9 6 = 11 := by decide +kernel

/-- Example of R102: the place of nozzle 437 of rank 1 in bundle 5. Positions 0 and 1 of that bundle at 0x6B: seven bits each, the first lowest (R173). -/
theorem test_bundle : bundleQ 5 91 = 1461 ∧ 7 * 91 = 637 ∧ slice (bundleBytes 0 5 ((List.replicate 22 0).set 5 0x6B |>.set 21 0x6B)) 0 3 = [0xEB, 0x35, 0] := by decide +kernel

/-- Example of R136: a start at P_s = 1,000,000 with DLY 1,000, LEAD 2 and a pitch of 250.5 counts. -/
theorem test_start : let s := put (put (put (atDev .run) F.GTH_CFG_LEAD 2) F.POS_SIGCFG_DLY 1000) F.POS_PITCH_COUNTS 0x00FA8000
    ((s.startAt 1000000).pos.cur.map fun g => (g.b0, g.next, g.pitch)) = some (1001000 * 65536, -2, 0xFA8000) := by decide +kernel

/-- Example of R291: 16 GiB a subchannel, 64 GiB in all, and the subchannel of an address. -/
theorem test_dram_address : cfgScGiB 0x00420001 = 16 ∧ cfgScGiB 0x00420011 = 8 ∧ cfgScGiB 0x00420111 = 16 ∧ cfgScOf 0x00420001 0x32C41A040 = 2 := by decide +kernel

/-- Example of R255: δ' = -0.03730 with GAIN 8 moves a target of -6 to +1; CONF of 4,096 samples is 7. -/
theorem test_publication : ((put ((atDev .run).setWin (nzAddr 9 1324) (122 * 2 ^ 18)) F.CAL_PUBCFG_OUTLIM 63).pubNozzle 9 1324 (-625790)).target = 1 ∧ confOf 4096 = 7 := by
  decide +kernel

/-- IDCODE of the first stepping, and two codes of the table of codes. -/
theorem test_identity : ({ atDev .run with fuses := { major := 1 } } : State).idcode = 0x1723266B ∧ E.GTH_LATE.code = 0x10C1 ∧ E.MEM_UE.code = 0x3302 := by decide +kernel

/-- Example of R439: GLB_ATTN reads 0x2000_0081, lane 5 retired with a context of module 5 enabled; 0x2000_0081 written clears the latched bits alone. -/
def attnDev : State := ((put ((atDev .standby).modLane 5 fun x => { x with stage := .retired }) (F.QRE_CTXEN_EN 0) (2 ^ 20)).latch 0).latch 29

theorem test_attn_clear : attnDev.attn = 0x20000081 ∧ nextIs (exec (.glbAttnClear (.spine 1) 0x20000081) attnDev) (fun t => t.attn == 0x80) = true := by decide +kernel

/-! ## Single commands -/

theorem test_scratch : nextIs (exec (.registerWrite (.spine 1) 0x28 0xDEADBEEF) (atDev .run)) (fun t => t.reg 0x28 == 0xDEADBEEF) = true := by decide +kernel

/-- R6: a write at an address that is not a multiple of 4 changes nothing. -/
theorem test_unaligned_write : nextIs (exec (.registerWrite (.spine 1) 0x2A 0xDEADBEEF) (atDev .run)) (fun t => t.reg 0x28 == 0) = true := by decide +kernel

/-- R126: FILT + 1 samples at the new level are an edge, one sample fewer is none; A rising while B is low counts up. -/
theorem test_encoder_edge : let s := put ((encDev 0).modEnc 0 fun x => { x with lastEdge := none }) (F.POS_ENCCFG_FILT 0) 3
    nextIs (exec (.encoderEdge 0 ⟨true, 4⟩ ⟨false, 255⟩ 0) s) (fun t => (t.enc 0).count == 1) = true
      ∧ nextIs (exec (.encoderEdge 0 ⟨true, 3⟩ ⟨false, 255⟩ 0) s) (fun t => (t.enc 0).count == 0) = true := by decide +kernel

/-- R373: the first reader of a free lock holds it; only its holder's write releases it. -/
theorem test_locks : nextIs (exec (.lockRead (.spine 7) 9) (atDev .run)) (fun t => t.lock 9 == some (.spine 7)
    && nextIs (exec (.lockWrite (.spine 8) 9 0) t) (fun u => u.lock 9 == some (.spine 7)) && nextIs (exec (.lockWrite (.spine 7) 9 0) t) (fun u => (u.lock 9).isNone)) = true := by
  decide +kernel

/-- R292: an access at or beyond the populated capacity is answered with an error and changes no queue. -/
theorem test_dram_beyond : nextIs (exec (.dramRequest 0 0x1000000000 true [1] 0 0) (memDev .run [] [])) (fun t => (t.sc 0).wq.isEmpty && !t.out.isEmpty) = true := by decide +kernel

/-- RESTORE outside STANDBY: the lane stays RETIRED and THL_CMD is recorded (R195). -/
theorem test_thl_restore_in_run : nextIs (exec (.thlRestore (.spine 1) 3) (lane3 .retired .run)) (fun t => (t.lane 3).stage == .retired && firstCode t == 0x61C6) = true := by decide +kernel

/-- R18, R449: with PWRGOOD the device is in RESET; with its fall it is off. -/
theorem test_power : nextIs (exec .pwrgoodRise (atDev .off)) (fun t => t.dev == .reset) = true ∧ nextIs (exec .pwrgoodFall (atDev .run)) (fun t => t.dev == .off) = true := by
  decide +kernel

/-! ## Further witnesses, and the boundary values of clauses -/

theorem witness_DeviceRows : let s := put ({ atDev .run with pending := [Instr.memPass .jtag] }) F.MEM_CTL_RETEN 1
    s.pending = [Instr.memPass .jtag] ∧ nextIs (step s) (fun t => t.dev == .run) = true
      ∧ nextIs (step { atDev .off with pending := [.pwrgoodRise] }) (fun t => t.dev == .reset) = true
      ∧ nextIs (step { atDev .run with pending := [.pwrgoodFall] }) (fun t => t.dev == .off) = true := by decide +kernel

theorem witness_StepKeepsWf : let s := { put (atDev .run) F.GTH_CFG_LEAD 5 with pending := [Instr.registerWrite (.spine 1) 0x28 1] }
    s.wf = true ∧ s.regs ≠ [] ∧ nextIs (step s) (fun t => t.wf) = true := by decide +kernel

theorem witness_StepKeepsFenRule : let s := { atDev .quarantine with pending := [Instr.refclk0Loss] }
    s.jtag.hold = false ∧ noPulse s.dev = true ∧ (∀ k < 32, (s.fen k).high = false) ∧ s.dev ≠ .run ∧ s.dev ≠ .off ∧ s.dev ≠ .reset
      ∧ nextIs (step s) (fun t => t.dev == .quarantine && t.fir.clkLost) = true := by decide +kernel

theorem witness_AfterQuiet_more : (atDev .standby).mbx.attnSeen = 0 ∧ maskIn (atDev .standby).attn (atDev .standby).mbx.attnSeen 0 = 0 ∧ (atDev .hold).running = true
    ∧ (atDev .standby).fol.joinW = [] ∧ (atDev .standby).fol.regs = [] ∧ (atDev .standby).standby = (atDev .standby).standby
    ∧ (∀ t, (atDev .standby).hrbFell = some t → t + 1000 ≤ (atDev .standby).ns) := by
  refine ⟨by decide, by decide, by decide, by decide, by decide, rfl, ?_⟩
  intro t h; simp [atDev, State.reset] at h

theorem witness_SubchannelSteps_filled : (let s := (atDev .train).modSc 3 fun q => { q with st := .filling }
      (s.sc 3).st = .filling ∧ ((s.begun.refillSc 3).fillInj 3 |>.sc 3).st = .filling)
    ∧ (let s := put (put ((atDev .train).modSc 3 fun q => { q with st := .filling, injCrc := true, retries := [0] }) F.MEM_RETCFG_THR 1) F.MEM_CTL_RETEN 1
       (s.sc 3).st = .filling ∧ ((s.begun.refillSc 3).fillInj 3 |>.sc 3).st ≠ .filling) := by decide +kernel

theorem witness_FlashAndTemperature_xfer : (∀ d ∈ [Dev.standby, .run, .hold, .fault], d = .standby ∨ d = .run ∨ d = .hold ∨ d = .fault)
    ∧ ∀ w ∈ [true, false], ({ atDev .run with clo := { xfer := some (w, 256) } } : State).clo.xfer = some (w, 256) ∧ (atDev .run).clo.xfer = none ∧ 4 * 63 + 4 ≤ 256
      ∧ 4 * 63 + 4 ≤ (List.replicate 256 (0 : Byte)).length := by decide +kernel

theorem witness_UnalignedAccess_taken : (atDev .run).refuses 2 (rdReq 8) = false ∧ (atDev .run).reqBehind 2 (rdReq 8) = false := by decide +kernel

theorem witness_ActiveCopies : (atDev .run).copies 0x30000 = true ∧ (atDev .hold).copies 0x30000 = false ∧ (atDev .run).member = false ∧ (atDev .run).dev ≠ .standby
    ∧ (atDev .standby).dev = .standby ∧ (atDev .run).fol.regs = [] ∧ (folio .hold false).copies 0x30000 = true ∧ (folio .hold false).copies 0x50200 = true := by decide +kernel

theorem witness_TableWindows : (atDev .run).sram.flips = [] ∧ (atDev .run).err.inj = none
    ∧ (∀ a ∈ [0x600000, 0x67FFFC, 0x800000, 0xAFFFFC], (windowOf a).any (fun x => !x.2.2) = true ∧ a % 4 = 0)
    ∧ (∀ a ∈ [0x480000, 0x4BFFFC, 0x4C0000, 0x540000, 0x55FFFC, 0x580000, 0x5BFFFC], (windowOf a).any (fun x => x.2.2 && x.1 != 0x400000) = true ∧ a % 4 = 0)
    ∧ (windowOf 0x5BFFFC).any (fun x => x.1 == 0x580000) = true ∧ (windowOf 0x47FFFC).any (fun x => x.1 == 0x400000) = true
    ∧ (atDev .run).dev ≠ .standby ∧ (Src.jtag : Src) ≠ .loader ∧ (folio .run true).running = true ∧ (folio .run true).standby = true := by decide +kernel

theorem witness_SramScrubber_replay : (∀ a : Fin 11, a.val ∉ [5, 6, 9] ∨ a.val = 5 ∨ a.val = 6 ∨ a.val = 9)
    ∧ (let s := (atDev .run).modPort 2 fun q => { q with stage := .active }
       (s.port (5000 / 2048)).stage ≠ .disabled ∧ (s.port (5000 / 2048)).stage ≠ .retired ∧ (s.port (5000 / 2048)).replay = [] ∧ (s.port (5000 / 2048)).txq = []) := by decide +kernel

theorem witness_RecordEvent_joins : let e : Ev := { c := E.MEM_UE, handles := true }
    let s : State := { atDev .run with err := { joins := [(e.c.code :: e.inst :: e.key, none)] } }
    (∃ x ∈ s.err.joins, e.handles = true ∧ x.1 = e.c.code :: e.inst :: e.key) ∧ ¬ (∃ x ∈ (atDev .run).err.joins, e.handles = true ∧ x.1 = e.c.code :: e.inst :: e.key) := by
  decide +kernel

theorem witness_SupervisorRound_quiet : maskIn machine9.attn machine9.mbx.attnSeen 0 = 0 ∧ (machine9.dev = .standby ∨ machine9.dev = .run) := by decide +kernel

/-- A device in STANDBY in which every RUN check passes: no re-sends, ring 0 enabled, DRAM filled, quires of the least size. -/
def passDev : State := put (put (put (put (put (atDev .standby) F.QRE_RSCFG_MAX 0) (F.MBX_RG_CFG_EN 0) 1) (F.MBX_RG_CFG_SIZELG 0) 4) F.MEM_STS_FILLED 1) F.QRE_CFG_QMAXKIB 0

theorem witness_DeviceActions_run : passDev.dev = .standby ∧ passDev.member = false ∧ passDev.derive.runFails = [] ∧ (atDev .standby).derive.runFails ≠ [] ∧ (atDev .standby).member = false := by
  decide +kernel

theorem witness_DeviceActions_more : (∀ d ∈ [Dev.run, .hold, .fault], (atDev d).dev = d ∧ (atDev d).gb F.CLO_STS_RECOVERY = false ∧ (atDev d).member = false)
    ∧ (∀ d ∈ [Dev.standby, .run, .hold, .fault], (folio d false).member = true ∧ (folio d false).dev = d) ∧ (atDev .fault).dev ≠ .standby ∧ (atDev .fault).dev ≠ .hold := by decide +kernel

theorem witness_QuireIngress_refused : (put qDev (F.SPN_PCTL_MGMT 3) 1).refuses 3 qFrame = true ∧ qDev.refuses 4 qFrame = false ∧ qDev.gth.cur = none
    ∧ (let f := { qFrame with soq := false }; qDev.refuses 4 f = false ∧ qDev.qdTaken = true ∧ f.soq = false ∧ qDev.slotOf f.src = none ∧ (qDev.begun.qdArrive 4 f).qdBehind 4 f = false) := by
  decide +kernel

/-- A grid on ENC0 in RUN: counts of 1 each, the next boundary at count n. -/
def gridDev (scan : Nat) (n : Int) : State :=
  { put (put (atDev .run) F.GLB_CFG_MODE scan) F.POS_VCFG_HYST 2 with pos := { cur := some { sig := 0, b0 := 0, rev := false, pitch := 65536, next := n } } }

theorem witness_EncoderEdges_run : (gridDev 0 1).err.inj = none ∧ (gridDev 0 1).running = true ∧ (gridDev 0 1).pos.old = none ∧ (gridDev 0 1).pos.cur = some { sig := 0, b0 := 0, rev := false, pitch := 65536, next := 1 }
    ∧ (gridDev 0 1).isRev = false ∧ 0 < (gridDev 0 1).dirI * (1 - (gridDev 0 1).pos.x)
    ∧ (let x := gridDev 0 1
       let y := (x.modPos fun z => { z with p := 1 }).stampCount 0
       ((y.modPos fun w => { w with x := 1, exc := false }).p F.POS_STS_BACKERR 0).startDue x.pos.x 1 = none)
    ∧ (gridDev 0 1).dirI * (1 * 65536 - (0 + (gridDev 0 1).dirI * 1 * (65536 : Int))) = 0 ∧ (gridDev 0 2).dirI * (1 * 65536 - (0 + (gridDev 0 2).dirI * 2 * (65536 : Int))) < 0
    ∧ ((gridDev 0 1).scanning = false ∧ ((gridDev 0 1).g F.POS_VCFG_HYST : Int) < -((gridDev 0 1).dirI * (-3 - (gridDev 0 1).pos.x)) ∧ (gridDev 0 1).gb F.POS_STS_BACKERR = false
      ∧ (put (gridDev 0 1) F.POS_STS_BACKERR 1).gb F.POS_STS_BACKERR = true ∧ (put (gridDev 0 1) F.POS_STS_BACKERR 1).isRev = false)
    ∧ ((gridDev 1 1).scanning = true ∧ ((gridDev 1 1).g F.POS_VCFG_HYST : Int) < -((gridDev 1 1).dirI * (-3 - (gridDev 1 1).pos.x)))
    ∧ ((-1 : Int) < 0 ∧ ¬ (∃ t, (gridDev 0 0).pos.lastTrig = some t ∧ tdiff 0 t < (nsU (gridDev 0 0).tcfg : Int)))
    ∧ (let s := put { gridDev 0 0 with pos := { lastTrig := some 0 } } F.POS_LRMAX_HZ 1000; s.pos.lastTrig = some 0 ∧ tdiff 0 0 < (nsU s.tcfg : Int)) := by decide +kernel

theorem witness_EncoderEdges_soon : (∀ t ∈ [nsU 16, nsU 16 - 1], let s := { (encDev 1).modEnc 0 fun x => { x with edgeAt := some 0 } with tb := BitVec.ofNat 64 t }
      (s.enc 0).edgeAt = some 0 ∧ (tdiff (tAdd s.now 0) 0 < (nsU 16 : Int) ↔ t = nsU 16 - 1)) := by decide +kernel

theorem witness_StartEvents_tof : (let s := put (put (atDev .run) F.POS_SIGCFG_SRC 1) F.POS_CTL_SRC 0
      encAccept ⟨true, 16⟩ 15 (spGet false s.pos.tof 1) ≠ spGet false s.pos.tof 1 ∧ encAccept ⟨true, 15⟩ 15 (spGet false s.pos.tof 1) = spGet false s.pos.tof 1 ∧ s.formsStarts = true
        ∧ s.scanning = false ∧ s.g F.POS_SIGCFG_SRC = 1 ∧ encAccept ⟨true, 16⟩ 15 (spGet false s.pos.tof 1) ≠ s.gb F.POS_SIGCFG_TOFPOL ∧ s.g F.POS_CTL_SRC < 2)
    ∧ (atDev .standby).formsStarts = false ∧ (put (atDev .run) F.GLB_CFG_MODE 1).scanning = true ∧ (put (atDev .run) F.GLB_CFG_MODE 1).running = true
    ∧ true = (put (atDev .run) F.POS_SIGCFG_TOFPOL 1).gb F.POS_SIGCFG_TOFPOL := by decide +kernel

/-- The seam of R93's example, its stitch bit for module 13 or for module 12, module 13's nozzle dead or not. -/
def seamDev (dead : Bool) : State := let s := put (atDev .run) (F.GTH_SEAM_OVL 12) 32; if dead then s.setWin (nzAddr 13 (2048 + 20)) (4 * 2 ^ 29) else s

theorem witness_LevelPipeline_seam : let l : Levels := [(50, some (List.replicate 1024 0)), (54, some ((List.replicate 1024 0).set 20 4))]
    spRising none l = true ∧ (20 : Nat) < (seamDev true).g (F.GTH_SEAM_OVL 12) ∧ (seamDev true).g (F.GTH_SEAM_OVL 12) ≤ 1024
      ∧ lv l (4 * 13 + 2) = some ((List.replicate 1024 0).set 20 4) ∧ lv l (4 * 12 + 2) = some (List.replicate 1024 0)
      ∧ (seamDev true).stitchBit 12 20 3 = false ∧ ((List.replicate 1024 0).set 20 4).length = 1024
      ∧ nzDead ((seamDev true).nz 13 (2048 + 20)) = true ∧ nzUsable ((seamDev true).nz 12 (2048 + (1024 - 32 + 20))) = true ∧ nzDead ((seamDev false).nz 13 (2048 + 20)) = false := by
  decide +kernel

theorem witness_LevelPipeline_pass : ∀ pd < 4, pd < 4 ∧ ∀ b ∈ [true, false], ((∀ n < 4, (fun _ : Nat => b) ((pd + n) % 4) = true) ↔ b = true) := by decide +kernel

/-- A device with a dead nozzle of module 9 (group 0, column 603), of layout 1, tipping-in on or off. -/
def tipOne (on : Nat) : State :=
  (put (put (put (put (atDev .run) (F.GTH_MODCFG_LAYOUT 9) 1) F.GTH_CTL_TIPEN on) (F.GTH_SUBWT_WM1 2) 4) (F.GTH_SUBWT_WP1 2) 4).setWin (nzAddr 9 (1024 + 301)) (2 * 2 ^ 29 + 2 * 2 ^ 25)

theorem witness_LevelPipeline_tip : let l : Levels := [(36, some (List.replicate 1024 0)), (37, some ((List.replicate 1024 0).set 301 6))]
    let q := 302 -- rank 0, column 604
    (lv l 36).isSome = true ∧ nzUsable ((tipOne 1).nz 9 q) = true ∧ (tipOne 1).gb F.GTH_CTL_TIPEN = true ∧ (tipOne 0).gb F.GTH_CTL_TIPEN = false ∧ columnOf 1 0 302 = 604
      ∧ nzDead ((tipOne 1).nz 9 (nozzleAt 1 0 603)) = true ∧ (∀ d ∈ [(-2 : Int), -1, 2], nzDead ((tipOne 1).nz 9 (nozzleAt 1 (groupOf 1 0) ((604 : Int) - d).toNat)) = false)
      ∧ (∀ d ∈ [(-2 : Int), -1, 1, 2], nzDead ((tipOne 1).nz 9 (nozzleAt 1 (groupOf 1 0) ((700 : Int) - d).toNat)) = false)
      ∧ nzUsable ((tipOne 1).nz 9 (nozzleAt 1 0 602)) = true ∧ (lv l (4 * 9 + nozzleAt 1 0 602 / 1024)).isSome = true
      ∧ (lv l 38).isNone = true ∧ nzUsable ((tipOne 1).nz 9 1325) = false := by decide +kernel

theorem witness_EnergyAndGovernor : (energyDev.gb F.FIR_CTL_HISTEN = true ∧ energyDev.sramBad 2 (1024 * 22 + 1461 / 4) = false ∧ (put (atDev .run) F.FIR_CTL_HISTEN 0).gb F.FIR_CTL_HISTEN = false)
    ∧ (energyDev.sram.poisoned = [] ∧ ((110230 : Nat) : Int) = 16384 * 6 + 256 * energyDev.histCode 22 1461 + 16 * 9 + (sext 4 (bitsOf (energyDev.nz 22 1461) 17 14) + 8))
    ∧ (atDev .run).throttles 3 = false ∧ (put (atDev .run) F.FIR_TCFG_THRBAND 3).throttles 3 = true ∧ 0 < (atDev .run).g F.FIR_TCFG_THRSCL
    ∧ (let xs : List Noz := [⟨0, 7, 15, 0⟩, ⟨4095, 0, 3, 3⟩]
       (xs.map (·.q)).Nodup ∧ (∀ x ∈ xs, x.q < 4096 ∧ x.lev ≤ 7)) := by decide +kernel

theorem witness_EnergyAndGovernor_kept : let s := put (put (put (atDev .run) F.FIR_GOVSLOT_NJ 65535) F.FIR_GOVLINE_NJ 65535) F.FIR_GOVPWR_MW 65535
    let xs : List Noz := [⟨0, 7, 15, 0⟩]
    (∀ g < 16, sumL ((xs.filter fun x => x.g == g).map fun x => s.nozE x x.idx) ≤ 16 * s.g F.FIR_GOVSLOT_NJ)
      ∧ ((sumL (xs.map fun x => s.nozE x x.idx) : Nat) : Int) ≤ min ((16 * s.g F.FIR_GOVLINE_NJ : Nat) : Int) ((s.wLim 0 : Int) - (sumL ((spGet [] s.gth.win 0).take 255) : Nat)) := by
  decide +kernel

theorem witness_FireAndFall_begun : ((fireDev false).begun.slotsEnd 0 == (fireDev false).begun) = true ∧ (fireDev true).lineK (lineOf true).k = some (lineOf true)
    ∧ ((fireDev true).lane 0).stage ≠ .retired ∧ (((fireDev true).modLane 0 fun x => { x with stage := .retired }).lane 0).stage = .retired
    ∧ (((fireDev true).modLane 0 fun x => { x with stage := .retired }).laneUp 0) = false
    ∧ (let s := (atDev .run).modFen 31 fun x => { x with drive := true, high := true }; (s.fen 31).drive = true ∧ (s.fen 31).stuck = false)
    ∧ ((fireDev true).gth.lines.all fun y => !(y.ml 1).came || (y.ml 1).fen || decide (16 ≤ (y.ml 1).slot)) = true := by decide +kernel

theorem witness_LineDoneAndRamp_first : let x : Line := { lineOf false with mods := [(0, { words := [0] })] }
    let s : State := { fireDev false with gth := { lines := [x] } }
    (s.gth.lines.find? fun x => !(x.ml 0).words.isEmpty && !(x.ml 0).done) = some x ∧ x.ptEntry = none ∧ x.dead = false ∧ s.member = false ∧ s.laneUp 0 = true ∧ (x.ml 0).slot ≠ 16
      ∧ (x.ml 0).came = false ∧ (x.ml 0).bunds = [] ∧ ∀ y ∈ s.gth.lines, y.k = x.k → y = x := by decide +kernel

theorem witness_MapWrites_fwd : (let y : MapW := { m := 31, q := 4095, e := none, src := 2, mask := 0xFFFFFFFF, val := 2 * 2 ^ 29, cond := 3, from' := 0 }
      let s := (mapAll .run).setWin (nzAddr 31 4095) (5 * 2 ^ 29)
      y.cond = 3 ∧ maybeFrom (nzState (s.nz y.m y.q)) (nzState y.val) = false ∧ maybeFrom (nzState ((mapAll .run).nz y.m y.q)) (nzState y.val) = true) := by decide +kernel

theorem witness_MeasureAndDump_start : [(3 : Nat)] ≠ [] ∧ (atDev .run).running = true ∧ (atDev .standby).running = false := by decide +kernel

theorem witness_Uniformity_dump : (∀ v ∈ [0, 1], (put (calDev 0) F.NZH_RPTCFG_AUTODUMP v).gb F.NZH_RPTCFG_AUTODUMP = (v == 1)) ∧ (put (calDev 0) F.NZH_STS_DUMPBUSY 1).gb F.NZH_STS_DUMPBUSY = true
    ∧ (let s := put (put (atDev .hold) F.CAL_CTL_FFAUTO 1) F.CAL_FFCFG_FFPER 1
       s.dev ≠ .fault ∧ s.standby = false ∧ s.gb F.CAL_CTL_FFAUTO = true ∧ s.g F.CAL_FFCFG_FFPER ≠ 0 ∧ (7 : Fin 8).val ∉ s.cal.ff) := by decide +kernel

theorem witness_FolioFrames_refused : (put (folio .run false) (F.SPN_PCTL_MGMT 3) 1).refuses 3 (folB [1]) = true ∧ (folio .run false).refuses 3 (folB [1]) = false
    ∧ (folio .run true).refuses 3 (folB [1]) = false ∧ (folio .quarantine true).refuses 3 (folB [1]) = true := by decide +kernel

theorem witness_PeerAndCommands_standby : ((folio .hold false).running = true ∧ (folio .fault true).running = false ∧ (folio .fault true).dev ≠ .standby ∧ (folio .standby true).dev = .standby)
    ∧ (let s : State := { folio .run true with fol := { chk := some ⟨0, false, 33⟩ } }; s.sram.poisoned = [] ∧ s.sram.flips = [] ∧ s.standby = true)
    ∧ (let s : State := { folio .run true with fol := { chk := some ⟨0, false, 33⟩ }, sram := { poisoned := [(0, 1)] } }; s.sram.poisoned ≠ [] ∧ s.sram.flips = [] ∧ s.standby = true)
    ∧ (∀ g ∈ [true, false], let s := (folio .run false).modPort 3 fun q => { q with stage := .active, mgmtOnly := g }; (s.port 3).stage = .active ∧ (s.port 3).mgmtOnly = g
      ∧ s.gb (F.SPN_PCTL_MGMT 3) = false) := by decide +kernel

theorem witness_DramRequests_quiet : (mreq true).quiet = false ∧ (mreq false).quiet = false ∧ (mreq false).rmw = false ∧ (mreq true).more = []
    ∧ (rsDecode ((mreq false).a / 64) ((memDev .run [mreq false] []).rawCw ((mreq false).a / 64)) == .clean) = true := by decide +kernel

theorem witness_RefreshAndCommands_owed : ∀ k, (memDev .run [] []).owed 3 k = 0 := by
  intro k
  match k with
  | 0 => decide +kernel
  | 1 => decide +kernel
  | n + 2 => rfl

theorem witness_SpineBringUp_found : (let s := (atDev .train).modPort 2 fun q => { q with stage := .recover, phase := .train, lanesAct := 15 }
      (s.port 2).stage = .recover ∧ (s.port 2).phase = .train ∧ ∀ i < 4, bitOf (s.port 2).lanesAct i = true → bitOf (s.port 2).laneRet i = false → bitOf (15 : BitVec 4).toNat i = true)
    ∧ (let s := (atDev .train).modPort 2 fun q => { q with stage := .config, lanesAct := 15, found := 15, locked := 15 }
       (s.port 2).inj.blkLoss = false ∧ chooseWidth ((lanesUp (s.port 2)).filter (bitOf cfgGood.lanes)) (s.g (F.SPN_PCTL_WMAX 2)) cfgGood.widths = some (2, 15) ∧ (s.port 2).waitRetry = false
         ∧ (s.port 2).txq = [] ∧ s.nbrFits 2 (slice cfgGood.uid 0 16) = true) := by decide +kernel

theorem witness_SpineFrames_replay : let s := (port2 .active .run).modPort 2 fun q => { q with replay := [kept] }
    (s.port 2).inj.hcrc = false ∧ (s.port 2).inj.fcrc = false ∧ (s.port 2).replay = [kept] ∧ (s.port 2).stage = .active := by decide +kernel

/-- Every tag outstanding. -/
def tagsFull : State := { atDev .run with spn := { tags := (List.range 1024).map fun t => (t, 0) } }

theorem witness_SpineEndpoint_tags : ((atDev .run).refuses 4 (rdReq 4) = false ∧ (atDev .quarantine).refuses 4 dramRd = true)
    ∧ (∀ k, k < 0 → ∃ g, (k, g) ∈ (atDev .run).spn.tags) ∧ (∀ g, ((0 : Fin 1024).val, g) ∉ (atDev .run).spn.tags) ∧ (atDev .run).spn.waits = []
    ∧ (∃ g, ((0 : Fin 1024).val, g) ∈ ({ atDev .run with spn := { tags := [(0, 0)] } } : State).spn.tags)
    ∧ (({ atDev .run with spn := { waits := [rdReq 4] } } : State).spn.waits = rdReq 4 :: []) := by
  refine ⟨by decide +kernel, by intro k h; omega, by intro g h; simp [atDev, State.reset] at h, rfl, ⟨0, by simp⟩, rfl⟩

theorem witness_SpineEndpoint_full : ∀ k < 1024, ∃ g, (k, g) ∈ tagsFull.spn.tags := fun k h => ⟨0, by simp [tagsFull]; exact h⟩

theorem witness_SpinePortCommands_inj : ((port2 .active .run).port 2).inj.laneErr = 0 ∧ ((port2 .active .run).port 2).inj.blkLoss = false ∧ aligned ((port2 .detect .run).port 2) = false
    ∧ ((port2 .detect .run).port 2).stage ≠ .active ∧ ((port2 .detect .run).port 2).stage ≠ .test := by decide +kernel

theorem witness_LocksAndAttention_seen : maskIn (atDev .run).attn (atDev .run).mbx.attnSeen 0 = 0 := by decide +kernel

end Sys2Proof.Tests
end

section
/-!
SUPPORT. The device state and the lines in flight (`State.lineView`), through everything that follows a command (R362, R377, R378, R409 to R413): a device that
is not in RUN with a line in flight after a command's effect is not so when the command ends, and one that is has its registers below the messaging block
as the effect leaves them. The counterexample of O22 rests on this: no other effect explains what its command leads to.
-/

namespace Sys2Proof.Machine

/-- The device state and the lines in flight. -/
def State.lineView (s : State) : Dev × List Line := (s.dev, s.gth.lines)

theorem lineView_of_core {s t : State} (h : t.core = s.core) : t.lineView = s.lineView := by
  simp only [State.lineView, core_dev h, core_gth h]

theorem lineView_dev {s t : State} (h : t.lineView = s.lineView) : t.dev = s.dev := congrArg Prod.fst h
theorem lineView_lines {s t : State} (h : t.lineView = s.lineView) : t.gth.lines = s.gth.lines := congrArg Prod.snd h

theorem foldl_lineView {α : Type} (f : State → α → State) (h : ∀ s a, (f s a).lineView = s.lineView) (l : List α) (s : State) :
    (l.foldl f s).lineView = s.lineView := by
  induction l generalizing s with
  | nil => rfl
  | cons a l ih => rw [List.foldl_cons, ih, h]

theorem ite_lineView {c : Prop} [Decidable c] {a b s : State} (h1 : a.lineView = s.lineView) (h2 : b.lineView = s.lineView) :
    (if c then a else b).lineView = s.lineView := by
  split
  · exact h1
  · exact h2

/-! ## Basic updates -/

section
variable (s : State)

@[simp] theorem State.setReg_lineView (a v : Nat) : (s.setReg a v).lineView = s.lineView := (rfl)
@[simp] theorem State.setAct_lineView (a v : Nat) : (s.setAct a v).lineView = s.lineView := (rfl)
@[simp] theorem State.p_lineView (f : FR) (v : Nat) : (s.p f v).lineView = s.lineView := (rfl)
@[simp] theorem State.inc_lineView (f : FR) : (s.inc f).lineView = s.lineView := (rfl)
@[simp] theorem State.latch_lineView (b : Nat) : (s.latch b).lineView = s.lineView := (rfl)
@[simp] theorem State.modNzh_lineView (f : NzhSt → NzhSt) : (s.modNzh f).lineView = s.lineView := (rfl)
@[simp] theorem State.modFol_lineView (f : FolSt → FolSt) : (s.modFol f).lineView = s.lineView := (rfl)
@[simp] theorem State.modCal_lineView (f : CalSt → CalSt) : (s.modCal f).lineView = s.lineView := (rfl)
@[simp] theorem State.modPort_lineView (p : Nat) (f : Port → Port) : (s.modPort p f).lineView = s.lineView := (rfl)
@[simp] theorem State.modLane_lineView (m : Nat) (f : Lane → Lane) : (s.modLane m f).lineView = s.lineView := (rfl)
@[simp] theorem State.modCur_lineView (f : CurSig → CurSig) : (s.modCur f).lineView = s.lineView := (rfl)
@[simp] theorem State.fenLow_lineView (m : Nat) : (s.fenLow m).lineView = s.lineView := (rfl)
@[simp] theorem State.askNotify_lineView (n : Nat) : (s.askNotify n).lineView = s.lineView := (rfl)
@[simp] theorem State.upload_lineView (n ring ty tag : Nat) (b : Bytes) : (s.upload n ring ty tag b).lineView = s.lineView := (rfl)
@[simp] theorem State.record_lineView (e : Ev) : (s.record e).lineView = s.lineView := lineView_of_core (s.record_core e)
@[simp] theorem State.sramWrote_lineView (a w : Nat) : (s.sramWrote a w).lineView = s.lineView := lineView_of_core (s.sramWrote_core a w)
@[simp] theorem State.post_lineView (n ty st : Nat) (b : Bytes) : (s.post n ty st b).lineView = s.lineView := lineView_of_core (s.post_core n ty st b)
@[simp] theorem State.post?_lineView (n ty st : Nat) (b : Bytes) : (s.post? n ty st b).1.lineView = s.lineView := s.post_lineView n ty st b

end

/-! ## The nozzle map -/

@[simp] theorem State.setWin_lineView (s : State) (a v : Nat) : (s.setWin a v).lineView = s.lineView := by
  unfold State.setWin State.addrWrote
  split
  · rw [State.sramWrote_lineView]; rfl
  · rfl

@[simp] theorem State.clusterTest_lineView (s : State) (m q : Nat) : (s.clusterTest m q).lineView = s.lineView := by
  unfold State.clusterTest
  dsimp only
  split
  · exact ite_lineView rfl (by simp)
  · rfl

@[simp] theorem State.applyMap_lineView (s : State) (w : MapW) : (s.applyMap w).lineView = s.lineView := by
  unfold State.applyMap
  extract_lets old new before s1 after s2 s3 sev code s4 s5 thr s6
  have h2 : s2.lineView = s.lineView := (State.setWin_lineView s (nzAddr w.m w.q) new :)
  have h4 : s4.lineView = s.lineView := ((State.record_lineView _ _).trans (State.inc_lineView _ _)).trans h2
  have h5 : s5.lineView = s.lineView := by
    show State.lineView (if w.src = 1 then s2 else _) = _
    refine ite_lineView h2 ?_
    split
    rename_i t lost ht
    have ht' : t.lineView = s4.lineView := by rw [← State.post?_lineView s4, ht]
    exact (ite_lineView (State.inc_lineView _ _) rfl).trans ((State.modNzh_lineView _ _).trans (ht'.trans h4))
  have h6 : s6.lineView = s.lineView := (ite_lineView (State.latch_lineView _ _) rfl).trans h5
  exact ite_lineView (State.inc_lineView _ _) (ite_lineView h2 ((State.clusterTest_lineView _ _ _).trans h6))

@[simp] theorem State.dumpUpload_lineView (s : State) : s.dumpUpload.lineView = s.lineView := by
  unfold State.dumpUpload
  split
  · rw [State.upload_lineView, State.modNzh_lineView]
  · rfl

@[simp] theorem State.dumpCopy_lineView (s : State) (m : Nat) : (s.dumpCopy m).lineView = s.lineView := by
  unfold State.dumpCopy
  dsimp only
  split
  · exact ite_lineView (ite_lineView (by simp) (by simp)) rfl
  · rfl

@[simp] theorem State.mapFlush_lineView (s : State) : s.mapFlush.lineView = s.lineView := by
  unfold State.mapFlush State.dumpRest
  dsimp only
  split
  · rw [foldl_lineView _ State.dumpCopy_lineView, foldl_lineView _ State.applyMap_lineView, State.modNzh_lineView]
  · rw [foldl_lineView _ State.applyMap_lineView, State.modNzh_lineView]

@[simp] theorem State.sweepStart_lineView (s : State) : s.sweepStart.lineView = s.lineView := by
  unfold State.sweepStart
  rw [foldl_lineView _ fun s m => State.modNzh_lineView _ _, State.p_lineView]

/-! ## The end of line work -/

@[simp] theorem State.lanesQuiet_lineView (s : State) : s.lanesQuiet.lineView = s.lineView := by
  unfold State.lanesQuiet
  exact foldl_lineView _ (fun s x => State.modLane_lineView _ _ _) _ _

/-- No line is in flight once line work has ended (R99, R412). -/
theorem State.linesStop_lines (s : State) : s.linesStop.gth.lines = [] := by
  unfold State.linesStop
  rw [lineView_lines (State.mapFlush_lineView _)]
  unfold State.linesEnd
  exact lineView_lines (State.lanesQuiet_lineView _)

/-! ## Staged writes -/

@[simp] theorem State.copyAt_lineView (s : State) (c : Cls) (a : Nat) : (s.copyAt c a).lineView = s.lineView := by
  unfold State.copyAt
  exact ite_lineView rfl (State.setAct_lineView _ _ _)

@[simp] theorem State.applyReg_lineView (s : State) (w : RegW) : (s.applyReg w).lineView = s.lineView := by
  unfold State.applyReg
  exact ite_lineView (State.modCur_lineView _ _) (ite_lineView (State.setWin_lineView _ _ _) (State.setReg_lineView _ _ _))

@[simp] theorem State.regStage_lineView (s : State) (w : RegW) : (s.regStage w).lineView = s.lineView := by
  unfold State.regStage
  refine ite_lineView rfl (ite_lineView ?_ (s.applyReg_lineView w))
  rw [foldl_lineView _ fun s c => State.copyAt_lineView s c _, State.applyReg_lineView]

@[simp] theorem State.joinFlush_lineView (s : State) : s.joinFlush.lineView = s.lineView := by
  unfold State.joinFlush
  refine ite_lineView rfl ?_
  dsimp only
  rw [foldl_lineView _ State.regStage_lineView, State.modFol_lineView, foldl_lineView _ fun s w => State.applyMap_lineView s _, State.modFol_lineView]

@[simp] theorem State.calStandby_lineView (s : State) : s.calStandby.lineView = s.lineView := by
  unfold State.calStandby
  rw [State.p_lineView, State.p_lineView, foldl_lineView _ fun s m => State.p_lineView _ _ _, State.modCal_lineView]

/-! ## Frames to the folio peer -/

@[simp] theorem State.sendBlocks_lineView (s : State) (p : Nat) (b : Bytes) : (s.sendBlocks p b).lineView = s.lineView := (rfl)

@[simp] theorem State.notePd_lineView (s : State) (p : Nat) (f : Frame) : (s.notePd p f).lineView = s.lineView := by
  unfold State.notePd
  exact ite_lineView rfl rfl

@[simp] theorem State.putFrame_lineView (s : State) (p seq : Nat) (w : Waiting) (st : Bool) : (s.putFrame p seq w st).lineView = s.lineView := by
  unfold State.putFrame
  dsimp only
  rw [State.sendBlocks_lineView, State.notePd_lineView]
  exact ite_lineView (by simp) rfl

@[simp] theorem State.txFrame_lineView (s : State) (p : Nat) (w : Waiting) (st : Bool) : (s.txFrame p w st).lineView = s.lineView := by
  simp [State.txFrame]

@[simp] theorem State.freeCredit_lineView (s : State) (p : Nat) (f : Frame) : (s.freeCredit p f).lineView = s.lineView := by
  rw [State.freeCredit_eq]; rfl

@[simp] theorem State.sendHead_lineView (s : State) (p vl : Nat) (w : Waiting) : (s.sendHead p vl w).lineView = s.lineView := by
  simp [State.sendHead]

@[simp] theorem State.pumpN_lineView (n p : Nat) (s : State) : (State.pumpN n p s).lineView = s.lineView := by
  induction n generalizing s with
  | zero => rfl
  | succ n ih =>
    unfold State.pumpN
    dsimp only
    split
    · rw [ih, State.sendHead_lineView]
    · refine ite_lineView rfl ?_
      split
      · exact ite_lineView (by rw [ih]; simp) (by rw [ih]; rfl)
      · rw [ih]; rfl

@[simp] theorem State.queueOn_lineView (s : State) (p : Nat) (f : Frame) : (s.queueOn p f).lineView = s.lineView := by
  unfold State.queueOn State.queueFrom State.pump
  rw [State.pumpN_lineView, State.modPort_lineView]

@[simp] theorem State.folSend_lineView (s : State) (ty : Nat) (b : Bytes) : (s.folSend ty b).lineView = s.lineView := by
  unfold State.folSend State.dropped
  exact ite_lineView rfl (ite_lineView (by simp) (by simp))

@[simp] theorem State.folState_lineView (s : State) (req : Nat) : (s.folState req).lineView = s.lineView := s.folSend_lineView _ _

/-! ## Changes of the device state -/

theorem State.setDev_enters (s : State) (d : Dev) : (s.setDev d).dev = d := by
  have h : ({ s with dev := d, prev := s.dev }.waitsEnd d true).dev = d := core_dev (State.waitsEnd_core _ _ _)
  unfold State.setDev
  dsimp only
  split
  case h_5 => exact h
  all_goals exact (core_dev (State.raise_core _ _ _)).trans h

theorem State.devTo_enters (s : State) (d : Dev) : (s.devTo d).dev = d := by
  unfold State.devTo State.folDev
  split
  · exact (lineView_dev (State.folState_lineView _ _)).trans (s.setDev_enters d)
  · exact s.setDev_enters d

theorem State.goFault_enters (s : State) : s.goFault.dev = .fault := by
  unfold State.goFault State.fenAllLow
  rw [lineView_dev (foldl_lineView State.fenLow State.fenLow_lineView _ _)]
  exact s.setDev_enters .fault

theorem State.enterStandby_enters (s : State) : s.enterStandby.dev = .standby := State.devTo_enters _ _

theorem State.firstStandby_enters (s : State) : s.firstStandby.dev = .standby := by
  unfold State.firstStandby
  dsimp only
  split
  · exact (lineView_dev (State.sweepStart_lineView _)).trans (State.devTo_enters _ _)
  · exact State.devTo_enters _ _

/-! ## Attention -/

theorem State.attnStep_lineView (n old : Nat) (s : State) : (State.attnStep n old s).lineView = s.lineView := by
  induction n generalizing old s with
  | zero => rfl
  | succ n ih =>
    unfold State.attnStep
    dsimp only
    have h : (if s.gb F.MBX_ATTNCFG_NOTEN then s.askNotify 256 else s).lineView = s.lineView := ite_lineView (State.askNotify_lineView _ _) rfl
    exact ite_lineView rfl (ite_lineView (by rw [ih, State.post_lineView, h]) h)

theorem State.attnStep_low (n old : Nat) (s : State) : lowKept s (State.attnStep n old s) := by
  induction n generalizing old s with
  | zero => exact .refl s
  | succ n ih =>
    have h : lowKept s (if s.gb F.MBX_ATTNCFG_NOTEN then s.askNotify 256 else s) := by
      split
      · exact s.mbx_low _
      · exact .refl s
    unfold State.attnStep
    dsimp only
    generalize (if s.gb F.MBX_ATTNCFG_NOTEN then s.askNotify 256 else s) = t at h ⊢
    split
    · exact .refl s
    · split
      · exact (h.trans (State.post_low _ _ _ _ _)).trans (ih _ _)
      · exact h

theorem State.announce_lineView (s : State) : s.announce.lineView = s.lineView := s.attnStep_lineView _ _

/-- Announcing attention keeps the registers below the messaging block, GLB_ATTN apart. -/
theorem State.announce_low (s : State) : lowKept s s.announce := (s.attnStep_low _ _).trans (State.mbx_low _ _)

theorem State.hrbFollow_lineView (s0 s : State) : (State.hrbFollow s0 s).lineView = s.lineView := by
  unfold State.hrbFollow
  exact ite_lineView rfl rfl

theorem State.hrbFollow_reg (s0 s : State) (a : Nat) : (State.hrbFollow s0 s).reg a = s.reg a := by
  unfold State.hrbFollow
  dsimp only
  split <;> rfl

/-! ## What follows a command -/

/-- In RUN with a line in flight. -/
def State.lining (s : State) : Prop := s.dev = .run ∧ s.gth.lines ≠ []

theorem State.lining_congr {s t : State} (h : t.lineView = s.lineView) : t.lining ↔ s.lining := by
  obtain ⟨h1, h2⟩ := Prod.mk.inj h
  rw [State.lining, State.lining, h1, h2]

theorem State.not_lining_of_dev {s : State} {d : Dev} (h : s.dev = d) (hd : d ≠ .run) : ¬ s.lining := fun hl => hd (h.symm.trans hl.1)

theorem State.linesStop_not_lining (s : State) : ¬ s.linesStop.lining := fun hl => hl.2 s.linesStop_lines

/-- A device that is not in RUN with a line in flight is not so after a change to STANDBY that has come due. -/
theorem State.stopNow_not_lining (s : State) (h : ¬ s.lining ∨ s.fol.stopDue = true) : ¬ s.stopNow.lining := by
  unfold State.stopNow
  split
  · exact State.not_lining_of_dev s.enterStandby_enters (by decide)
  · rename_i hr
    rcases h with h | h
    · exact h
    · exact fun hl => hr (by simp [h, State.running, hl.1])

/-- TRAIN is not left for RUN (R409, R393, R350). -/
theorem State.leaveTrain_not_lining (s : State) (h : s.dev = .train) : ¬ s.leaveTrain.lining := by
  have h0 : ¬ s.lining := State.not_lining_of_dev h (by decide)
  unfold State.leaveTrain
  dsimp only
  split
  · exact h0
  · split
    · split
      · exact State.not_lining_of_dev s.goFault_enters (by decide)
      · exact h0
    · split
      · split
        · split
          · exact State.not_lining_of_dev s.firstStandby_enters (by decide)
          · exact State.not_lining_of_dev (State.setDev_enters _ _) (by decide)
        · exact State.not_lining_of_dev s.firstStandby_enters (by decide)
      · exact h0

/-- No message waits for the controller to take it. -/
def State.noMessage (s : State) : Prop := ∀ c < 64, s.chPending c = false

theorem State.drainMbx_noMessage {s : State} (h : s.noMessage) (n : Nat) : s.drainMbx n = s := by
  cases n with
  | zero => rfl
  | succ n =>
    have hf : ((List.range 64).find? fun c => s.chPending c && s.msgClass c != 1) = none := by
      rw [List.find?_eq_none]
      intro c hc
      simp [h c (List.mem_range.1 hc)]
    unfold State.drainMbx
    rw [hf]

/-- What follows a command's effect does not bring RUN with a line in flight. -/
theorem State.conclude_not_lining (s0 s : State) (hm : s.noMessage) (h : ¬ s.lining ∨ s.fol.stopDue = true) : ¬ (State.conclude s0 s).lining := by
  unfold State.conclude
  dsimp only
  rw [State.drainMbx_noMessage hm, State.lining_congr (State.hrbFollow_lineView _ _), State.lining_congr (State.announce_lineView _)]
  have keep {c : Prop} [Decidable c] {a b : State} (hc : a.lineView = b.lineView) (hb : ¬ b.lining) : ¬ (if c then a else b).lining := by
    rwa [State.lining_congr (ite_lineView (c := c) hc rfl)]
  refine keep (State.folState_lineView _ _) (keep (State.calStandby_lineView _) ?_)
  have hj : ¬ (if s0.running && (s.dev == .fault || s.dev == .retired) then s.linesStop else s).stopNow.joinFlush.lining := by
    rw [State.lining_congr (State.joinFlush_lineView _)]
    refine State.stopNow_not_lining _ ?_
    split
    · exact .inl s.linesStop_not_lining
    · exact h
  generalize (if s0.running && (s.dev == .fault || s.dev == .retired) then s.linesStop else s).stopNow.joinFlush = u at hj ⊢
  split
  · rename_i ht
    exact State.leaveTrain_not_lining _ (by simpa using ht)
  · exact hj

/-- After an effect that leaves a device alone in RUN, no STANDBY due and no message waiting, attention and HRB follow and nothing else. -/
theorem State.conclude_run (s0 s : State) (hm : s.noMessage) (hd : s.dev = .run) (hs : s.fol.stopDue = false) (ha : s.member = false) :
    State.conclude s0 s = State.hrbFollow s0 s.announce := by
  have h1 : s.stopNow = s := by simp [State.stopNow, hs]
  have h2 : s.joinFlush = s := by simp [State.joinFlush, State.running, hd]
  simp [State.conclude, State.drainMbx_noMessage hm, hd, h1, h2, State.standby, ha]

/-- A command that ends in RUN with a line in flight, the device alone and no message waiting, leaves the registers below the messaging block, GLB_ATTN apart, as its effect does. -/
theorem State.after_reg_of_lining {s0 s : State} (hm : s.noMessage) (ha : s.member = false) (hl : (s0.after s).lining) (a : Nat) (h1 : a < 0x1C0000) (h2 : a ≠ 0x18) :
    (s0.after s).reg a = s.reg a := by
  have hs : s.lining ∧ s.fol.stopDue = false := by
    by_cases hs : s.lining
    · exact ⟨hs, Bool.eq_false_iff.2 fun hd => s0.conclude_not_lining s hm (.inr hd) hl⟩
    · exact absurd hl (s0.conclude_not_lining s hm (.inl hs))
  show (State.conclude s0 s).reg a = s.reg a
  rw [State.conclude_run s0 s hm hs.1.1 hs.2 ha, State.hrbFollow_reg, s.announce_low.regs a h1 h2]

/-- An effect that leaves a device alone in RUN with a line in flight is followed by the same. -/
theorem State.after_lining (s0 s : State) (hm : s.noMessage) (ha : s.member = false) (hs : s.fol.stopDue = false) (hl : s.lining) : (s0.after s).lining := by
  show (State.conclude s0 s).lining
  rw [State.conclude_run s0 s hm hl.1 hs ha, State.lining_congr (State.hrbFollow_lineView _ _), State.lining_congr s.announce_lineView]
  exact hl

/-! ## The same registers -/

theorem State.reg_eq_of_regs {s t : State} (h : t.regs = s.regs) (a : Nat) : t.reg a = s.reg a := by simp only [State.reg, h]

theorem State.noMessage_congr {s t : State} (h : t.regs = s.regs) : t.noMessage ↔ s.noMessage := by
  simp [State.noMessage, State.chPending, State.gb, State.g, F.MBX_CH_STS_PENDING, State.reg_eq_of_regs h]

theorem State.member_congr {s t : State} (h : t.regs = s.regs) : t.member = s.member := by
  simp [State.member, State.gb, State.g, F.FOL_CTL_EN, State.reg_eq_of_regs h]

end Sys2Proof.Machine
end

section
/-!
PROOF. O22, the SRAM scrubber. The clause on the arrays whose data is used on takes in array 3, the nozzle map, and says that a poisoned word changes no register.
The two entries of a poisoned map word are treated as disabled (R79, R430) and count in NZH_MODSTS.DEAD of their module, so the scrub does change one.
-/

namespace Sys2Proof.Machine

/-- A device in RUN with one gathered line in flight, every register at its reset value. -/
def scrubDev : State := { State.reset with dev := .run, gth := { lines := [{ k := 0, sig := 0, line := 0, rev := false, blank := 0, wh := false, phi := [] }] } }

/-- The SRAM_UE event of word 0 of the nozzle map. -/
def mapUe : Ev := { c := E.SRAM_UE, inst := 3, ctxType := 9, ctx := 0, key := [0], stays := true, handles := true }

/-- What the scrub of that uncorrectable word does. -/
def scrubbed : State := scrubDev.begun.sramWord 3 0 true

theorem scrubbed_noMessage : scrubbed.noMessage := by unfold State.noMessage; decide +kernel

theorem mapUe_noMessage : (scrubDev.begun.record mapUe).noMessage := by unfold State.noMessage; decide +kernel

theorem scrubbed_member : scrubbed.member = false := by decide +kernel

theorem mapUe_member : (scrubDev.begun.record mapUe).member = false := by decide +kernel

theorem scrubbed_lining : scrubbed.lining ∧ scrubbed.fol.stopDue = false := by unfold State.lining; decide +kernel

/-- Both entries of the word count as dead once it is poisoned; the event alone leaves the count 0. -/
theorem scrubbed_dead : scrubbed.reg 0x100100 = 2 ∧ (scrubDev.begun.record mapUe).reg 0x100100 = 0 := by decide +kernel

/-- The command's outcome is that of no effect that leaves the registers as the event does. -/
theorem after_scrubbed_ne (t : State) (h : t.regs = (scrubDev.begun.record mapUe).regs) : scrubDev.after t ≠ scrubDev.after scrubbed := by
  intro he
  have hl : (scrubDev.after scrubbed).lining := State.after_lining _ _ scrubbed_noMessage scrubbed_member scrubbed_lining.2 scrubbed_lining.1
  have h2 : (scrubDev.after scrubbed).reg 0x100100 = 2 :=
    (State.after_reg_of_lining scrubbed_noMessage scrubbed_member hl _ (by decide) (by decide)).trans scrubbed_dead.1
  have ht : (scrubDev.after t).lining := by rw [he]; exact hl
  have h0 : (scrubDev.after t).reg 0x100100 = 0 := by
    rw [State.after_reg_of_lining ((State.noMessage_congr h).2 mapUe_noMessage) ((State.member_congr h).trans mapUe_member) ht _ (by decide) (by decide),
      State.reg_eq_of_regs h]
    exact scrubbed_dead.2
  rw [he, h2] at h0
  exact absurd h0 (by decide)

/-- Refutes O22: a poisoned word of the nozzle map (array 3) changes a register beyond those of its event; in RUN, word 0 takes NZH_MODSTS.DEAD of module 0 from 0 to 2. -/
theorem not_sramScrubber : ¬ Obligations.SramScrubber := by
  unfold Obligations.SramScrubber
  intro h
  obtain ⟨-, hused, -, -⟩ := h scrubDev 0 rfl
  obtain ⟨r, t, hr, hexec, -, hregs, -, -⟩ := hused 3 (by decide)
  have ht : scrubDev.after scrubbed = scrubDev.after t := by injection hexec
  exact after_scrubbed_ne t (hregs.trans (congrArg State.regs hr)) ht.symm

end Sys2Proof.Machine
end

section
/-!
SUPPORT. Laws of the quire directory (R47, R59 to R64, R67): what changing a quire, a re-send's next attempt and its end leave in the directory.
-/

namespace Sys2Proof.Machine

/-! ## Reading a quire back -/

/-- The quire with a key is found in the directory alone. -/
theorem State.quire_congr {s t : State} (h : t.qre.dir = s.qre.dir) (sig c first : Nat) : t.quire sig c first = s.quire sig c first := by
  simp only [State.quire, h]

/-- The quire with a key after a change of it that keeps the key. -/
theorem State.modQuire_quire (s : State) (sig c first : Nat) (f : Quire → Quire) (hf : ∀ q, (f q).is sig c first = q.is sig c first) :
    (s.modQuire sig c first f).quire sig c first = (s.quire sig c first).map f := by
  have hp : ((fun q : Quire => q.is sig c first) ∘ fun q => if q.is sig c first then f q else q) = fun q => q.is sig c first := by
    funext q
    by_cases h : q.is sig c first = true <;> simp [h, hf]
  unfold State.quire State.modQuire State.modQre
  rw [List.find?_map, hp]
  cases h : s.qre.dir.find? fun q => q.is sig c first with
  | none => rfl
  | some q => simp [List.find?_some h]

@[simp] theorem State.cover_dir (s : State) (c sig first n : Nat) : (s.cover c sig first n).qre.dir = s.qre.dir := by
  unfold State.cover
  split <;> rfl

@[simp] theorem State.rsClose_quire (s : State) (sig c first sig' c' first' : Nat) : (s.rsClose sig c first).quire sig' c' first' = s.quire sig' c' first' := rfl

@[simp] theorem State.nextGen_quire (s : State) (c sig' c' first' : Nat) : (s.nextGen c).2.quire sig' c' first' = s.quire sig' c' first' := rfl

/-! ## Re-sends -/

/-- Posting the next attempt changes the quire that is asked for, and no other entry (R59, R62). -/
theorem State.rsAttempt_dir (s : State) {sig c first : Nat} {q : Quire} (h : s.quire sig c first = some q) :
    (s.rsAttempt sig c first).qre.dir =
      (s.modQuire sig c first fun q => { q with gen := spGet 0 s.qre.gens c % 255 + 1, attempt := q.attempt + 1 }).qre.dir := by
  unfold State.rsAttempt State.nextGen
  rw [h]
  dsimp only
  rw [core_qre (State.post_core _ _ _ _ _), State.inc_qre]
  rfl

/-- The next attempt advances the generation that the quire is asked for with, and counts. -/
theorem State.rsAttempt_quire (s : State) {sig c first : Nat} {q : Quire} (h : s.quire sig c first = some q) :
    (s.rsAttempt sig c first).quire sig c first = some { q with gen := spGet 0 s.qre.gens c % 255 + 1, attempt := q.attempt + 1 } := by
  rw [State.quire_congr (s.rsAttempt_dir h), State.modQuire_quire, h]
  · rfl
  · exact fun _ => rfl

/-- A re-send that ends without a good copy leaves the quire's bytes blank (R64), whatever its record covers. -/
theorem State.rsExhaust_quire (s : State) {sig c first : Nat} {q : Quire} (h : s.quire sig c first = some q) (start : Nat) :
    (s.rsExhaust sig c first start).quire sig c first = some { q with st := .blank, pages := [], attempt := 0 } := by
  have hb : ((((s.rsClose sig c first).nextGen c).2.modQuire sig c first fun q => { q with st := .blank, pages := [], attempt := 0 }).quire sig c first)
      = some { q with st := .blank, pages := [], attempt := 0 } := by
    rw [State.modQuire_quire, State.nextGen_quire, State.rsClose_quire, h]
    · rfl
    · exact fun _ => rfl
  unfold State.rsExhaust
  rw [h]
  dsimp only
  split
  · exact hb
  · rw [State.quire_congr (State.cover_dir _ _ _ _ _)]
    split
    · exact hb
    · rw [State.quire_congr (congrArg QreSt.dir (core_qre (State.record_core _ _)))]
      exact hb

section
variable (s : State) {sig c first : Nat} {q : Quire}

/-- An attempt that ends with attempts left is followed by the next one. -/
theorem State.rsEndAttempt_next (h : s.quire sig c first = some q) (hst : q.st = .resend) (ha : 0 < q.attempt) (hm : q.attempt < s.g F.QRE_RSCFG_MAX) :
    s.rsEndAttempt sig c first = s.rsAttempt sig c first := by
  have h0 : ¬ (q.st ≠ .resend ∨ q.attempt = 0) := by simp [hst]; omega
  unfold State.rsEndAttempt
  rw [h]
  dsimp only
  rw [if_neg h0, if_pos hm]

/-- The end of the last attempt ends the re-send. -/
theorem State.rsEndAttempt_last (h : s.quire sig c first = some q) (hst : q.st = .resend) (ha : 0 < q.attempt) (hm : s.g F.QRE_RSCFG_MAX ≤ q.attempt) :
    s.rsEndAttempt sig c first = (s.rsExhaust sig c first (s.gathered sig)).rsNext 1 := by
  have h0 : ¬ (q.st ≠ .resend ∨ q.attempt = 0) := by simp [hst]; omega
  unfold State.rsEndAttempt
  rw [h]
  dsimp only
  rw [if_neg h0, if_neg (by omega)]

end

/-- A single waiting request is posted while fewer than 256 are outstanding (R63). -/
theorem State.rsNext_one (s : State) {sig c first : Nat} (h : s.qre.waiting = [(sig, c, first)]) (ho : s.rsOut < 256) :
    State.rsNext 1 s = (s.modQre fun x => { x with waiting := [] }).rsAttempt sig c first := by
  unfold State.rsNext
  rw [h]
  dsimp only
  rw [if_neg (by omega)]
  rfl

end Sys2Proof.Machine
end

section
/-!
PROOF. O29, re-send attempts (R59 to R64).
-/

namespace Sys2Proof.Machine

theorem exec_resendAttemptEnd (s : State) (sig first : Word) (c : Fin 128) :
    exec (.resendAttemptEnd sig c first) s = s.does fun s => s.rsEndAttempt sig.toNat c first.toNat := rfl

theorem exec_resendPost (s : State) : exec .resendPost s = s.does fun s => s.rsNext s.qre.waiting.length := rfl

/-- Settles O29: an attempt's end posts the next one or ends the re-send, by the laws of the directory. -/
theorem resendAttempts : Obligations.ResendAttempts := by
  unfold Obligations.ResendAttempts
  intro s sig first c q hq hst
  have hb : s.begun.quire sig.toNat c first.toNat = some q := hq
  refine ⟨fun ha hm => ?_, fun ha hm => ?_, s.rsExhaust_quire hq 0, s.rsAttempt_quire hq, fun hw ho => ?_⟩
  · rw [exec_resendAttemptEnd]
    exact State.does_eq (s.begun.rsEndAttempt_next hb hst ha hm)
  · rw [exec_resendAttemptEnd]
    exact State.does_eq (s.begun.rsEndAttempt_last hb hst ha hm)
  · rw [exec_resendPost]
    refine State.does_eq ?_
    rw [State.begun_qre, hw]
    exact s.begun.rsNext_one hw ho

end Sys2Proof.Machine
end

section
/-!
SUPPORT. Without an injection that waits and without marks in the arrays, nothing of either acts (R430, R431).
-/

namespace Sys2Proof.Machine

/-- No injection is pending: none acts on a unit. -/
theorem State.injHit_of_none {s : State} (h : s.err.inj = none) (id inst : Nat) : s.injHit id inst = false := by
  simp [State.injHit, h]

theorem State.injAny_of_none {s : State} (h : s.err.inj = none) (id : Nat) : s.injAny id = false := by
  simp [State.injAny, h]

/-- Without marks there is nothing to clear in the arrays. -/
theorem State.sramClear_of_none {s : State} (hp : s.sram.poisoned = []) (hf : s.sram.flips = []) (f : Nat × Nat → Bool) : s.sramClear f = s := by
  simp [State.sramClear, hp, hf]

/-- Without a pending injection no word of an array is flipped. -/
theorem State.sramFlip_of_none {s : State} (h : s.err.inj = none) (a w : Nat) : s.sramFlip a w = s := by
  simp [State.sramFlip, State.injHit_of_none h]

end Sys2Proof.Machine
end

section
/-!
PROOF. O28, inflation: the start of an engine with one ready quire (R55), a failed store read (R52), and the release of a STORED quire whose CRCs match (R51, R53).
-/

namespace Sys2Proof.Machine

section
variable (s : State) {m : Nat} {q : Quire}

/-- An idle engine with one ready quire starts it. -/
theorem State.inflateStart_one (hb : s.engineBusy m = false) (hd : s.dev = .standby ∨ s.dev = .run ∨ s.dev = .hold)
    (h0 : s.ready (4 * m) = some q) (hr : ∀ r, r = 1 ∨ r = 2 ∨ r = 3 → s.ready (4 * m + r) = none) :
    s.inflateStart m = (s.reserve q).modQuire q.sig q.ctx q.first fun q => { q with st := .inflating } := by
  have hgo : (s.engineBusy m || !(s.dev == .standby || s.dev == .run || s.dev == .hold)) = false := by
    rcases hd with h | h | h <;> simp [hb, h]
  have hcs : ((List.range 4).filterMap fun r => (s.ready (4 * m + r)).map fun q => (s.ctxLead (4 * m + r), q)) = [(s.ctxLead (4 * m), q)] := by
    simp [show List.range 4 = [0, 1, 2, 3] from rfl, h0, hr]
  unfold State.inflateStart
  rw [hgo, hcs]
  simp [minD, maxL]

/-- A failed store read asks for the quire again. -/
theorem State.inflateFail_of_inflating (h : s.inflating m = some q) : s.inflateFail m = s.rsRequest q.sig q.ctx q.first 2 := by
  unfold State.inflateFail
  rw [h]

end

/-- A STORED quire that is read back with both CRCs right is released with its bytes as its lines. -/
theorem State.inflateDone_stored {s t : State} {m : Nat} {q : Quire} {b : Bytes} (h : s.inflating m = some q) (hs : q.isStored = true) (hl : q.clen = q.size)
    (hb : s.fetchQuire q.pages (40 + q.clen) = (some b, t)) (hi : t.err.inj = none) (hp : t.sram.poisoned = []) (hf : t.sram.flips = [])
    (hpay : crc32c (slice b 32 q.clen) = leAt b (32 + q.clen) 4) (hlin : crc32c (slice b 32 q.clen) = leAt b (36 + q.clen) 4) :
    s.inflateDone m = t.modQuire q.sig q.ctx q.first fun q' => { q' with st := .released, data := slice b 32 q.clen, pages := [] } := by
  have heq : leAt b (32 + q.clen) 4 = leAt b (36 + q.clen) 4 := hpay.symm.trans hlin
  unfold State.inflateDone
  simp only [h, hb, State.injHit_of_none hi, hp, State.sramClear_of_none hp hf, State.sramFlip_of_none hi, hs, if_pos hl, hpay, heq, List.any_nil, Bool.or_self, Bool.false_eq_true,
    if_true, if_false, ne_eq, not_true_eq_false, or_self]
  rw [State.sramClear_of_none (s := State.modQuire t _ _ _ _) hp hf, State.sramFlip_of_none (s := State.modQuire t _ _ _ _) hi]

theorem exec_inflateStart (s : State) (m : Fin 32) : exec (.inflateStart m) s = s.does fun s => s.inflateStart m := rfl

theorem exec_inflateReadError (s : State) (m : Fin 32) : exec (.inflateReadError m) s = s.does fun s => s.inflateFail m := rfl

theorem exec_inflateDone (s : State) (m : Fin 32) : exec (.inflateDone m) s = s.does fun s => s.inflateDone m := rfl

/-- Settles O28: what an engine does at a start, at a failed read and at the end of a STORED quire. -/
theorem inflation : Obligations.Inflation := by
  unfold Obligations.Inflation
  intro s m q
  refine ⟨fun hb hd h0 hr => ?_, fun h => ?_, fun h _ hp hf hs hl b t hfetch hi ht hpay hlin => ?_⟩
  · rw [exec_inflateStart]
    exact State.does_eq (s.begun.inflateStart_one hb hd h0 hr)
  · rw [exec_inflateReadError]
    exact State.does_eq (s.begun.inflateFail_of_inflating h)
  · rw [exec_inflateDone]
    rw [← ht] at hp hf
    exact State.does_eq (State.inflateDone_stored (s := s.begun) h hs hl hfetch hi hp hf hpay hlin)

end Sys2Proof.Machine
end

section
/-!
SUPPORT. A write in STANDBY to a register that is one RW field of class [S] (R12, R16).
-/

namespace Sys2Proof.Machine

/-- A write under the whole mask is the word written. -/
theorem maskIn_whole (v w : Nat) (h : w < 2 ^ 32) : maskIn v 0xFFFFFFFF w = w := by
  unfold maskIn
  show v &&& 0 ||| w &&& (2 ^ 32 - 1) = w
  rw [Nat.and_two_pow_sub_one_eq_mod, Nat.mod_eq_of_lt h]
  simp

/-- A register that is one RW field of class [S], without a behaviour of its own as it is written. -/
def wordAddr (a : Nat) : Bool :=
  fieldAddr a && regMask a isS == 0xFFFFFFFF && regMask a isBL == 0 && [Cls.bLine, Cls.bQuire, Cls.bSig, Cls.bSwath].all (fun c => clsMask a c == 0) && (sramOf a).isNone

/-- In STANDBY such a register takes the word, and the write starts what it starts. -/
theorem State.wr_word (s : State) (src : Src) (a w : Nat) (ha : wordAddr a = true) (hw : w < 2 ^ 32) (hs : s.dev = .standby) (hne : w ≠ s.reg a) :
    s.wr src a w = (s.setReg a w).started src none a w (s.reg a) := by
  simp only [wordAddr, Bool.and_eq_true, beq_iff_eq, Option.isNone_iff_eq_none, List.all_cons, List.all_nil, Bool.and_true] at ha
  obtain ⟨⟨⟨⟨hf, h1⟩, h2⟩, c1, c2, c3, c4⟩, h4⟩ := ha
  have hans : s.answers := by simp [State.answers, hs]
  have hrun : s.running = false := by simp [State.running, hs]
  have hval (v : Nat) : (s.setReg a w).valueRecs src a v = s.setReg a w := by simp [State.valueRecs, hs]
  have hfields : (s.writeFields src a w).2 = s.setReg a w := by
    simp [State.writeFields, hs, h1, h2, maskIn_whole _ _ hw, maskIn_zero _ _ hw, hrun, hne, State.copyAt, c1, c2, c3, c4, State.addrWrote, h4, hval]
  rw [s.wr_fields src a w hf hans, hfields]

end Sys2Proof.Machine
end

section
/-!
PROOF. O30: ABORT of a signature (R67), and the STANDBY writes to QRE_SIGBASE (R34) and QRE_CTXEN (R54).
-/

namespace Sys2Proof.Machine

/-! ## ABORT -/

/-- ABORT written alone is ABORT. -/
theorem State.strobe_abort (s : State) (src : Src) (hs : s.answers) : s.strobe src 0x20040 1 = s.sigAbort src := by
  have hm : rwMask 0x20040 = 0 := by decide
  rw [s.strobe_started src 0x20040 1 (by decide) hs, hm, maskIn_zero 0 _ (by decide)]
  simp [State.started, State.startLow]

/-- Of a signature that has quires and is not current. -/
theorem State.sigAbort_queued (s : State) (src : Src) (hc : ¬ (s.qre.started = true ∧ s.g F.QRE_SIGSEL_NUM = s.g F.QRE_SIGCUR_NUM))
    (ho : s.g F.QRE_SIGSEL_NUM ∈ s.openSigs) : s.sigAbort src = s.abortSig (s.g F.QRE_SIGSEL_NUM) := by
  simp [State.sigAbort, hc, ho]

/-- Of the current signature, or of one without quires. -/
theorem State.sigAbort_refused (s : State) (src : Src)
    (h : (s.qre.started = true ∧ s.g F.QRE_SIGSEL_NUM = s.g F.QRE_SIGCUR_NUM) ∨ s.g F.QRE_SIGSEL_NUM ∉ s.openSigs) :
    s.sigAbort src = s.recReg E.QRE_CMD 0x20040 src := by
  unfold State.sigAbort
  rw [if_pos]
  simpa using h

/-- What an aborted signature keeps in the directory has ring bytes alone. -/
theorem State.abortSig_dir (s : State) (sig : Nat) : ∀ q ∈ (s.abortSig sig).qre.dir, q.sig = sig → q.st = .aborted ∧ q.pages = [] ∧ q.data = [] := by
  intro q hq hsig
  obtain ⟨x, -, hx⟩ := List.mem_filterMap.1 hq
  split at hx
  · rename_i hne
    obtain rfl := Option.some.inj hx
    simp [hsig] at hne
  · split at hx
    · obtain rfl := Option.some.inj hx
      exact ⟨rfl, rfl, rfl⟩
    · cases hx

/-! ## QRE_SIGBASE and QRE_CTXEN -/

/-- Dropping signatures leaves the quires of the others. -/
theorem foldl_dropSig_dir (l : List Nat) (dead : Bool) (s : State) :
    (l.foldl (fun s x => s.dropSig x dead) s).qre.dir = s.qre.dir.filter fun q => !l.contains q.sig := by
  induction l generalizing s with
  | nil => exact (List.filter_eq_self.2 fun _ _ => rfl).symm
  | cons x l ih =>
    rw [List.foldl_cons, ih]
    show (s.qre.dir.filter fun q => q.sig != x).filter _ = _
    rw [List.filter_filter]
    refine List.filter_congr fun q _ => ?_
    by_cases h : q.sig = x <;> simp [h]

theorem foldl_dropSig_regs (l : List Nat) (dead : Bool) (s : State) : (l.foldl (fun s x => s.dropSig x dead) s).regs = s.regs := by
  induction l generalizing s with
  | nil => rfl
  | cons x l ih => exact ih _

/-- After QRE_SIGBASE has changed no quire below it is left. -/
theorem State.sigbaseChanged_dir (s : State) : ∀ q ∈ s.sigbaseChanged.qre.dir, ¬ sigDiff q.sig (s.g F.QRE_SIGBASE_NUM) < 0 := by
  intro q hq hlt
  unfold State.sigbaseChanged at hq
  dsimp only at hq
  rw [State.incBy_qre, foldl_dropSig_dir, List.mem_filter] at hq
  obtain ⟨hmem, hlow⟩ := hq
  have : ∃ a ∈ s.qre.dir, a.sig = q.sig := ⟨q, hmem, rfl⟩
  simp [hlt, this] at hlow

/-- Of the registers it changes the counter of stale quires alone. -/
theorem State.sigbaseChanged_reg (s : State) (a : Nat) (h : a ≠ 0x20094) : s.sigbaseChanged.reg a = s.reg a := by
  unfold State.sigbaseChanged State.incBy
  dsimp only
  rw [State.p_reg_ne _ _ _ _ h]
  exact State.reg_eq_of_regs (foldl_dropSig_regs _ _ _) a

/-- QRE_SIGBASE.NUM is its whole register. -/
theorem State.g_sigbase (s : State) : s.g F.QRE_SIGBASE_NUM = s.reg 0x20034 := by
  show s.reg 0x20034 / 2 ^ 0 % 2 ^ 32 = s.reg 0x20034
  rw [Nat.pow_zero, Nat.div_one, Nat.mod_eq_of_lt (s.reg_lt _)]

/-- QRE_SIGBASE written in STANDBY with a new value. -/
theorem State.wr_sigbase (s : State) (src : Src) (w : Nat) (hw : w < 2 ^ 32) (hs : s.dev = .standby) (hne : w ≠ s.reg 0x20034) :
    s.wr src 0x20034 w = (s.setReg 0x20034 w).sigbaseChanged := by
  have hr : (s.setReg 0x20034 w).reg 0x20034 ≠ s.reg 0x20034 := by rwa [State.setReg_reg_same, Nat.mod_eq_of_lt hw]
  rw [s.wr_word src 0x20034 w (by decide) hw hs hne]
  simp [State.started, State.startLow, hr]

theorem ctxen_wordAddr (k : Fin 4) : wordAddr (0x20010 + 4 * k) = true := by revert k; decide

/-- QRE_CTXEN written in STANDBY with a new value. -/
theorem State.wr_ctxen (s : State) (src : Src) (k : Fin 4) (w : Nat) (hw : w < 2 ^ 32) (hs : s.dev = .standby) (hne : w ≠ s.reg (0x20010 + 4 * k)) :
    s.wr src (0x20010 + 4 * k) w = (s.setReg (0x20010 + 4 * k) w).divideRings := by
  have hr : (s.setReg (0x20010 + 4 * k) w).reg (0x20010 + 4 * k) ≠ s.reg (0x20010 + 4 * k) := by rwa [State.setReg_reg_same, Nat.mod_eq_of_lt hw]
  rw [s.wr_word src _ w (ctxen_wordAddr k) hw hs hne]
  unfold State.started State.startLow
  rw [if_pos (by omega), if_neg (by omega), if_neg (by omega), if_neg (by omega), if_pos (by omega), if_pos hr]

theorem exec_signatureAbort (s : State) (src : Src) : exec (.signatureAbort src) s = s.does fun s => s.strobe src 0x20040 1 := rfl

theorem exec_sigbaseWrite (s : State) (src : Src) (w : Word) : exec (.sigbaseWrite src w) s = s.does fun s => s.wr src 0x20034 w.toNat := rfl

theorem exec_ctxenWrite (s : State) (src : Src) (k : Fin 4) (w : Word) :
    exec (.ctxenWrite src k w) s = s.does fun s => s.wr src (0x20010 + 4 * k) w.toNat := rfl

/-- Settles O30: the cases of ABORT, and the two writes by what a change of their register starts. -/
theorem quireRegisters : Obligations.QuireRegisters := by
  unfold Obligations.QuireRegisters
  intro s src w k hs
  have hb : s.begun.strobe src 0x20040 1 = s.begun.sigAbort src := s.begun.strobe_abort src hs
  refine ⟨fun hc ho => ⟨?_, s.abortSig_dir _⟩, fun h1 h2 => ?_, fun ho => ?_, fun hd hne => ?_, fun hd hne => ?_⟩
  · rw [exec_signatureAbort]
    exact State.does_eq (hb.trans (s.begun.sigAbort_queued src hc ho))
  · rw [exec_signatureAbort]
    exact State.does_eq (hb.trans (s.begun.sigAbort_refused src (.inl ⟨h1, h2⟩)))
  · rw [exec_signatureAbort]
    exact State.does_eq (hb.trans (s.begun.sigAbort_refused src (.inr ho)))
  · rw [exec_sigbaseWrite]
    apply State.does_exists
    rw [s.begun.wr_sigbase src w.toNat w.isLt hd hne]
    have hreg : (s.begun.setReg 0x20034 w.toNat).reg 0x20034 = w.toNat := by rw [State.setReg_reg_same, Nat.mod_eq_of_lt w.isLt]
    refine ⟨by rw [State.sigbaseChanged_reg _ _ (by decide), hreg], fun q hq => ?_⟩
    have hg : (s.begun.setReg 0x20034 w.toNat).g F.QRE_SIGBASE_NUM = w.toNat := by
      rw [State.g_sigbase, hreg]
    rw [← hg]
    exact State.sigbaseChanged_dir _ q hq
  · rw [exec_ctxenWrite]
    apply State.does_exists
    rw [s.begun.wr_ctxen src k w.toNat w.isLt hd hne]
    refine ⟨?_, rfl, rfl, rfl⟩
    show (s.begun.setReg _ _).reg _ = _
    rw [State.setReg_reg_same, Nat.mod_eq_of_lt w.isLt]

end Sys2Proof.Machine
end

section
/-!
SUPPORT. What the DRAM subsystem leaves as it is (R288 to R323): its reads, writes and service of the queues change the DRAM controller and its stores, what
error events change, and with the last subchannel gone the device state and the FEN outputs; nothing else of the machine.
-/

namespace Sys2Proof.Machine

/-- The machine without what DRAM accesses change. -/
def State.offMem (s : State) : State := { s.core with dev := .off, prev := .off, fir := {}, mem := {}, dram := [], out := [] }

theorem offMem_of_core {s t : State} (h : t.core = s.core) : t.offMem = s.offMem := by simp only [State.offMem, h]

theorem offMem_qre {s t : State} (h : t.offMem = s.offMem) : t.qre = s.qre := (congrArg State.qre h :)

theorem ite_offMem {c : Prop} [Decidable c] {a b s : State} (h1 : a.offMem = s.offMem) (h2 : b.offMem = s.offMem) : (if c then a else b).offMem = s.offMem := by
  split
  · exact h1
  · exact h2

/-- A fold whose steps keep the view of the state that they carry keeps it. -/
theorem foldl_carried_offMem {α β : Type} (st : β → State) (f : β → α → β) (h : ∀ x a, (st (f x a)).offMem = (st x).offMem) (l : List α) (x : β) :
    (st (l.foldl f x)).offMem = (st x).offMem := by
  induction l generalizing x with
  | nil => rfl
  | cons a l ih => exact (ih _).trans (h x a)

theorem foldl_offMem {α : Type} (f : State → α → State) (h : ∀ s a, (f s a).offMem = s.offMem) (l : List α) (s : State) : (l.foldl f s).offMem = s.offMem :=
  foldl_carried_offMem id f h l s

/-! ## Basic updates -/

section
variable (s : State)

theorem State.offMem_mem (x : MemSt) : ({ s with mem := x } : State).offMem = s.offMem := by simp only [State.offMem, State.core]
theorem State.offMem_dram (x : List Host.Cell) : ({ s with dram := x } : State).offMem = s.offMem := by simp only [State.offMem, State.core]
theorem State.offMem_fir (x : FirSt) : ({ s with fir := x } : State).offMem = s.offMem := by simp only [State.offMem, State.core]
theorem State.offMem_out (x : List Output) : ({ s with out := x } : State).offMem = s.offMem := by simp only [State.offMem, State.core]
theorem State.offMem_dev (d d' : Dev) : ({ s with dev := d, prev := d' } : State).offMem = s.offMem := by simp only [State.offMem, State.core]

@[simp] theorem State.setReg_offMem (a v : Nat) : (s.setReg a v).offMem = s.offMem := offMem_of_core (s.setReg_core a v)
@[simp] theorem State.p_offMem (f : FR) (v : Nat) : (s.p f v).offMem = s.offMem := offMem_of_core (s.p_core f v)
@[simp] theorem State.inc_offMem (f : FR) : (s.inc f).offMem = s.offMem := offMem_of_core (s.inc_core f)
@[simp] theorem State.latch_offMem (b : Nat) : (s.latch b).offMem = s.offMem := offMem_of_core (s.latch_core b)
@[simp] theorem State.raise_offMem (c par : Nat) : (s.raise c par).offMem = s.offMem := offMem_of_core (s.raise_core c par)
@[simp] theorem State.waitsEnd_offMem (d : Dev) (come : Bool) : (s.waitsEnd d come).offMem = s.offMem := offMem_of_core (s.waitsEnd_core d come)
@[simp] theorem State.record_offMem (e : Ev) : (s.record e).offMem = s.offMem := offMem_of_core (s.record_core e)
@[simp] theorem State.closeRecs_offMem (f : List Nat → Bool) : (s.closeRecs f).offMem = s.offMem := offMem_of_core (s.core_err _)
@[simp] theorem State.closeRunOf_offMem (c : ECode) (k : List Nat) : (s.closeRunOf c k).offMem = s.offMem := s.closeRecs_offMem _
@[simp] theorem State.modMem_offMem (f : MemSt → MemSt) : (s.modMem f).offMem = s.offMem := s.offMem_mem _
@[simp] theorem State.modSc_offMem (i : Nat) (f : ScSt → ScSt) : (s.modSc i f).offMem = s.offMem := s.offMem_mem _
@[simp] theorem State.setRawCw_offMem (cw : Nat) (b : Bytes) : (s.setRawCw cw b).offMem = s.offMem := s.offMem_dram _
@[simp] theorem State.fenLow_offMem (m : Nat) : (s.fenLow m).offMem = s.offMem := s.offMem_fir _
@[simp] theorem State.emit_offMem (o : Output) : (s.emit o).offMem = s.offMem := s.offMem_out _

end

@[simp] theorem State.setDev_offMem (s : State) (d : Dev) : (s.setDev d).offMem = s.offMem := by
  have h : ({ s with dev := d, prev := s.dev }.waitsEnd d true).offMem = s.offMem := (State.waitsEnd_offMem _ d true).trans (s.offMem_dev d s.dev)
  unfold State.setDev
  dsimp only
  generalize { s with dev := d, prev := s.dev }.waitsEnd d true = t at h ⊢
  split
  case h_5 => exact h
  all_goals exact (State.raise_offMem _ _ _).trans h

@[simp] theorem State.goFault_offMem (s : State) : s.goFault.offMem = s.offMem := by
  unfold State.goFault State.fenAllLow
  rw [foldl_offMem _ State.fenLow_offMem, State.setDev_offMem]

@[simp] theorem State.recordRun_offMem (s : State) (e : Ev) : (s.recordRun e).offMem = s.offMem := by
  unfold State.recordRun
  split
  · exact offMem_of_core (State.extend_core _ _ _)
  · exact State.record_offMem _ _

/-! ## Retirement -/

@[simp] theorem State.wrDone_offMem (s : State) (r : MReq) (ok : Bool) : (s.wrDone r ok).offMem = s.offMem := by
  unfold State.wrDone
  exact ite_offMem rfl (foldl_offMem _ (fun s x => State.emit_offMem _ _) _ _)

@[simp] theorem State.failQueues_offMem (s : State) (i : Nat) : (s.failQueues i).offMem = s.offMem := by
  unfold State.failQueues
  dsimp only
  rw [foldl_offMem _ fun s r => State.wrDone_offMem _ _ _, State.offMem_mem, State.modSc_offMem]

@[simp] theorem State.memStatus_offMem (s : State) : s.memStatus.offMem = s.offMem := by simp [State.memStatus]

@[simp] theorem State.retireSc_offMem (s : State) (i : Nat) : (s.retireSc i).offMem = s.offMem := by
  unfold State.retireSc
  extract_lets was s1 s2 s3 may
  have h3 : s3.offMem = s.offMem := by simp [s3, s2, s1]
  exact ite_offMem ((State.goFault_offMem _).trans h3) h3

@[simp] theorem State.scRetry_offMem (s : State) (i : Nat) : (s.scRetry i).offMem = s.offMem := by
  unfold State.scRetry
  dsimp only
  exact ite_offMem (by simp) (by simp)

/-! ## Reads -/

@[simp] theorem State.queueWb_offMem (s : State) (cw : Nat) (d : Bytes) (p : Bool) : (s.queueWb cw d p).offMem = s.offMem := by
  unfold State.queueWb
  dsimp only
  exact ite_offMem (by simp) (ite_offMem (by rw [State.offMem_mem]; simp) (by rw [State.offMem_mem]; simp))

@[simp] theorem State.declareHard_offMem (s : State) (a i master node dev : Nat) (inj : Bool) : (s.declareHard a i master node dev inj).offMem = s.offMem := by
  unfold State.declareHard
  dsimp only
  refine ite_offMem (by simp) ?_
  split <;> simp

@[simp] theorem State.dropWb_offMem (s : State) (cw : Nat) (b : Bool) : (s.dropWb cw b).offMem = s.offMem := by
  unfold State.dropWb
  dsimp only
  rw [State.offMem_mem, State.modSc_offMem]
  exact ite_offMem (by simp) rfl

@[simp] theorem State.devSeen_offMem (s : State) (a i inst master : Nat) (inj : Bool) (d : Nat) : (s.devSeen a i inst master inj d).offMem = s.offMem := by
  unfold State.devSeen State.devCount
  dsimp only
  exact ite_offMem (by simp) (by simp)

@[simp] theorem State.countCorrected_offMem (s : State) (a i inst master : Nat) (errs : List (Nat × Nat)) :
    (s.countCorrected a i inst master errs).offMem = s.offMem := by
  unfold State.countCorrected
  rw [foldl_offMem _ fun s d => State.devSeen_offMem _ _ _ _ _ _ _, State.inc_offMem]

@[simp] theorem State.corrected_offMem (s : State) (a : Nat) (d : Bytes) (errs : List (Nat × Nat)) (master node : Nat) (rmw : Bool) :
    (s.corrected a d errs master node rmw).offMem = s.offMem := by
  unfold State.corrected
  extract_lets cw i devs dev0 inj s1 inst known s2 s3 full old s4 s5 wb s6
  have h1 : s1.offMem = s.offMem := State.inc_offMem _ _
  have h2 : s2.offMem = s.offMem := ite_offMem ((State.closeRunOf_offMem _ _ _).trans h1) h1
  have h3 : s3.offMem = s.offMem := (State.recordRun_offMem _ _).trans h2
  have h4 : s4.offMem = s.offMem := ite_offMem ((State.closeRecs_offMem _ _).trans ((State.inc_offMem _ _).trans h3)) h3
  have h5 : s5.offMem = s.offMem := by
    simp only [s5]
    clear_value s4 s3 s2 known
    split
    · exact (State.modSc_offMem _ _ _).trans h4
    · exact (State.modSc_offMem _ _ _).trans h3
  have h6 : s6.offMem = s.offMem := ite_offMem ((State.queueWb_offMem _ _ _ _).trans h5) ((State.declareHard_offMem _ _ _ _ _ _ _).trans h5)
  exact (foldl_offMem _ (fun s d => State.devSeen_offMem _ _ _ _ _ _ _) _ _).trans h6

@[simp] theorem State.readCw_offMem (s : State) (a master node : Nat) (errs errs2 : List (Nat × Nat)) (rmw patrol : Bool) :
    (s.readCw a master node errs errs2 rmw patrol).2.2.offMem = s.offMem := by
  unfold State.readCw
  dsimp only
  split
  · exact foldl_offMem _ (fun s k => State.p_offMem _ _ _) _ _
  · split
    · rfl
    · exact ite_offMem (by simp) (by simp)
    · simp
    · split
      · simp
      · simp
      · rw [State.declareHard_offMem]
        cases rmw <;> simp

/-! ## Writes -/

@[simp] theorem State.wcrcInj_offMem (s : State) (i : Nat) : (s.wcrcInj i).offMem = s.offMem := by
  unfold State.wcrcInj
  exact ite_offMem (by simp) rfl

@[simp] theorem State.issueCw_offMem (s : State) (cw : Nat) (d : Bytes) (px : List Nat) : (s.issueCw cw d px).offMem = s.offMem := by
  unfold State.issueCw
  dsimp only
  refine ite_offMem (by simp) ?_
  rw [State.wcrcInj_offMem, State.modSc_offMem]
  exact ite_offMem (by simp) (by simp)

@[simp] theorem State.issueReq_offMem (s : State) (r : MReq) : (s.issueReq r).offMem = s.offMem := by
  unfold State.issueReq
  dsimp only
  exact ite_offMem (by simp) (by simp)

/-! ## What enters the queues -/

@[simp] theorem State.writeEnter_offMem (s : State) (i : Nat) (r : MReq) : (s.writeEnter i r).offMem = s.offMem := by
  have h := s.dropWb_offMem (r.a / 64) (r.master == 7)
  unfold State.writeEnter
  dsimp only
  generalize s.dropWb (r.a / 64) (r.master == 7) = t at h ⊢
  split
  · rw [State.modSc_offMem, h]
  · rw [State.offMem_mem]
    exact ite_offMem (by simp [h]) (by simp [h])

@[simp] theorem State.takeWrite_offMem (s : State) (i : Nat) (r : MReq) : (s.takeWrite i r).offMem = s.offMem :=
  ite_offMem (State.writeEnter_offMem _ _ _) (s.offMem_mem _)

@[simp] theorem State.readEnter_offMem (s : State) (i : Nat) (r : MReq) : (s.readEnter i r).2.offMem = s.offMem := by
  unfold State.readEnter State.putRead State.orderBank
  split
  · exact State.inc_offMem _ _
  · rw [State.modMem_offMem, State.modSc_offMem]
    exact ite_offMem (State.modSc_offMem _ _ _) rfl

@[simp] theorem State.answer1_offMem (s : State) (r : MReq) (d : Option Bytes) : (s.answer1 r d).offMem = s.offMem := ite_offMem rfl (State.emit_offMem _ _)

@[simp] theorem State.takeRead_offMem (s : State) (i : Nat) (r : MReq) : (s.takeRead i r).offMem = s.offMem := by
  have h := s.readEnter_offMem i r
  unfold State.takeRead
  generalize s.readEnter i r = x at h
  obtain ⟨d, t⟩ := x
  cases d with
  | some d => exact (State.answer1_offMem _ _ _).trans h
  | none => exact h

@[simp] theorem State.enterHeld_offMem (s : State) (i : Nat) : (s.enterHeld i).offMem = s.offMem := by
  unfold State.enterHeld
  refine foldl_carried_offMem Prod.fst _ (fun x r => ?_) _ _
  obtain ⟨s, rd, wr⟩ := x
  dsimp only
  generalize ((if r.wr = true then wr else rd) || !s.hasRoom i r) = c
  cases c
  · exact ite_offMem (by simp) (by simp)
  · rfl

/-! ## What serves the queues -/

@[simp] theorem State.merged_offMem (s : State) (i : Nat) (r : MReq) (errs errs2 : List (Nat × Nat)) : (s.merged i r errs errs2).2.offMem = s.offMem := by
  have hr := s.readCw_offMem (r.a / 64 * 64) r.master r.node errs errs2 true false
  unfold State.merged
  generalize s.readCw (r.a / 64 * 64) r.master r.node errs errs2 true false = x at hr
  obtain ⟨d, raw, t⟩ := x
  dsimp only at hr ⊢
  rw [State.modSc_offMem]
  split <;> simp [hr]

@[simp] theorem State.serveRead_offMem (s : State) (i : Nat) (r : MReq) (errs errs2 : List (Nat × Nat)) : (s.serveRead i r errs errs2).2.offMem = s.offMem := by
  unfold State.serveRead State.served
  dsimp only
  split
  · rw [State.enterHeld_offMem, State.merged_offMem, State.modSc_offMem, State.modSc_offMem]
  · rw [State.enterHeld_offMem, State.answer1_offMem, State.readCw_offMem, State.modSc_offMem, State.modSc_offMem]

@[simp] theorem State.serveWrite_offMem (s : State) (i : Nat) (r : MReq) : (s.serveWrite i r).offMem = s.offMem := by
  unfold State.serveWrite State.served
  simp

@[simp] theorem State.refIssue_offMem (s : State) (i k : Nat) : (s.refIssue i k).offMem = s.offMem := ite_offMem (State.modSc_offMem _ _ _) rfl

@[simp] theorem State.serveNext_offMem (s : State) (i : Nat) : (s.serveNext i).2.offMem = s.offMem := by
  unfold State.serveNext State.drainUpdate
  dsimp only
  split
  · simp
  · split <;> simp

@[simp] theorem State.awaitRoom_offMem (n i : Nat) (r : MReq) (s : State) : (State.awaitRoom n i r s).offMem = s.offMem := by
  induction n generalizing s with
  | zero => rfl
  | succ n ih =>
    unfold State.awaitRoom
    exact ite_offMem rfl (by rw [ih, State.serveNext_offMem])

@[simp] theorem State.awaitRead_offMem (n i q : Nat) (s : State) : (State.awaitRead n i q s).2.offMem = s.offMem := by
  induction n generalizing s with
  | zero => rfl
  | succ n ih =>
    have hn := s.serveNext_offMem i
    unfold State.awaitRead
    generalize s.serveNext i = x at hn
    obtain ⟨a, t⟩ := x
    rcases a with _ | ⟨k, d⟩
    · exact (ih t).trans hn
    · dsimp only
      split
      · exact hn
      · exact (ih t).trans hn

/-! ## Accesses of the device's own masters -/

@[simp] theorem State.writePiece_offMem (s : State) (x : Nat) (b : Bytes) (master node : Nat) : (s.writePiece x b master node).2.offMem = s.offMem := by
  unfold State.writePiece
  dsimp only
  split
  · exact ite_offMem (by simp) rfl
  · split
    · simp
    · split
      · rfl
      · split
        · split <;> simp
        · simp

/-- A write of one of the device's own masters leaves all but the DRAM subsystem as it is. -/
@[simp] theorem State.dramWrite_offMem (s : State) (a : Nat) (b : Bytes) (master node : Nat) : (s.dramWrite a b master node).2.offMem = s.offMem := by
  unfold State.dramWrite
  refine foldl_carried_offMem Prod.snd _ (fun x p => ?_) _ _
  exact State.writePiece_offMem x.2 _ _ _ _

end Sys2Proof.Machine
end

section
/-!
PROOF. O27, ingress (R44, R46, R348, R351): what becomes of a quire-data frame that reaches the endpoint.
-/

namespace Sys2Proof.Machine

/-! ## The store -/

/-- Storing a quire's bytes leaves the quire block as it is. -/
@[simp] theorem State.storeQuire_qre (s : State) (pages : List Nat) (b : Bytes) (node : Nat) : (s.storeQuire pages b node).qre = s.qre :=
  offMem_qre (foldl_offMem _ (fun _ _ => State.dramWrite_offMem _ _ _ _ _) _ _)

/-! ## A frame at the endpoint -/

section
variable (s : State) (p : Nat) (f : Frame)

/-- A frame that joins the endpoint's queue changes the Spine block alone. -/
theorem State.qdArrive_eq : s.qdArrive p f = { s with spn := (s.qdArrive p f).spn } := by
  unfold State.qdArrive
  split <;> rfl

@[simp] theorem State.qdArrive_qre : (s.qdArrive p f).qre = s.qre := by rw [State.qdArrive_eq]
@[simp] theorem State.qdArrive_err : (s.qdArrive p f).err = s.err := by rw [State.qdArrive_eq]
@[simp] theorem State.qdArrive_qdTaken : (s.qdArrive p f).qdTaken = s.qdTaken := by rw [State.qdArrive_eq]; rfl
@[simp] theorem State.qdArrive_slotOf (src : Nat) : (s.qdArrive p f).slotOf src = s.slotOf src := by rw [State.qdArrive_eq]; rfl
@[simp] theorem State.qdArrive_quire (sig c first : Nat) : (s.qdArrive p f).quire sig c first = s.quire sig c first := by rw [State.qdArrive_eq]; rfl
@[simp] theorem State.qdArrive_sRef : (s.qdArrive p f).sRef = s.sRef := by rw [State.qdArrive_eq]; rfl

end

section
variable {s : State} {p : Nat} {f : Frame}

/-- A frame ends no quire where ingress is closed, it opens none, or its source has none open. -/
theorem State.qdEnd_none (h : s.qdTaken = false ∨ f.soq = false ∨ s.slotOf f.src = none) : s.qdEnd f = s := by
  unfold State.qdEnd
  rcases h with h | h | h <;> simp [h]

/-- A frame that ends no quire is held where ingress cannot take it. -/
theorem State.qdOffer_held (h : s.qdTaken = false ∨ f.soq = false ∨ s.slotOf f.src = none) (hi : s.ingressFrame p f = none) : s.qdOffer p f = (s, true) := by
  unfold State.qdOffer
  simp [State.qdEnd_none h, hi]

/-- A frame that ends no quire leaves the endpoint where ingress takes it. -/
theorem State.qdOffer_taken {t : State} (h : s.qdTaken = false ∨ f.soq = false ∨ s.slotOf f.src = none) (hi : s.ingressFrame p f = some t) :
    s.qdOffer p f = (t.consume p f, false) := by
  unfold State.qdOffer
  simp [State.qdEnd_none h, hi]

theorem State.qdReceive_refused (h : s.refuses p f = true) : s.qdReceive p f = s.filtered p f := by
  unfold State.qdReceive
  rw [if_pos h]

theorem State.qdReceive_behind (h : s.refuses p f = false) (hb : (s.qdArrive p f).qdBehind p f = true) : s.qdReceive p f = s.qdArrive p f := by
  simp [State.qdReceive, h, hb]

theorem State.qdReceive_offered (h : s.refuses p f = false) (hb : (s.qdArrive p f).qdBehind p f = false) :
    s.qdReceive p f = ((s.qdArrive p f).qdOffer p f).1 := by
  simp [State.qdReceive, h, hb]

/-- A frame that ends no quire and cannot be taken waits, behind another or first. -/
theorem State.qdReceive_held (h : s.refuses p f = false)
    (hw : (s.qdArrive p f).qdBehind p f = true ∨ (s.qdTaken = false ∨ f.soq = false ∨ s.slotOf f.src = none) ∧ (s.qdArrive p f).ingressFrame p f = none) :
    s.qdReceive p f = s.qdArrive p f := by
  cases hb : (s.qdArrive p f).qdBehind p f with
  | true => exact State.qdReceive_behind h hb
  | false =>
    obtain ⟨he, hi⟩ := hw.resolve_left (by simp [hb])
    rw [State.qdReceive_offered h hb, State.qdOffer_held (by simpa using he) hi]

/-- A frame that ends no quire and is taken. -/
theorem State.qdReceive_taken {t : State} (h : s.refuses p f = false) (hb : (s.qdArrive p f).qdBehind p f = false)
    (he : s.qdTaken = false ∨ f.soq = false ∨ s.slotOf f.src = none) (hi : (s.qdArrive p f).ingressFrame p f = some t) :
    s.qdReceive p f = t.consume p f := by
  rw [State.qdReceive_offered h hb, State.qdOffer_taken (by simpa using he) hi]

/-- A single frame in the queue is offered again. -/
theorem State.ingressAgain_one (hb : s.spn.inbox = [(p, f)]) (hf : f.ty = FT.QD) : s.ingressAgain = (s.qdOffer p f).1 := by
  unfold State.ingressAgain
  simp [hb, hf]

/-- A continuation frame with no quire of its source open counts and is dropped (R348). -/
theorem State.ingressFrame_stray (hq : s.qdTaken = true) (hs : f.soq = false) (ho : s.slotOf f.src = none) :
    s.ingressFrame p f = some (s.inc F.SPN_CNT_QDSEQ_COUNT) := by
  simp [State.ingressFrame, hq, hs, ho]

end

/-- Without a current signature no length is fixed. -/
theorem State.lenFixed_idle {s : State} (h : s.gth.cur = none) : s.lenFixed = s := by
  unfold State.lenFixed
  rw [h]

/-! ## A whole quire -/

/-- The slot of a quire that came in one frame and whose header is accepted. -/
def wholeSlot (f : Frame) (pages : List Nat) : Slot := { src := f.src, buf := f.payload, verdict := .accept pages }

/-- The directory entry of a quire received in a slot, on its pages. -/
def Slot.entry (x : Slot) (pages : List Nat) (order : Nat) : Quire :=
  let h := parseQHdr x.buf
  { sig := h.sig, ctx := h.ctxByte % 128, first := h.first, count := h.count, bpn := h.bpn, isStored := bitOf h.flags 0, last := bitOf h.flags 1,
    flush := bitOf h.flags 2, clen := h.clen, src := x.src, pages, order, st := .stored }

/-- A source's reassembly slot is free again. -/
def State.slotFree (s : State) (src : Nat) : State := s.modQre fun y => { y with slots := y.slots.filter fun z => z.src != src }

/-- A frame with all of a quire whose header is accepted is received to its end. -/
theorem State.ingressFrame_whole {s : State} {p : Nat} {f : Frame} {pages : List Nat} (hq : s.qdTaken = true) (hs : f.soq = true) (h0 : s.qre.slots = [])
    (hl : f.payload.length = 40 + (parseQHdr f.payload).clen) (ha : s.ingressHeader f.src f.payload p = (.accept pages, s)) :
    s.ingressFrame p f = some ((s.modQre fun y => { y with slots := [wholeSlot f pages] }).ingressDone (wholeSlot f pages) false) := by
  have h32 : 32 ≤ 40 + (parseQHdr f.payload).clen := by omega
  have ho : s.slotOf f.src = none := by simp [State.slotOf, h0]
  have hput : (s.modQre fun y => { y with slots := y.slots.filter (fun z => z.src != f.src) ++ [wholeSlot f pages] })
      = s.modQre fun y => { y with slots := [wholeSlot f pages] } := by simp [State.modQre, h0]
  rw [← hput]
  simp [State.ingressFrame, State.slotAdd, hq, hs, ho, h0, ha, hl, h32, wholeSlot]

/-- A quire received with a good payload CRC, of a key that is new and of a signature that is neither below the reference nor aborted, stands in the directory. -/
theorem State.ingressDone_new {s : State} {x : Slot} {pages : List Nat} (hv : x.verdict = .accept pages) (hi : s.err.inj = none)
    (hn : s.quire (parseQHdr x.buf).sig ((parseQHdr x.buf).ctxByte % 128) (parseQHdr x.buf).first = none)
    (hr : ¬ sigDiff (parseQHdr x.buf).sig s.sRef < 0) (hd : (parseQHdr x.buf).sig ∉ s.qre.dead)
    (hc : crc32c (slice x.buf 32 (parseQHdr x.buf).clen) = leAt x.buf (32 + (parseQHdr x.buf).clen) 4) :
    (s.ingressDone x false).qre.dir = s.qre.dir ++ [x.entry pages s.qre.order] ∧
      (s.ingressDone x false).qre.slots = s.qre.slots.filter fun z => z.src != x.src := by
  have hinj : (s.slotFree x.src).injAny 2 = false := State.injAny_of_none (s := s.slotFree x.src) hi 2
  have hnew : (s.slotFree x.src).quire (parseQHdr x.buf).sig ((parseQHdr x.buf).ctxByte % 128) (parseQHdr x.buf).first = none := hn
  have href : (s.slotFree x.src).sRef = s.sRef := rfl
  have hdead : (s.slotFree x.src).qre.dead.contains (parseQHdr x.buf).sig = false := by
    simpa using (show (parseQHdr x.buf).sig ∉ (s.slotFree x.src).qre.dead from hd)
  have hfree : (s.modQre fun y => { y with slots := y.slots.filter fun z => z.src != x.src }) = s.slotFree x.src := rfl
  unfold State.ingressDone
  simp only [hv, hfree, hinj, hnew, href, hdead, hr, hc, Option.isSome_none, Bool.false_eq_true, if_false, ne_eq, not_true_eq_false, or_self, decide_false, false_and]
  simp [State.modQre, Slot.entry, State.slotFree]

/-- A whole new quire in one frame: taken, on its pages, with its slot free again. -/
theorem State.ingressFrame_new {s : State} {p : Nat} {f : Frame} {pages : List Nat} (hq : s.qdTaken = true) (hs : f.soq = true) (h0 : s.qre.slots = [])
    (hi : s.err.inj = none) (hl : f.payload.length = 40 + (parseQHdr f.payload).clen) (ha : s.ingressHeader f.src f.payload p = (.accept pages, s))
    (hn : s.quire (parseQHdr f.payload).sig ((parseQHdr f.payload).ctxByte % 128) (parseQHdr f.payload).first = none)
    (hr : ¬ sigDiff (parseQHdr f.payload).sig s.sRef < 0) (hd : (parseQHdr f.payload).sig ∉ s.qre.dead)
    (hc : crc32c (slice f.payload 32 (parseQHdr f.payload).clen) = leAt f.payload (32 + (parseQHdr f.payload).clen) 4) :
    ∃ t, s.ingressFrame p f = some t ∧ t.qre.dir = s.qre.dir ++ [(wholeSlot f pages).entry pages s.qre.order] ∧ t.qre.slots = [] := by
  obtain ⟨hdir, hslots⟩ := State.ingressDone_new (s := s.modQre fun y => { y with slots := [wholeSlot f pages] }) (x := wholeSlot f pages) (pages := pages) rfl hi hn hr hd hc
  refine ⟨_, State.ingressFrame_whole hq hs h0 hl ha, hdir, hslots.trans ?_⟩
  simp [State.modQre]

theorem exec_qdFrameReceive (s : State) (p : Fin 5) (f : Frame) : exec (.qdFrameReceive p f) s = s.does fun s => (s.qdReceive p f).lenFixed := rfl

theorem exec_ingressResume (s : State) : exec .ingressResume s = s.does fun s => s.ingressAgain.lenFixed := rfl

/-- A frame's outcome at the endpoint is its command's. -/
theorem exec_qdFrameReceive_of {s t : State} {p : Fin 5} {f : Frame} (h : s.begun.qdReceive p f = t) :
    exec (.qdFrameReceive p f) s = .next (s.after t.lenFixed) := by
  rw [exec_qdFrameReceive, ← h]
  rfl

/-- Settles O27: each case of what ingress does with a frame; a whole quire by what its last byte brings. -/
theorem quireIngress : Obligations.QuireIngress := by
  unfold Obligations.QuireIngress
  intro s p f pages
  dsimp only
  refine ⟨fun h => ?_, fun x => State.lenFixed_idle, fun h hw => ?_, fun h hq hs ho hb => ?_, fun hf hin he => ⟨fun t hi => ?_, fun hi => ?_⟩,
    fun h hq hs h0 hi hl hb ha hn hr hd hc => ?_⟩
  · exact exec_qdFrameReceive_of (State.qdReceive_refused h)
  · exact exec_qdFrameReceive_of (State.qdReceive_held h hw)
  · exact exec_qdFrameReceive_of (State.qdReceive_taken h hb (.inr (.inl hs)) (State.ingressFrame_stray (by simpa using hq) hs (by simpa using ho)))
  · rw [exec_ingressResume]
    have hone : s.begun.ingressAgain = t.consume p f := by rw [State.ingressAgain_one (s := s.begun) hin hf, State.qdOffer_taken (s := s.begun) he hi]
    exact State.does_eq (congrArg State.lenFixed hone)
  · rw [exec_ingressResume]
    have hone : s.begun.ingressAgain = s.begun := by rw [State.ingressAgain_one (s := s.begun) hin hf, State.qdOffer_held (s := s.begun) he hi]
    exact State.does_eq (congrArg State.lenFixed hone)
  · have ho : s.slotOf f.src = none := by simp [State.slotOf, h0]
    obtain ⟨t, ht, hdir, hslots⟩ := State.ingressFrame_new (s := s.begun.qdArrive p f) (by simpa using hq) hs (by simpa using h0) (by simpa using hi) hl ha
      (by simpa using hn) (by simpa using hr) (by simpa using hd) hc
    rw [State.qdArrive_qre, State.begun_qre] at hdir
    exact ⟨t, _, exec_qdFrameReceive_of (State.qdReceive_taken h hb (.inr (.inr ho)) ht), hdir, rfl, rfl, rfl, rfl, rfl, rfl, rfl, rfl, hslots⟩

end Sys2Proof.Machine
end

section
/-!
SUPPORT. Laws of gathering's levels (R72, R80, R91 to R97): columns and ranks, a level after one is set, pass substitution's walk, the shares of tipping-in.
-/

namespace Sys2Proof.Machine

/-! ## Columns and levels -/

/-- Nozzle, rank and column agree under every layout (R72): 1, 2 and 4 ranks to a colour. -/
theorem nozzleAt_columnOf (lay q : Nat) : nozzleAt lay (groupOf lay (q / 1024)) (columnOf lay (q / 1024) (q % 1024)) = q := by
  have hk : layoutK lay = 1 ∨ layoutK lay = 2 ∨ layoutK lay = 4 := by
    unfold layoutK
    split
    · exact .inl rfl
    · split <;> simp
  unfold nozzleAt groupOf columnOf
  rcases hk with h | h | h <;> rw [h] <;> omega

section
variable (l : Levels) (c n v : Nat)

theorem lv_lvSet_same : lv (lvSet l c n v) c = (lv l c).map fun x => x.set n v := spGet_spMod_same _ _ _ _

theorem lv_lvSet_ne {c' : Nat} (h : c' ≠ c) : lv (lvSet l c n v) c' = lv l c' := spGet_spMod_ne _ _ _ _ _ h

/-- A level set in a context-line that is not blank is read back. -/
theorem lvAt_lvSet_same {xs : List Nat} (h : lv l c = some xs) (hn : n < xs.length) : lvAt (lvSet l c n v) c n = v := by
  simp [lvAt, lv_lvSet_same, h, hn]

/-- Setting a level leaves every other one alone. -/
theorem lvAt_lvSet_ne {c' n' : Nat} (h : (c', n') ≠ (c, n)) : lvAt (lvSet l c n v) c' n' = lvAt l c' n' := by
  by_cases hc : c' = c
  · subst hc
    have hn : n ≠ n' := fun hn => h (by rw [hn])
    unfold lvAt
    rw [lv_lvSet_same]
    cases lv l c' with
    | none => rfl
    | some xs => simp [List.getElem?_set_ne hn]
  · unfold lvAt
    rw [lv_lvSet_ne _ _ _ _ hc]

end

/-- A code becomes the level its set gives, itself at three bits (R80). -/
theorem State.expand_levels (s : State) (m r code : Nat) :
    let k := bitsOf (s.act (F.GTH_MODCFG_EXP m).addr) (21 + 2 * r) (20 + 2 * r)
    s.expand m r 3 code = code ∧ s.expand m r 1 0 = 0 ∧ s.expand m r 2 0 = 0 ∧ s.expand m r 1 1 = s.g (F.GTH_EXPSET_L1C1 k) ∧ s.expand m r 2 1 = s.g (F.GTH_EXPSET_L2C1 k) ∧
      s.expand m r 2 2 = s.g (F.GTH_EXPSET_L2C2 k) ∧ s.expand m r 2 3 = s.g (F.GTH_EXPSET_L2C3 k) :=
  ⟨rfl, rfl, rfl, rfl, rfl, rfl, rfl⟩

/-! ## Pass substitution -/

section
variable {p i pd c : Nat}

/-- A walk that is back at its start after c steps repeats every c steps. -/
theorem walk_period (hc : (pd + c * i) % p = pd) (n : Nat) : (pd + n * i) % p = (pd + n % c * i) % p := by
  have he : c * i = p * ((pd + c * i) / p) := by
    have h := Nat.div_add_mod (pd + c * i) p
    omega
  calc (pd + n * i) % p = (pd + (n % c + c * (n / c)) * i) % p := by rw [Nat.mod_add_div]
    _ = (pd + (n % c * i + c * i * (n / c))) % p := by rw [Nat.add_mul, Nat.mul_right_comm c]
    _ = (pd + n % c * i + p * ((pd + c * i) / p * (n / c))) % p := by rw [he, Nat.mul_assoc, Nat.add_assoc, ← he]
    _ = (pd + n % c * i) % p := Nat.add_mul_mod_self_left _ _ _

/-- The walk of pass substitution (R91): it ends at its start once it has come round with every band flagged, else at the first band that is not flagged. -/
theorem passTarget_walk (flagged : Nat → Bool) (hp : pd < p) (fuel n : Nat) (hn : n + fuel = p) (hf : ∀ k < n, flagged ((pd + k * i) % p) = true) :
    let t := passTarget flagged p i pd fuel ((pd + n * i) % p)
    (t.2 = true → t.1 = pd ∧ ∃ c, 0 < c ∧ (pd + c * i) % p = pd ∧ ∀ k < c, flagged ((pd + k * i) % p) = true) ∧
    (t.2 = false → ∃ n, t.1 = (pd + n * i) % p ∧ flagged t.1 = false ∧ ∀ k < n, flagged ((pd + k * i) % p) = true) := by
  induction fuel generalizing n with
  | zero =>
    obtain rfl : n = p := hn
    refine ⟨fun _ => ⟨rfl, n, by omega, ?_, hf⟩, fun h => by simp [passTarget] at h⟩
    rw [Nat.add_mul_mod_self_left, Nat.mod_eq_of_lt hp]
  | succ fuel ih =>
    have hnext : ((pd + n * i) % p + i) % p = (pd + (n + 1) * i) % p := by rw [Nat.mod_add_mod, Nat.add_mul, Nat.one_mul, Nat.add_assoc]
    unfold passTarget
    dsimp only
    rw [hnext]
    cases hb : flagged ((pd + n * i) % p) with
    | false => exact ⟨fun h => by simp at h, fun _ => ⟨n, rfl, hb, hf⟩⟩
    | true =>
      have hf' : ∀ k < n + 1, flagged ((pd + k * i) % p) = true := fun k hk => by
        rcases Nat.lt_succ_iff_lt_or_eq.1 hk with hk | rfl
        · exact hf k hk
        · exact hb
      by_cases hr : (pd + (n + 1) * i) % p = pd
      · rw [if_neg (by decide), if_pos hr]
        exact ⟨fun _ => ⟨rfl, n + 1, by omega, hr, hf'⟩, fun h => by simp at h⟩
      · rw [if_neg (by decide), if_neg hr]
        exact ih (n + 1) (by omega) hf'

/-- Where pass substitution sends a pixel (R91): nowhere else exactly if its whole cycle is flagged, else to the first band that is not. -/
theorem passTarget_spec (flagged : Nat → Bool) (hp : pd < p) : let t := passTarget flagged p i pd p pd
    (t.2 = true ↔ ∀ n, flagged ((pd + n * i) % p) = true) ∧ (t.2 = true → t.1 = pd) ∧
    (t.2 = false → ∃ n, t.1 = (pd + n * i) % p ∧ flagged t.1 = false ∧ ∀ k < n, flagged ((pd + k * i) % p) = true) := by
  obtain ⟨hround, hfound⟩ := passTarget_walk (i := i) flagged hp p 0 (by omega) (fun k hk => absurd hk (by omega))
  rw [Nat.zero_mul, Nat.add_zero, Nat.mod_eq_of_lt hp] at hround hfound
  refine ⟨⟨fun h n => ?_, fun h => ?_⟩, fun h => (hround h).1, hfound⟩
  · obtain ⟨-, c, hc, hback, hall⟩ := hround h
    rw [walk_period hback]
    exact hall _ (Nat.mod_lt _ hc)
  · cases ht : (passTarget flagged p i pd p pd).2 with
    | true => rfl
    | false =>
      obtain ⟨n, hn, hfree, -⟩ := hfound ht
      rw [hn, h n] at hfree
      exact absurd hfree (by decide)

end

/-! ## Kettle stitch -/

section
variable {s : State} {l : Levels} {sm r i u : Nat} {sel oth : Nat × Nat}

/-- One position of a seam, by the nozzle it selects and the other: a takeover sets two levels, anything else the other nozzle's alone. -/
theorem State.stitchAt_eq (hs : sel = if s.stitchBit sm i u then (sm, 1024 - s.g (F.GTH_SEAM_OVL sm) + i) else (sm + 1, i))
    (ho : oth = if s.stitchBit sm i u then (sm + 1, i) else (sm, 1024 - s.g (F.GTH_SEAM_OVL sm) + i)) :
    s.stitchAt l sm r i u =
      if nzDead (s.nz sel.1 (1024 * r + sel.2)) && nzUsable (s.nz oth.1 (1024 * r + oth.2)) && (lv l (4 * oth.1 + r)).isSome && (lv l (4 * sel.1 + r)).isSome then
        (lvSet (lvSet l (4 * oth.1 + r) oth.2 (lvAt l (4 * sel.1 + r) sel.2)) (4 * sel.1 + r) sel.2 0, 1)
      else (lvSet l (4 * oth.1 + r) oth.2 0, 0) := by
  subst hs ho
  unfold State.stitchAt
  cases s.stitchBit sm i u <;> rfl

/-- The two nozzles of a position belong to different contexts, and each is one of its context-line. -/
theorem stitch_pair {o : Nat} (b : Bool) (hs : sel = if b then (sm, 1024 - o + i) else (sm + 1, i)) (ho : oth = if b then (sm + 1, i) else (sm, 1024 - o + i))
    (hi : i < o) (hm : o ≤ 1024) : sel.1 ≠ oth.1 ∧ sel.2 < 1024 ∧ oth.2 < 1024 := by
  subst hs ho
  cases b <;> simp <;> omega

end

/-- A level that moves from one context-line to another, and every other level as it was. -/
theorem lvAt_moved {l : Levels} {cs co ns no : Nat} {xs ys : List Nat} (hne : cs ≠ co) (hs : lv l cs = some xs) (ho : lv l co = some ys)
    (hns : ns < xs.length) (hno : no < ys.length) (v : Nat) :
    let t := lvSet (lvSet l co no v) cs ns 0
    lvAt t co no = v ∧ lvAt t cs ns = 0 ∧ ∀ c n, (c, n) ≠ (cs, ns) → (c, n) ≠ (co, no) → lvAt t c n = lvAt l c n := by
  have hs' : lv (lvSet l co no v) cs = some xs := (lv_lvSet_ne _ _ _ _ hne).trans hs
  refine ⟨?_, lvAt_lvSet_same _ _ _ _ hs' hns, fun c n h1 h2 => ?_⟩
  · rw [lvAt_lvSet_ne _ _ _ _ fun h => hne (congrArg Prod.fst h).symm]
    exact lvAt_lvSet_same _ _ _ _ ho hno
  · rw [lvAt_lvSet_ne _ _ _ _ h1, lvAt_lvSet_ne _ _ _ _ h2]

/-! ## Saturation -/

theorem satN_le (hi v : Nat) : satN hi v ≤ hi := by unfold satN; split <;> omega

theorem satN_eq_min (hi v : Nat) : satN hi v = Nat.min hi v := by
  show satN hi v = min hi v
  unfold satN
  split <;> omega

/-! ## Tipping-in -/

/-- Whether a dead nozzle stands at a column of colour group g of module m. -/
def State.deadAt (s : State) (m g : Nat) (j : Int) : Bool :=
  decide (0 ≤ j) && decide (j < (1024 * layoutK (s.layout m) : Nat)) && nzDead (s.nz m (nozzleAt (s.layout m) g j.toNat))

/-- Whether a nozzle that can take a share stands at a column: usable, its context-line not blank. -/
def State.takesAt (s : State) (l : Levels) (m g : Nat) (j : Int) : Bool :=
  let q := nozzleAt (s.layout m) g j.toNat
  decide (0 ≤ j) && decide (j < (1024 * layoutK (s.layout m) : Nat)) && (nzUsable (s.nz m q) && (lv l (4 * m + q / 1024)).isSome)

theorem State.deadAt_iff (s : State) (m g : Nat) (j : Int) : s.deadAt m g j = true ↔
    0 ≤ j ∧ j < (1024 * layoutK (s.layout m) : Nat) ∧ nzDead (s.nz m (nozzleAt (s.layout m) g j.toNat)) = true := by
  simp [State.deadAt, and_assoc]

theorem State.takesAt_iff (s : State) (l : Levels) (m g : Nat) (j : Int) : s.takesAt l m g j = true ↔
    0 ≤ j ∧ j < (1024 * layoutK (s.layout m) : Nat) ∧ nzUsable (s.nz m (nozzleAt (s.layout m) g j.toNat)) = true ∧
      (lv l (4 * m + nozzleAt (s.layout m) g j.toNat / 1024)).isSome = true := by
  simp [State.takesAt, and_assoc]

/-- The weight that the dead nozzle q of module m gives to an offset. -/
def State.tipWeight (s : State) (m q : Nat) (d : Int) : Nat := (((s.weights (bitsOf (s.nz m q) 28 25)).find? fun y => y.1 == d).map (·.2)).getD 0

section
variable {s : State} {l : Levels} {m g j u : Nat}

/-- Where no dead nozzle stands within two columns nothing is given. -/
theorem sumL_offsets_zero {f : Int → Nat} (h : ∀ d ∈ [(-2 : Int), -1, 1, 2], f d = 0) : sumL ([(-2 : Int), -1, 1, 2].map f) = 0 := by
  simp only [List.mem_cons, List.not_mem_nil, or_false, forall_eq_or_imp, forall_eq] at h
  obtain ⟨h1, h2, h3, h4⟩ := h
  simp [sumL, h1, h2, h3, h4]

/-- A sum over the four offsets of which one alone gives something. -/
theorem sumL_offsets_one {f : Int → Nat} {d : Int} (hd : d ∈ [(-2 : Int), -1, 1, 2]) (h : ∀ e ∈ [(-2 : Int), -1, 1, 2], e ≠ d → f e = 0) :
    sumL ([(-2 : Int), -1, 1, 2].map f) = f d := by
  simp only [List.mem_cons, List.not_mem_nil, or_false, forall_eq_or_imp, forall_eq] at h hd
  obtain ⟨h1, h2, h3, h4⟩ := h
  rcases hd with rfl | rfl | rfl | rfl
  · simp [sumL, h2 (by decide), h3 (by decide), h4 (by decide)]
  · simp [sumL, h1 (by decide), h3 (by decide), h4 (by decide)]
  · simp [sumL, h1 (by decide), h2 (by decide), h4 (by decide)]
  · simp [sumL, h1 (by decide), h2 (by decide), h3 (by decide)]

/-- The share that the nozzle at offset -d of column j gives (R95, R96): none where it is not dead; its weight for the other side too where none takes that. -/
def State.tipFrom (s : State) (l : Levels) (m g j u : Nat) (d : Int) : Nat :=
  let q := nozzleAt (s.layout m) g ((j : Int) - d).toNat
  if s.deadAt m g (j - d) then
    (lvAt l (4 * m + q / 1024) (q % 1024) * (s.tipWeight m q d + if s.takesAt l m g (j - d - d) then 0 else s.tipWeight m q (-d)) + s.dt (u % 64) (j % 64) / 50) / 8
  else 0

/-- What tipping-in gives a nozzle is the shares of the four columns around it. -/
theorem State.tipInto_eq : s.tipInto l m g j u = sumL ([-2, -1, 1, 2].map (s.tipFrom l m g j u)) := by
  unfold State.tipInto
  refine congrArg sumL (List.map_congr_left fun d _ => ?_)
  unfold State.tipFrom State.deadAt
  dsimp only
  by_cases hin : (j : Int) - d < 0 ∨ ((1024 * layoutK (s.layout m) : Nat) : Int) ≤ j - d
  · have hout : (decide (0 ≤ (j : Int) - d) && decide ((j : Int) - d < (1024 * layoutK (s.layout m) : Nat))) = false := by
      simp only [Bool.and_eq_false_iff, decide_eq_false_iff_not]
      omega
    rw [if_pos hin, hout]
    rfl
  · have hout : (decide (0 ≤ (j : Int) - d) && decide ((j : Int) - d < (1024 * layoutK (s.layout m) : Nat))) = true := by
      simp only [Bool.and_eq_true, decide_eq_true_eq]
      omega
    rw [if_neg hin, hout, Bool.true_and]
    cases nzDead (s.nz m (nozzleAt (s.layout m) g ((j : Int) - d).toNat)) <;> rfl

theorem State.tipFrom_zero {d : Int} (h : s.deadAt m g (j - d) = false) : s.tipFrom l m g j u d = 0 := by simp [State.tipFrom, h]

/-- The share of a dead nozzle, by the weight that acts. -/
theorem State.tipFrom_dead {w : Nat} {d : Int} (h : s.deadAt m g (j - d) = true)
    (h1 : s.takesAt l m g (j - d - d) = true → w = s.tipWeight m (nozzleAt (s.layout m) g ((j : Int) - d).toNat) d)
    (h2 : ¬ s.takesAt l m g (j - d - d) = true → w = s.tipWeight m (nozzleAt (s.layout m) g ((j : Int) - d).toNat) d + s.tipWeight m (nozzleAt (s.layout m) g ((j : Int) - d).toNat) (-d)) :
    s.tipFrom l m g j u d = (lvAt l (4 * m + nozzleAt (s.layout m) g ((j : Int) - d).toNat / 1024) (nozzleAt (s.layout m) g ((j : Int) - d).toNat % 1024) * w + s.dt (u % 64) (j % 64) / 50) / 8 := by
  unfold State.tipFrom
  dsimp only
  rw [if_pos h]
  by_cases ht : s.takesAt l m g (j - d - d) = true
  · rw [if_pos ht, h1 ht, Nat.add_zero]
  · rw [if_neg ht, h2 ht]

theorem State.tipInto_zero (h : ∀ d ∈ [(-2 : Int), -1, 1, 2], s.deadAt m g (j - d) = false) : s.tipInto l m g j u = 0 := by
  rw [State.tipInto_eq]
  exact sumL_offsets_zero fun d hd => State.tipFrom_zero (h d hd)

theorem State.tipInto_one {d : Int} (hd : d ∈ [(-2 : Int), -1, 1, 2]) (h : ∀ e ∈ [(-2 : Int), -1, 1, 2], e ≠ d → s.deadAt m g (j - e) = false) :
    s.tipInto l m g j u = s.tipFrom l m g j u d := by
  rw [State.tipInto_eq]
  exact sumL_offsets_one hd fun e he hne => State.tipFrom_zero (h e he hne)

/-- A nozzle's level after tipping-in: 0 where it is blank or unusable, else its own and what it is given, saturated. -/
theorem State.tip_getD {q : Nat} (hq : q < 4096) : (s.tip l m u).1.getD q 0 =
    if (lv l (4 * m + q / 1024)).isNone = true ∨ nzUsable (s.nz m q) = false then 0
    else satN 7 (lvAt l (4 * m + q / 1024) (q % 1024) +
      if s.gb F.GTH_CTL_TIPEN then s.tipInto l m (groupOf (s.layout m) (q / 1024)) (columnOf (s.layout m) (q / 1024) (q % 1024)) u else 0) := by
  unfold State.tip
  simp only [List.getD_eq_getElem?_getD, List.map_map, List.getElem?_map, List.getElem?_range hq, Option.map_some, Option.getD_some, Function.comp_apply, Bool.not_eq_true']
  split <;> rfl

theorem State.tip_le {q : Nat} (hq : q < 4096) : (s.tip l m u).1.getD q 0 ≤ 7 := by
  rw [State.tip_getD hq]
  split
  · omega
  · exact satN_le _ _

theorem State.tip_silent {q : Nat} (hq : q < 4096) (h : (lv l (4 * m + q / 1024)).isNone = true ∨ nzUsable (s.nz m q) = false) : (s.tip l m u).1.getD q 0 = 0 := by
  rw [State.tip_getD hq, if_pos h]

/-- A nozzle that fires takes its own level and what it is given. -/
theorem State.tip_live {q : Nat} (hq : q < 4096) (hl : (lv l (4 * m + q / 1024)).isSome = true) (hu : nzUsable (s.nz m q) = true) :
    (s.tip l m u).1.getD q 0 = satN 7 (lvAt l (4 * m + q / 1024) (q % 1024) +
      if s.gb F.GTH_CTL_TIPEN then s.tipInto l m (groupOf (s.layout m) (q / 1024)) (columnOf (s.layout m) (q / 1024) (q % 1024)) u else 0) := by
  rw [State.tip_getD hq, if_neg]
  rintro (h | h)
  · rw [Option.isNone_iff_eq_none] at h
    simp [h] at hl
  · simp [hu] at h

end

/-! ## Density trim -/

/-- The trim of a level that is not 0 (R97): the product's whole part, one more where the dither lies below its rest. -/
theorem trimLevel_pos {lev dt : Nat} {a : Int} (h : 0 < lev) :
    let x := lev * (400 + a).toNat
    trimLevel lev a dt = if dt < x % 400 then Nat.min 7 (x / 400 + 1) else Nat.min 7 (x / 400) := by
  unfold trimLevel
  rw [if_neg (by omega)]
  dsimp only
  split <;> exact satN_eq_min _ _

theorem trimLevel_le (lev dt : Nat) (a : Int) : trimLevel lev a dt ≤ 7 := by
  unfold trimLevel
  split
  · omega
  · exact satN_le _ _

/-- Without a trim a level stays. -/
theorem trimLevel_untrimmed {lev : Nat} (h : lev ≤ 7) (dt : Nat) : trimLevel lev 0 dt = lev := by
  rcases Nat.eq_zero_or_pos lev with rfl | hp
  · rfl
  · rw [trimLevel_pos hp]
    simp [h]

end Sys2Proof.Machine
end

section
/-!
PROOF. O33, steps 1 to 5 of gathering (R72, R80, R90 to R97).
-/

namespace Sys2Proof.Machine

/-- Settles O33: each step by its law; a seam's position by its two levels, tipping-in by the one share that is not 0. -/
theorem levelPipeline : Obligations.LevelPipeline := by
  unfold Obligations.LevelPipeline
  refine ⟨fun lay q _ => nozzleAt_columnOf lay q, State.expand_levels, fun flagged p i pd hp => passTarget_spec flagged hp, ?stitch, ?tip, ?trim⟩
  case stitch =>
    intro s l sm r i u xs ys
    extract_lets o a b sel oth cs co t
    intro _ hr hi ho hxs hys hx hy
    obtain ⟨hmod, hsel, hoth⟩ := stitch_pair (s.stitchBit sm i u) (show sel = _ from rfl) (show oth = _ from rfl) hi ho
    have hne : cs ≠ co := by simp only [cs, co]; omega
    have ht : t = _ := State.stitchAt_eq (l := l) (r := r) (show sel = _ from rfl) (show oth = _ from rfl)
    rw [← show cs = 4 * sel.1 + r from rfl, ← show co = 4 * oth.1 + r from rfl, hxs, hys] at ht
    clear_value t cs co sel oth
    by_cases htake : nzDead (s.nz sel.1 (1024 * r + sel.2)) = true ∧ nzUsable (s.nz oth.1 (1024 * r + oth.2)) = true
    · obtain ⟨h1, h2, hrest⟩ := lvAt_moved hne hxs hys (hx ▸ hsel) (hy ▸ hoth) (lvAt l cs sel.2)
      rw [if_pos (by simp [htake])] at ht
      subst ht
      exact ⟨fun _ => ⟨h1, h2, rfl⟩, fun h => absurd htake h, hrest⟩
    · rw [if_neg (by simpa using htake)] at ht
      subst ht
      refine ⟨fun h => absurd h htake, fun _ => ⟨lvAt_lvSet_same _ _ _ _ hys (hy ▸ hoth), lvAt_lvSet_ne _ _ _ _ fun h => hne (congrArg Prod.fst h), rfl⟩, fun c n _ h => ?_⟩
      exact lvAt_lvSet_ne _ _ _ _ h
  case tip =>
    intro s l m u q hq
    extract_lets lay c v j near
    have hnear (d : Int) : near d ↔ s.deadAt m (groupOf lay (q / 1024)) (j - d) = true := (s.deadAt_iff _ _ _).symm
    have hfar (d : Int) : ¬ near d ↔ s.deadAt m (groupOf lay (q / 1024)) (j - d) = false := by rw [hnear, Bool.not_eq_true]
    refine ⟨State.tip_le hq, State.tip_silent hq, fun hl hu hnone => ?none, fun hl hu hen d hd hdead hothers => ?one⟩
    case none =>
      refine (State.tip_live hq hl hu).trans (congrArg (satN 7) ?_)
      split
      next hen =>
        have hclear := hnone.resolve_left (by simp [hen])
        rw [State.tipInto_zero fun d hd => (hfar d).1 (hclear d hd)]
        rfl
      next => rfl
    case one =>
      extract_lets dq far fq ws wt there
      intro w hw1 hw2
      have hthere : there ↔ s.takesAt l m (groupOf lay (q / 1024)) (j - d - d) = true := (s.takesAt_iff _ _ _ _).symm
      refine (State.tip_live hq hl hu).trans (congrArg (satN 7) ?_)
      rw [if_pos hen, State.tipInto_one hd fun e he hne => (hfar e).1 (hothers e he hne),
        State.tipFrom_dead ((hnear d).1 hdead) (fun h => hw1 (hthere.2 h)) (fun h => hw2 (mt hthere.1 h))]
  case trim =>
    exact fun lev dt a hlev _ _ => ⟨trimLevel_le lev dt a, rfl, trimLevel_untrimmed hlev dt, fun h => trimLevel_pos h⟩

end Sys2Proof.Machine
end

section
/-!
SUPPORT. A line in flight and a module's part of it (R76, R174, R175): reading a line after it is changed, and what a lane's transmitter and the records of a
line leave of a part: all but the marks on its bundles.
-/

namespace Sys2Proof.Machine

/-! ## Reading a line back -/

/-- A change of one line's content reaches that line alone. -/
theorem State.modLine_lineK (s : State) (k j : Nat) (f : Line → Line) (hf : ∀ x, (f x).k = x.k) :
    (s.modLine k f).lineK j = (s.lineK j).map fun x => if j = k then f x else x := by
  show (s.gth.lines.map fun x => if x.k = k then f x else x).find? (fun x => x.k == j) = (s.gth.lines.find? fun x => x.k == j).map _
  induction s.gth.lines with
  | nil => rfl
  | cons x l ih =>
    have hk : (if x.k = k then f x else x).k = x.k := by split <;> simp [hf]
    rw [List.map_cons, List.find?_cons, List.find?_cons, hk]
    cases hx : x.k == j with
    | true =>
      obtain rfl : x.k = j := by simpa using hx
      rfl
    | false => exact ih

theorem State.modML_lineK (s : State) (k m j : Nat) (f : ModLine → ModLine) :
    (s.modML k m f).lineK j = (s.lineK j).map fun x => if j = k then { x with mods := spMod {} x.mods m f } else x :=
  s.modLine_lineK k j _ fun _ => rfl

section
variable (s : State) (k m : Nat)

@[simp] theorem State.modLine_out (f : Line → Line) : (s.modLine k f).out = s.out := rfl
@[simp] theorem State.modLine_thl (f : Line → Line) : (s.modLine k f).thl = s.thl := rfl
@[simp] theorem State.modLine_dram (f : Line → Line) : (s.modLine k f).dram = s.dram := rfl
@[simp] theorem State.modLine_gth_k (f : Line → Line) : (s.modLine k f).gth.k = s.gth.k := rfl
@[simp] theorem State.modLine_g (f : Line → Line) (r : FR) : (s.modLine k f).g r = s.g r := rfl
@[simp] theorem State.modML_out (f : ModLine → ModLine) : (s.modML k m f).out = s.out := rfl
@[simp] theorem State.modML_thl (f : ModLine → ModLine) : (s.modML k m f).thl = s.thl := rfl
@[simp] theorem State.modML_dram (f : ModLine → ModLine) : (s.modML k m f).dram = s.dram := rfl
@[simp] theorem State.modML_member (f : ModLine → ModLine) : (s.modML k m f).member = s.member := rfl
@[simp] theorem State.modML_gth_k (f : ModLine → ModLine) : (s.modML k m f).gth.k = s.gth.k := rfl
@[simp] theorem State.modML_g (f : ModLine → ModLine) (r : FR) : (s.modML k m f).g r = s.g r := rfl

end

/-- The line in flight that alone has its number is the one that the number names. -/
theorem State.lineK_of_unique {s : State} {x : Line} (hx : x ∈ s.gth.lines) (h : ∀ y ∈ s.gth.lines, y.k = x.k → y = x) : s.lineK x.k = some x := by
  unfold State.lineK
  cases hf : s.gth.lines.find? fun y => y.k == x.k with
  | none => exact absurd (List.find?_eq_none.1 hf x hx) (by simp)
  | some y => rw [h y (List.mem_of_find?_eq_some hf) (by simpa using List.find?_some hf)]

/-- An entry that differs from the default stands in the table. -/
theorem mem_of_spGet_ne {α : Type} {d : α} {l : Sparse α} {k : Nat} (h : spGet d l k ≠ d) : (k, spGet d l k) ∈ l := by
  unfold spGet at h ⊢
  induction l with
  | nil => exact absurd rfl h
  | cons e r ih =>
    obtain ⟨j, v⟩ := e
    simp only [spGetD] at h ⊢
    split
    next hk =>
      subst hk
      exact List.mem_cons_self
    next hk =>
      rw [if_neg hk] at h
      exact List.mem_cons_of_mem _ (ih h)

/-- Reading a table whose values are changed by a function that keeps the default. -/
theorem spGet_map_values {α : Type} {d : α} (f : α → α) (hf : f d = d) (l : Sparse α) (k : Nat) : spGet d (l.map fun z => (z.1, f z.2)) k = f (spGet d l k) := by
  unfold spGet
  induction l with
  | nil => exact hf.symm
  | cons e r ih =>
    simp only [List.map_cons, spGetD]
    split
    · rfl
    · exact ih

/-- A line stays in flight while a module with a part of it has not finished it. -/
theorem State.lineLeave_stays {s : State} {k m : Nat} {y : Line} (h : s.lineK k = some y) (hd : (y.ml m).done = true) (hs : (y.ml m).slot ≠ 16) : s.lineLeave k = s := by
  have hm : (m, y.ml m) ∈ y.mods := mem_of_spGet_ne fun he => by
    rw [Line.ml, he] at hd
    exact absurd hd (by decide)
  unfold State.lineLeave
  rw [h]
  refine if_neg fun hall => ?_
  simp only [Bool.and_eq_true, List.all_eq_true] at hall
  exact hs (by simpa using (hall.1.1 _ hm).1)

/-! ## A module's part of a line, the marks on its bundles apart -/

/-- A part with its bundles unmarked. -/
def ModLine.bare (x : ModLine) : ModLine := { x with bunds := List.replicate x.bunds.length {} }

/-- Whether the device is a folio member, the next module-line number, and of line k whether it is dead and module m's part with its bundles unmarked. -/
def State.linePart (k m : Nat) (s : State) : Bool × Nat × Option (Bool × ModLine) :=
  (s.member, s.gth.k, (s.lineK k).map fun y => (y.dead, (y.ml m).bare))

section
variable {k m : Nat}

theorem linePart_congr {s t : State} (hm : t.member = s.member) (hg : t.gth = s.gth) : t.linePart k m = s.linePart k m := by
  simp only [State.linePart, State.lineK, hm, hg]

/-- What keeps the core and the low registers keeps a line's part. -/
theorem linePart_of_core {s t : State} (h : t.core = s.core) (hl : lowKept s t) : t.linePart k m = s.linePart k m := by
  refine linePart_congr ?_ (core_gth h)
  simp only [State.member, State.gb, hl.g (core_active h) F.FOL_CTL_EN (by decide) (by decide)]

theorem ite_linePart {c : Prop} [Decidable c] {a b s : State} (h1 : a.linePart k m = s.linePart k m) (h2 : b.linePart k m = s.linePart k m) :
    (if c then a else b).linePart k m = s.linePart k m := by
  split
  · exact h1
  · exact h2

variable (s : State)

/-- A register other than FOL_CTL is no part of a line. -/
theorem State.p_linePart (f : FR) (v : Nat) (h : f.addr ≠ 0x130000) : (s.p f v).linePart k m = s.linePart k m := by
  refine linePart_congr ?_ rfl
  simp only [State.member, State.gb, s.p_g_ne f F.FOL_CTL_EN v h.symm]

theorem State.inc_linePart (f : FR) (h : f.addr ≠ 0x130000) : (s.inc f).linePart k m = s.linePart k m := s.p_linePart f _ h
theorem State.incBy_linePart (f : FR) (n : Nat) (h : f.addr ≠ 0x130000) : (s.incBy f n).linePart k m = s.linePart k m := s.p_linePart f _ h

@[simp] theorem State.modLane_linePart (i : Nat) (f : Lane → Lane) : (s.modLane i f).linePart k m = s.linePart k m := rfl
@[simp] theorem State.emit_linePart (o : Output) : (s.emit o).linePart k m = s.linePart k m := rfl
@[simp] theorem State.draw_linePart : s.draw.2.linePart k m = s.linePart k m := rfl
@[simp] theorem State.eqHold_linePart (i : Nat) : (s.eqHold i).linePart k m = s.linePart k m := rfl
@[simp] theorem State.cmdClear_linePart (i : Nat) : (s.cmdClear i).linePart k m = s.linePart k m := rfl
@[simp] theorem State.fenLow_linePart (i : Nat) : (s.fenLow i).linePart k m = s.linePart k m := rfl
@[simp] theorem State.closeRunOf_linePart (c : ECode) (key : List Nat) : (s.closeRunOf c key).linePart k m = s.linePart k m := rfl
@[simp] theorem State.record_linePart (e : Ev) : (s.record e).linePart k m = s.linePart k m := linePart_of_core (s.record_core e) (s.record_low e)
@[simp] theorem State.raise_linePart (c par : Nat) : (s.raise c par).linePart k m = s.linePart k m := linePart_of_core (s.raise_core c par) (s.raise_low c par)
@[simp] theorem State.sramClear_linePart (f : Nat × Nat → Bool) : (s.sramClear f).linePart k m = s.linePart k m :=
  linePart_of_core (s.sramClear_core f) (s.sramClear_low f)
@[simp] theorem State.sramFlip_linePart (a w : Nat) : (s.sramFlip a w).linePart k m = s.linePart k m := linePart_of_core (s.sramFlip_core a w) (s.sramFlip_low a w)

@[simp] theorem State.recordRun_linePart (e : Ev) : (s.recordRun e).linePart k m = s.linePart k m := by
  unfold State.recordRun
  split
  · exact linePart_of_core (s.extend_core _ _) (s.extend_low _ _)
  · exact s.record_linePart _

/-- A change of a part that only marks its bundles. -/
theorem State.modML_linePart (j i : Nat) (f : ModLine → ModLine) (hf : ∀ x, (f x).bare = x.bare) : (s.modML j i f).linePart k m = s.linePart k m := by
  have hl : ((s.modML j i f).lineK k).map (fun y => (y.dead, (y.ml m).bare)) = (s.lineK k).map fun y => (y.dead, (y.ml m).bare) := by
    rw [State.modML_lineK, Option.map_map]
    refine congrArg (Option.map · _) (funext fun y => ?_)
    rw [Function.comp_apply]
    split
    · by_cases hi : m = i
      · subst hi
        simp only [Line.ml, spGet_spMod_same, hf]
      · simp only [Line.ml, spGet_spMod_ne _ _ _ _ _ hi]
    · rfl
  show (s.member, s.gth.k, _) = (s.member, s.gth.k, _)
  rw [hl]

@[simp] theorem State.modBund_linePart (j i g : Nat) (f : Bund → Bund) : (s.modBund j i g f).linePart k m = s.linePart k m :=
  s.modML_linePart _ _ _ fun x => by simp [ModLine.bare]

/-! ## A lane's transmitter -/

@[simp] theorem State.setStage_linePart (i : Nat) (st : LStage) (sub : Nat) : (s.setStage i st sub).linePart k m = s.linePart k m := by
  unfold State.setStage
  dsimp only
  rw [State.p_linePart _ _ _ (show 0x80008 + 0x4000 * i ≠ 0x130000 by omega), State.modLane_linePart]
  exact ite_linePart (s.eqHold_linePart i) rfl

@[simp] theorem State.laneRetire_linePart (i : Nat) (inj : Bool) : (s.laneRetire i inj).linePart k m = s.linePart k m := by
  unfold State.laneRetire
  simp

@[simp] theorem State.noteResend_linePart (i j : Nat) (inj : Bool) : (s.noteResend i j inj).linePart k m = s.linePart k m := by
  unfold State.noteResend
  dsimp only
  exact ite_linePart rfl (ite_linePart (by simp) (by simp))

@[simp] theorem State.resend_linePart (j i g : Nat) : (s.resend j i g).linePart k m = s.linePart k m := by
  unfold State.resend
  split
  · rfl
  · rw [State.noteResend_linePart, State.inc_linePart _ _ (show 0x80088 + 0x4000 * i ≠ 0x130000 by omega)]
    simp

@[simp] theorem State.brNext_linePart (i : Nat) (l : List (Nat × Nat)) : (s.brNext i l).linePart k m = s.linePart k m := by
  induction l with
  | nil => rfl
  | cons e r ih =>
    unfold State.brNext
    exact ite_linePart (by simp) ih

@[simp] theorem State.brStart_linePart (i : Nat) : (s.brStart i).linePart k m = s.linePart k m := by
  unfold State.brStart
  exact ite_linePart rfl (s.brNext_linePart _ _)

@[simp] theorem State.laneInj_linePart (i : Nat) (on : Bool) (f : Lane → Lane) : (s.laneInj i on f).linePart k m = s.linePart k m := by
  unfold State.laneInj
  exact ite_linePart (State.inc_linePart _ _ (by decide)) rfl

@[simp] theorem State.blkOut_linePart (i : Nat) (b : LBlk) : (s.blkOut i b).linePart k m = s.linePart k m := by
  unfold State.blkOut
  dsimp only
  split
  · exact ite_linePart (by simp) rfl
  · refine ite_linePart ?_ rfl
    rw [State.emit_linePart, State.modML_linePart _ _ _ _ fun x => by simp [ModLine.bare], State.laneInj_linePart]

/-- A block boundary changes no more of a line's part than the marks on its bundles. -/
@[simp] theorem State.laneKick_linePart (i : Nat) : (s.laneKick i).linePart k m = s.linePart k m := by
  unfold State.laneKick
  extract_lets now t gap u
  have hu : u.linePart k m = s.linePart k m := (State.brStart_linePart _ i).trans (ite_linePart rfl rfl)
  clear_value u
  refine ite_linePart rfl ?_
  split
  · rw [State.blkOut_linePart, State.modLane_linePart, hu]
  · exact hu

/-! ## What is counted of a gathered line -/

@[simp] theorem State.govCount_linePart (x : Line) (i : Nat) : (s.govCount x i).linePart k m = s.linePart k m := by
  unfold State.govCount
  extract_lets ml u
  have hu : u.linePart k m = s.linePart k m := ite_linePart (s.inc_linePart _ (by decide)) rfl
  clear_value u
  refine ite_linePart hu ?_
  rw [State.recordRun_linePart, State.incBy_linePart _ _ _ (by decide), State.inc_linePart _ _ (by decide), hu]

end

@[simp] theorem State.recordRun_core (s : State) (e : Ev) : (s.recordRun e).core = s.core := by
  unfold State.recordRun
  split
  · exact s.extend_core _ _
  · exact s.record_core _

@[simp] theorem State.closeRunOf_core (s : State) (c : ECode) (key : List Nat) : (s.closeRunOf c key).core = s.core := s.core_err _

@[simp] theorem State.govCount_core (s : State) (x : Line) (m : Nat) : (s.govCount x m).core = s.core := by
  unfold State.govCount
  extract_lets ml u
  have hu : u.core = s.core := by
    simp only [u]
    split <;> simp
  clear_value u
  split <;> simp [hu]

/-! ## The line frame -/

theorem State.sendFrame_down {s : State} {x : Line} {m : Nat} (h : s.laneUp m = false) : s.sendFrame x m = s := by simp [State.sendFrame, h]

/-- The line's part once its frame has been given to the lane: 16 bundles where it had none. -/
def ModLine.framed (y : ModLine) : ModLine := { y with sent := true, bunds := if y.bunds.isEmpty then List.replicate 16 {} else y.bunds }

/-- A frame given to an ACTIVE lane: LFN shows its line (R174) and its bundles are outstanding, after what touches of the part no more than the bundles' marks. -/
theorem State.sendFrame_up {s : State} {m : Nat} (x : Line) (h : s.laneUp m = true) :
    ∃ u : State, u.g (F.THL_LANESTS_LFN m) = x.k % 65536 ∧ (∀ k i, u.linePart k i = s.linePart k i) ∧ s.sendFrame x m = u.modML x.k m ModLine.framed := by
  unfold State.sendFrame
  rw [if_neg (by simp [h])]
  extract_lets u1 lfn fs u2 u3
  have h2 (k i : Nat) : u2.linePart k i = s.linePart k i := by simp [u2, u1]
  clear_value u2
  refine ⟨u3, ?_, fun k i => ?_, rfl⟩
  · rw [State.modLane_g, State.p_g_same _ _ _ (show 0 ≤ 15 by decide) (show 15 < 32 by decide) rfl]
    exact Nat.mod_mod _ _
  · rw [State.modLane_linePart, State.p_linePart _ _ _ (show 0x80008 + 0x4000 * m ≠ 0x130000 by omega), h2]

/-! ## A pipeline's end -/

theorem State.lineDone_idle {s : State} {m : Nat} (h : (s.gth.lines.find? fun x => !(x.ml m).words.isEmpty && !(x.ml m).done) = none) : s.lineDone m = s := by
  unfold State.lineDone
  rw [h]

/-- A part of a line as `lineDone` leaves it: its words are given up where its pipeline has ended and its last slot has passed. -/
def ModLine.spent (w : ModLine) : ModLine := if w.done && w.slot == 16 then { w with words := [] } else w

/-- A line with the words of its spent parts given up. -/
def Line.spent (y : Line) : Line := { y with mods := y.mods.map fun z => (z.1, z.2.spent) }

theorem Line.spent_ml {y : Line} {m : Nat} (h : (y.ml m).slot ≠ 16) : y.spent.ml m = y.ml m := by
  rw [Line.ml, Line.spent, spGet_map_values ModLine.spent rfl]
  show (y.ml m).spent = y.ml m
  simp [ModLine.spent, h]

/-- A part of a line once steps 1 to 7 have ended (R76). -/
def ModLine.ended (w : ModLine) : ModLine := { w with done := true }

/-- The state once module m's pipeline has finished line x and it has been counted. -/
def State.lineEnded (s : State) (x : Line) (m : Nat) : State := (s.modML x.k m ModLine.ended).govCount x m

/-- The state once its frame has been given to the lane too. -/
def State.lineSent (s : State) (x : Line) (m : Nat) : State := (s.lineEnded x m).sendFrame x m

/-- On a device alone, a line without a proof-tap entry whose trigger may still come leaves its pipeline with its frame, and nothing else happens. -/
theorem State.lineDone_alone {s : State} {m : Nat} {x y : Line} (hx : (s.gth.lines.find? fun x => !(x.ml m).words.isEmpty && !(x.ml m).done) = some x) (hp : x.ptEntry = none)
    (ha : (s.lineSent x m).member = false) (hy : (s.lineSent x m).lineK x.k = some y) (hdead : y.dead = false) (hcame : (y.ml m).came = false)
    (hdone : (y.ml m).done = true) (hslot : (y.ml m).slot ≠ 16) :
    s.lineDone m = (s.lineSent x m).modLine x.k Line.spent ∧ (s.lineDone m).lineK x.k = some y.spent := by
  have hpt (u : State) : u.ptData x m = u := by simp [State.ptData, hp]
  have hz : ((s.lineSent x m).modLine x.k Line.spent).lineK x.k = some y.spent := by simp [State.modLine_lineK _ _ _ Line.spent fun _ => rfl, hy]
  have hstay : ((s.lineSent x m).modLine x.k Line.spent).lineLeave x.k = (s.lineSent x m).modLine x.k Line.spent :=
    State.lineLeave_stays (m := m) hz (by rw [Line.spent_ml hslot, hdone]) (by rwa [Line.spent_ml hslot])
  have hd : s.lineDone m = (s.lineSent x m).modLine x.k Line.spent := by
    rw [← hstay]
    unfold State.lineDone
    rw [hx]
    dsimp -zeta only
    extract_lets s1 s2 s3 s4 s5
    have h2 : s2 = s.lineSent x m := congrArg (fun u => State.sendFrame u x m) (hpt s1)
    clear_value s2
    subst h2
    have h3 : s3 = s.lineSent x m := by simp [s3, hy, hdead, hcame]
    clear_value s3
    subst h3
    have h4 : s4 = s.lineSent x m := by simp [s4, hy, ha]
    clear_value s4
    subst h4
    have h5 : s5 = (s.lineSent x m).modLine x.k Line.spent := by
      simp only [s5, hy, ha, Bool.not_false, Bool.or_true, if_true]
      rfl
    rw [h5]
  exact ⟨hd, by rw [hd, hz]⟩

/-- The line that a kept part belongs to. -/
theorem linePart_line {s t : State} {k m : Nat} {x : Line} (h : t.linePart k m = s.linePart k m) (hx : s.lineK k = some x) :
    t.member = s.member ∧ t.gth.k = s.gth.k ∧ ∃ y, t.lineK k = some y ∧ y.dead = x.dead ∧ (y.ml m).bare = (x.ml m).bare := by
  simp only [State.linePart, Prod.mk.injEq, hx, Option.map_some, Option.map_eq_some_iff] at h
  obtain ⟨hm, hk, y, hy, hd, hb⟩ := h
  exact ⟨hm, hk, y, hy, hd, hb⟩

/-- A part that differs from an ended one in the marks on its bundles alone. -/
theorem ModLine.bare_ended {w v : ModLine} (h : w.bare = v.ended.bare) :
    w.done = true ∧ w.sent = v.sent ∧ w.words = v.words ∧ w.came = v.came ∧ w.slot = v.slot ∧ w.bunds.length = v.bunds.length := by
  simp only [ModLine.bare, ModLine.ended, ModLine.mk.injEq] at h
  obtain ⟨hwords, -, -, -, hdone, hsent, hbunds, -, hcame, hslot, -, -⟩ := h
  exact ⟨hdone, hsent, hwords, hcame, hslot, by simpa using congrArg List.length hbunds⟩

section
variable {s : State} {m : Nat} {x : Line}

/-- The line whose pipeline ends, as its counts leave it. -/
theorem State.lineEnded_line (h : s.lineK x.k = some x) : (s.lineEnded x m).member = s.member ∧ (s.lineEnded x m).gth.k = s.gth.k ∧
    ∃ y, (s.lineEnded x m).lineK x.k = some y ∧ y.dead = x.dead ∧ (y.ml m).bare = (x.ml m).ended.bare := by
  have hx : (s.modML x.k m ModLine.ended).lineK x.k = some { x with mods := spMod {} x.mods m ModLine.ended } := by simp [State.modML_lineK, h]
  have hml : (x.ml m).ended = Line.ml { x with mods := spMod {} x.mods m ModLine.ended } m := (spGet_spMod_same _ _ _ _).symm
  rw [hml]
  exact linePart_line (State.govCount_linePart _ _ _) hx

theorem State.lineEnded_core : (s.lineEnded x m).core = (s.modML x.k m ModLine.ended).core := State.govCount_core _ _ _

@[simp] theorem State.lineEnded_laneUp : (s.lineEnded x m).laneUp m = s.laneUp m := by
  simp only [State.laneUp, State.lane, core_thl State.lineEnded_core, State.modML_thl]

/-- Without an ACTIVE lane the line is finished and counted, and nothing is sent. -/
theorem State.lineSent_down (h : s.laneUp m = false) : s.lineSent x m = s.lineEnded x m := State.sendFrame_down (by rw [State.lineEnded_laneUp, h])

/-- With the lane ACTIVE its frame is sent: LFN shows it, and its 16 bundles are outstanding. -/
theorem State.lineSent_up (h : s.laneUp m = true) (hx : s.lineK x.k = some x) :
    (s.lineSent x m).g (F.THL_LANESTS_LFN m) = x.k % 65536 ∧ (s.lineSent x m).member = s.member ∧ (s.lineSent x m).gth.k = s.gth.k ∧
      ∃ y w, (s.lineSent x m).lineK x.k = some y ∧ y.dead = x.dead ∧ ModLine.bare w = (x.ml m).ended.bare ∧ y.ml m = w.framed := by
  obtain ⟨hmem, hk, y, hy, hdead, hbare⟩ := State.lineEnded_line (m := m) hx
  obtain ⟨u, hlfn, hpart, hsent⟩ := State.sendFrame_up x (State.lineEnded_laneUp.trans h)
  obtain ⟨hmem', hk', z, hz, hdead', hbare'⟩ := linePart_line (hpart _ _) hy
  have hline : (s.lineSent x m).lineK x.k = some { z with mods := spMod {} z.mods m ModLine.framed } := by
    rw [State.lineSent, hsent, State.modML_lineK, hz]
    simp
  refine ⟨?_, ?_, ?_, _, z.ml m, hline, hdead'.trans hdead, hbare'.trans hbare, spGet_spMod_same _ _ _ _⟩
  · rw [State.lineSent, hsent, State.modML_g, hlfn]
  · rw [State.lineSent, hsent, State.modML_member, hmem', hmem]
  · rw [State.lineSent, hsent, State.modML_gth_k, hk', hk]

end

end Sys2Proof.Machine
end

section
/-!
PROOF. O37, the end of a line in its pipeline (R76, R174, R175) and the trim ramp (R98).
-/

namespace Sys2Proof.Machine

theorem exec_gatherLineDone (s : State) (m : Fin 32) : exec (.gatherLineDone m) s = s.does fun s => s.lineDone m := rfl

theorem exec_trimRampStep (s : State) : exec .trimRampStep s = s.does State.rampStep := rfl

section
variable {s : State} {m : Nat} {x : Line} (hf : (s.gth.lines.find? fun x => !(x.ml m).words.isEmpty && !(x.ml m).done) = some x) (hx : s.lineK x.k = some x)
  (hp : x.ptEntry = none) (hd : x.dead = false) (ha : s.member = false) (hs : (x.ml m).slot ≠ 16) (hc : (x.ml m).came = false)
include hf hx hp hd ha hs hc

/-- A line that ends in its pipeline with its lane not ACTIVE is finished for that module, and no more. -/
theorem State.lineDone_down (hl : s.laneUp m = false) :
    (s.lineDone m).out = s.out ∧ (s.lineDone m).thl = s.thl ∧ (s.lineDone m).dram = s.dram ∧ (s.lineDone m).gth.k = s.gth.k ∧
      ((s.lineDone m).lineK x.k).map (fun y => ((y.ml m).done, (y.ml m).sent, (y.ml m).words)) = some (true, (x.ml m).sent, (x.ml m).words) := by
  obtain ⟨hmem, hk, y, hy, hdead, hbare⟩ := State.lineEnded_line (m := m) hx
  have hcore := s.lineEnded_core (x := x) (m := m)
  rw [← State.lineSent_down hl] at hmem hk hy hcore
  obtain ⟨hdone, hsent, hwords, hcame, hslot, -⟩ := ModLine.bare_ended hbare
  have hstays : (y.ml m).slot ≠ 16 := by rwa [hslot]
  obtain ⟨hend, hline⟩ := State.lineDone_alone hf hp (hmem.trans ha) hy (hdead.trans hd) (hcame.trans hc) hdone hstays
  refine ⟨?_, ?_, ?_, ?_, ?_⟩
  · rw [hend, State.modLine_out, core_out hcore, State.modML_out]
  · rw [hend, State.modLine_thl, core_thl hcore, State.modML_thl]
  · rw [hend, State.modLine_dram, core_dram hcore, State.modML_dram]
  · rw [hend, State.modLine_gth_k, hk]
  · rw [hline, Option.map_some, Line.spent_ml hstays, hdone, hsent, hwords]

/-- A line that ends in its pipeline with its lane ACTIVE is sent. -/
theorem State.lineDone_up (hl : s.laneUp m = true) (hb : (x.ml m).bunds = []) :
    (s.lineDone m).g (F.THL_LANESTS_LFN m) = x.k % 65536 ∧ (s.lineDone m).gth.k = s.gth.k ∧
      ((s.lineDone m).lineK x.k).map (fun y => ((y.ml m).done, (y.ml m).sent, (y.ml m).bunds)) = some (true, true, List.replicate 16 {}) := by
  obtain ⟨hlfn, hmem, hk, y, w, hy, hdead, hbare, hw⟩ := State.lineSent_up hl hx
  obtain ⟨hdone, -, -, hcame, hslot, hlen⟩ := ModLine.bare_ended hbare
  have hbunds : w.bunds = [] := List.eq_nil_of_length_eq_zero (by rw [hlen, hb]; rfl)
  have hstays : (y.ml m).slot ≠ 16 := by rw [hw]; exact hslot.symm ▸ hs
  obtain ⟨hend, hline⟩ := State.lineDone_alone hf hp (hmem.trans ha) hy (hdead.trans hd) (by rw [hw]; exact hcame.trans hc) (by rw [hw]; exact hdone) hstays
  refine ⟨?_, ?_, ?_⟩
  · rw [hend, State.modLine_g, hlfn]
  · rw [hend, State.modLine_gth_k, hk]
  · rw [hline, Option.map_some, Line.spent_ml hstays, hw]
    simp [ModLine.framed, hdone, hbunds]

end

/-- Settles O37: a line's end by the state of its lane, and the ramp by its guard. -/
theorem lineDoneAndRamp : Obligations.LineDoneAndRamp := by
  unfold Obligations.LineDoneAndRamp
  intro s m
  refine ⟨fun hf => ?idle, fun x hf hp hd ha hl hs hc hu => ?down, fun x hf hp hd ha hl hs hc hb hu => ?up, fun hr hk hn => ?step, fun h => ?rest⟩
  case idle =>
    rw [exec_gatherLineDone]
    exact State.does_eq (State.lineDone_idle (s := s.begun) hf)
  case down =>
    rw [exec_gatherLineDone]
    exact State.does_exists (State.lineDone_down (s := s.begun) hf (State.lineK_of_unique (List.mem_of_find?_eq_some hf) hu) hp hd ha hs hc hl)
  case up =>
    rw [exec_gatherLineDone]
    exact State.does_exists (State.lineDone_up (s := s.begun) hf (State.lineK_of_unique (List.mem_of_find?_eq_some hf) hu) hp hd ha hs hc hl hb)
  case step =>
    rw [exec_trimRampStep]
    exact State.does_eq (if_pos ⟨hr, hk, hn⟩)
  case rest =>
    rw [exec_trimRampStep]
    exact State.does_eq (if_neg fun hg => h.elim (fun h => h hg.2.1) hg.2.2)

end Sys2Proof.Machine
end

section
/-!
SUPPORT. Writes to the nozzle map (R201, R202): the entry that a write puts into the map, and what it leaves as it is.
-/

namespace Sys2Proof.Machine

theorem State.noAccess_of_answers {s : State} (h : s.answers) : s.noAccess = false := by
  obtain ⟨hoff, hreset⟩ := h
  simp [State.noAccess, hoff, hreset]

/-! ## Words of a table window -/

/-- With no injection pending nothing acts on a written SRAM word (R431). -/
theorem State.sramFlip_quiet {s : State} (hi : s.err.inj = none) (a w : Nat) : s.sramFlip a w = s := by
  simp [State.sramFlip, State.injHit, hi]

/-- Rewriting SRAM words changes their marks alone, and poisons none (R430). -/
theorem State.sramClear_marks (s : State) (f : Nat × Nat → Bool) : ∃ x, s.sramClear f = { s with sram := x } ∧ (s.sram.poisoned = [] → x.poisoned = []) := by
  unfold State.sramClear
  split
  · exact ⟨s.sram, rfl, id⟩
  · exact ⟨_, rfl, fun hp => by simp [hp]⟩

/-- With no injection pending a write of an SRAM word changes the marks alone, and poisons no word (R25, R430). -/
theorem State.sramWrote_marks {s : State} (hi : s.err.inj = none) (a w : Nat) :
    ∃ x, s.sramWrote a w = { s with sram := x } ∧ (s.sram.poisoned = [] → x.poisoned = []) := by
  obtain ⟨x, hx, hp⟩ := s.sramClear_marks fun k => k == (a, w)
  exact ⟨x, by rw [State.sramWrote, hx, State.sramFlip_quiet (s := { s with sram := x }) hi], hp⟩

/-- With no injection pending a write of a window changes the window and the marks of its SRAM word, and poisons no word (R25, R430). -/
theorem State.setWin_stores {s : State} (hi : s.err.inj = none) (a v : Nat) :
    ∃ x, s.setWin a v = { s with win := spSet 0 s.win a (BitVec.ofNat 32 v), sram := x } ∧ (s.sram.poisoned = [] → x.poisoned = []) := by
  unfold State.setWin State.addrWrote
  split
  · exact State.sramWrote_marks (s := { s with win := spSet 0 s.win a (BitVec.ofNat 32 v) }) hi _ _
  · exact ⟨s.sram, rfl, id⟩

/-- A word reads back what is written to it. -/
theorem winWord_spSet_same (s : State) (x : SramSt) (a v : Nat) (hv : v < 2 ^ 32) :
    State.winWord { s with win := spSet 0 s.win a (BitVec.ofNat 32 v), sram := x } a = v := by
  simp only [State.winWord, spGet_spSet_same, BitVec.toNat_ofNat, Nat.mod_eq_of_lt hv]

/-- Every other word is as it was. -/
theorem winWord_spSet_ne (s : State) (x : SramSt) (a b v : Nat) (hb : b ≠ a) :
    State.winWord { s with win := spSet 0 s.win a (BitVec.ofNat 32 v), sram := x } b = s.winWord b := by
  simp only [State.winWord, spGet_spSet_ne _ _ _ _ _ hb]

/-! ## Entries of the map -/

/-- With no SRAM word poisoned an entry is its word of the window. -/
theorem State.nz_of_clean {s : State} (h : s.sram.poisoned = []) (m q : Nat) : s.nz m q = s.winWord (nzAddr m q) := by
  simp [State.nz, State.addrBad, nzAddr, h]

theorem State.nz_lt (s : State) (m q : Nat) : s.nz m q < 2 ^ 32 := by
  unfold State.nz
  dsimp only
  split
  · decide
  · exact (spGet 0 s.win _).isLt

/-- Two entries of the map stand at two addresses. -/
theorem nzAddr_ne {m q n r : Nat} (hq : q < 4096) (hr : r < 4096) (h : ¬ (n = m ∧ r = q)) : nzAddr n r ≠ nzAddr m q := by
  unfold nzAddr
  omega

theorem maskIn_lt {old new : Nat} (mask : Nat) (ho : old < 2 ^ 32) (hn : new < 2 ^ 32) : maskIn old mask new < 2 ^ 32 :=
  Nat.or_lt_two_pow (Nat.lt_of_le_of_lt Nat.and_le_left ho) (Nat.lt_of_le_of_lt Nat.and_le_left hn)

/-- An unconditional write that leaves STATE as it is changes the entry's word, its module's dirty bit and its module's count of dead nozzles (R202, R216, R218). -/
theorem State.applyMap_same_state {s : State} {x : MapW} (hc : x.cond = 0) (hst : nzState (s.nz x.m x.q) = nzState (maskIn (s.nz x.m x.q) x.mask x.val)) :
    ∃ n, s.applyMap x = ((s.setWin (nzAddr x.m x.q) (maskIn (s.nz x.m x.q) x.mask x.val)).modNzh fun y => { y with dirty := putBit y.dirty x.m true }).p
      (F.NZH_MODSTS_DEAD x.m) n := by
  unfold State.applyMap
  dsimp only
  rw [if_neg (by simp [hc]), if_pos hst]
  exact ⟨_, rfl⟩

section
variable {s : State} {x : MapW} (hp : s.sram.poisoned = []) (hi : s.err.inj = none) (hc : x.cond = 0)
  (hst : nzState (s.nz x.m x.q) = nzState (maskIn (s.nz x.m x.q) x.mask x.val))
include hp hi hc hst

/-- The entry takes the bits that the mask selects. -/
theorem State.applyMap_nz_same (hv : x.val < 2 ^ 32) : (s.applyMap x).nz x.m x.q = maskIn (s.nz x.m x.q) x.mask x.val := by
  obtain ⟨n, hn⟩ := State.applyMap_same_state hc hst
  obtain ⟨y, hy, hyp⟩ := State.setWin_stores hi (nzAddr x.m x.q) (maskIn (s.nz x.m x.q) x.mask x.val)
  rw [hn, hy, State.nz_of_clean (hyp hp)]
  exact winWord_spSet_same s y _ _ (maskIn_lt _ (s.nz_lt _ _) hv)

/-- Every other entry is as it was. -/
theorem State.applyMap_nz_ne {m q : Nat} (hxq : x.q < 4096) (hq : q < 4096) (h : ¬ (m = x.m ∧ q = x.q)) : (s.applyMap x).nz m q = s.nz m q := by
  obtain ⟨n, hn⟩ := State.applyMap_same_state hc hst
  obtain ⟨y, hy, hyp⟩ := State.setWin_stores hi (nzAddr x.m x.q) (maskIn (s.nz x.m x.q) x.mask x.val)
  rw [hn, hy, State.nz_of_clean (hyp hp), State.nz_of_clean hp m q]
  exact winWord_spSet_ne s y _ _ _ (nzAddr_ne hxq hq h)

omit hp in
/-- Every register but the module's NZH_MODSTS is as it was. -/
theorem State.applyMap_reg {b : Nat} (hb : b ≠ (F.NZH_MODSTS_DEAD x.m).addr) : (s.applyMap x).reg b = s.reg b := by
  obtain ⟨n, hn⟩ := State.applyMap_same_state hc hst
  obtain ⟨y, hy, -⟩ := State.setWin_stores hi (nzAddr x.m x.q) (maskIn (s.nz x.m x.q) x.mask x.val)
  rw [hn, State.p_reg_ne _ _ _ _ hb, hy]
  rfl

end

/-- A conditional write whose condition fails is dropped and counted (R202). -/
theorem State.applyMap_stale {s : State} {y : MapW} (h : (y.cond = 1 ∧ nzState (s.nz y.m y.q) ≠ y.from') ∨ (y.cond = 2 ∧ nzUsable (s.nz y.m y.q) = false) ∨
    (y.cond = 3 ∧ maybeFrom (nzState (s.nz y.m y.q)) (nzState y.val) = false)) : s.applyMap y = s.inc F.NZH_CNT_STALEWR_COUNT := by
  unfold State.applyMap
  dsimp only
  rw [if_pos (by simpa using h)]

end Sys2Proof.Machine
end

section
/-!
PROOF. O45, writes to the nozzle map (R201 to R205).
-/

namespace Sys2Proof.Machine

theorem State.standby_of_alone {s : State} (h : s.member = false) : s.standby = false := by simp [State.standby, h]

theorem State.primary_of_alone {s : State} (h : s.member = false) : s.primary = false := by simp [State.primary, h]

theorem State.standby_of_primary {s : State} (h : s.primary = true) : s.standby = false := by
  simp only [State.primary, Bool.and_eq_true, Bool.not_eq_true'] at h
  simp [State.standby, h.2]

/-! ## A software write to the map window -/

/-- The map write that a software write of word `w` to word `i` of the window makes (R202). -/
def State.windowMapW (s : State) (i w : Nat) : MapW :=
  { m := i / 4096, q := i % 4096, e := none, src := 1, mask := nzMask (s.g F.NZH_MAPCFG_WRMASK), val := w, cond := 0, from' := 0 }

/-- A write to the map's window is a map write (R435). -/
theorem State.wr_mapWindow {s : State} (hs : s.answers) (src : Src) {i : Nat} (hi : i < 131072) (w : Nat) :
    s.wr src (0x400000 + 4 * i) w = (s.mapWrite (0x400000 + 4 * i) w src).2 := by
  have hwin : windowOf (0x400000 + 4 * i) = some (0x400000, 0x80000, true) := by
    have hlow : 0x400000 ≤ 0x400000 + 4 * i := by omega
    have hhigh : 0x400000 + 4 * i < 0x400000 + 0x80000 := by omega
    simp [windowOf, windows, hhigh]
  have hlog : inLog (0x400000 + 4 * i) = false := by simp [inLog]; omega
  have hlock : lockOf (0x400000 + 4 * i) = none := if_neg (by omega)
  have halign : (0x400000 + 4 * i) % 4 = 0 := by omega
  simp [State.wr, State.writeAt, addrExists, hwin, hlog, hlock, halign, State.noAccess_of_answers hs, State.writeWindow]

/-- What a software write to the map window does (R202, R204, R205). -/
theorem State.wr_map {s : State} (hs : s.answers) {src : Src} (hl : src ≠ .loader) {i : Nat} (hi : i < 131072) (w : Nat) :
    s.wr src (0x400000 + 4 * i) w =
      if s.running && s.standby then s.recReg E.NZH_MAPWR (0x400000 + 4 * i) src
      else if nzMask (s.g F.NZH_MAPCFG_WRMASK) = 0 then s
      else if !s.running then s.applyMap (s.windowMapW i w)
      else if s.primary then s.stage { s.windowMapW i w with e := some ((s.kNow + s.g F.NZH_MAPCFG_ADLY) % 65536) }
      else s.modNzh fun y => { y with queue := y.queue ++ [s.windowMapW i w] } := by
  have hword : (0x400000 + 4 * i - 0x400000) / 4 = i := by omega
  rw [State.wr_mapWindow hs src hi]
  simp only [State.mapWrite, if_neg hl, hword, State.windowMapW]
  split
  · rfl
  · split
    · rfl
    · split
      · rfl
      · split <;> rfl

theorem exec_nozzleMapWindowWrite (s : State) (src : Src) (i : Fin 131072) (w : Word) :
    exec (.nozzleMapWindowWrite src i w) s = s.does fun s => s.wr src (0x400000 + 4 * i) w.toNat := rfl

/-! ## A write that waited -/

theorem exec_mapWriteStage (s : State) (m : Fin 32) : exec (.mapWriteStage m) s = s.does fun s => s.stageWaiting m := rfl

theorem State.stageWaiting_idle {s : State} {m : Nat} (h : (s.nzh.waiting.find? fun y => y.m == m) = none ∨ 1024 ≤ (s.stagedOf m).length) :
    s.stageWaiting m = s := by
  unfold State.stageWaiting
  split
  · next y hy =>
    rw [hy] at h
    exact if_pos (h.resolve_left nofun)
  · rfl

theorem State.stageWaiting_room {s : State} {m : Nat} {y : MapW} (hy : (s.nzh.waiting.find? fun y => y.m == m) = some y) (h : (s.stagedOf m).length < 1024) :
    s.stageWaiting m = (s.modNzh fun x => { x with waiting := x.waiting.erase y }).stageEnter y := by
  simp only [State.stageWaiting, hy, if_neg (Nat.not_le.2 h)]

/-- Settles O45: a window write by the state and the folio role, an entry by the stores that it changes, a write that waited by the room in its list. -/
theorem mapWrites : Obligations.MapWrites := by
  unfold Obligations.MapWrites
  intro s src i w m hs hp hi hl
  have hwr := State.wr_map (s := s.begun) hs hl i.isLt w.toNat
  refine ⟨fun hm hr => ?none, fun hm hr => ?atOnce, fun hm hr ha => ?alone, fun hm hr hpr => ?primary, fun hr hsb => ?standby, fun hst => ?entry,
    fun y hy => State.applyMap_stale hy, fun h => ?full, fun y hy hroom => ?room⟩
  case none =>
    have hr' : ¬ (s.running && s.standby) = true := by simpa using hr
    rw [exec_nozzleMapWindowWrite]
    exact State.does_eq (hwr.trans ((if_neg hr').trans (if_pos hm)))
  case atOnce =>
    have hr' : ¬ (s.running && s.standby) = true := by simp [hr]
    have hr'' : (!s.running) = true := by simp [hr]
    rw [exec_nozzleMapWindowWrite]
    exact State.does_eq (hwr.trans ((if_neg hr').trans ((if_neg hm).trans (if_pos hr''))))
  case alone =>
    have hsb : ¬ (s.running && s.standby) = true := by simp [State.standby_of_alone ha]
    have hr' : ¬ (!s.running) = true := by simp [hr]
    have hpr : ¬ s.primary = true := by simp [State.primary_of_alone ha]
    rw [exec_nozzleMapWindowWrite]
    exact State.does_eq (hwr.trans ((if_neg hsb).trans ((if_neg hm).trans ((if_neg hr').trans (if_neg hpr)))))
  case primary =>
    have hsb : ¬ (s.running && s.standby) = true := by simp [State.standby_of_primary hpr]
    have hr' : ¬ (!s.running) = true := by simp [hr]
    rw [exec_nozzleMapWindowWrite]
    exact State.does_eq (hwr.trans ((if_neg hsb).trans ((if_neg hm).trans ((if_neg hr').trans (if_pos hpr)))))
  case standby =>
    have hsb : (s.running && s.standby) = true := by simp [hr, hsb]
    rw [exec_nozzleMapWindowWrite]
    exact State.does_eq (hwr.trans (if_pos hsb))
  case entry =>
    have hq : i.val % 4096 < 4096 := Nat.mod_lt _ (by decide)
    exact ⟨State.applyMap_nz_same hp hi rfl hst w.isLt, fun b hb => State.applyMap_reg hi rfl hst hb,
      fun n q h => State.applyMap_nz_ne hp hi rfl hst hq q.isLt h⟩
  case full =>
    rw [exec_mapWriteStage]
    exact State.does_eq (State.stageWaiting_idle (s := s.begun) h)
  case room =>
    rw [exec_mapWriteStage]
    exact State.does_eq (State.stageWaiting_room (s := s.begun) hy hroom)

end Sys2Proof.Machine
end

section
/-!
SUPPORT. Writes of live fields (R7, R12): what a register of RW fields of class [L] takes, and the fields that a write under a mask leaves.
-/

namespace Sys2Proof.Machine

/-! ## Bits -/

theorem bitOf_eq (v i : Nat) : bitOf v i = (bitsOf v i i == 1) := by simp [bitOf, bitsOf]

/-- A bit put into a word, and the others. -/
theorem bitOf_putBit (v i j : Nat) (b : Bool) : bitOf (putBit v i b) j = if j = i then b else bitOf v j := by
  rw [bitOf_eq, bitOf_eq, putBit]
  split
  · next h =>
    rw [h, bitsOf_putBits_same _ _ _ _ (Nat.le_refl _)]
    cases b <;> simp [b2n]
  · next h =>
    rcases Nat.lt_or_gt_of_ne h with hlt | hgt
    · rw [bitsOf_putBits_below _ _ _ _ _ _ (Nat.le_refl _) hlt (Nat.le_refl _)]
    · rw [bitsOf_putBits_above _ _ _ _ _ _ (Nat.le_refl _) hgt]

theorem testBit_bitsOf (v hi lo i : Nat) : (bitsOf v hi lo).testBit i = (decide (i < hi + 1 - lo) && v.testBit (lo + i)) := by
  rw [bitsOf, Nat.testBit_mod_two_pow, Nat.testBit_div_two_pow, Nat.add_comm lo i]

/-- A field whose bits a mask selects reads what is written under the mask. -/
theorem bitsOf_maskIn {m hi lo : Nat} (old new : Nat) (hhi : hi < 32) (hm : ∀ i < hi + 1 - lo, m.testBit (lo + i) = true) :
    bitsOf (maskIn old m new) hi lo = bitsOf new hi lo := by
  refine Nat.eq_of_testBit_eq fun i => ?_
  rw [testBit_bitsOf, testBit_bitsOf]
  by_cases hi' : i < hi + 1 - lo
  · have hkeep : Nat.testBit 0xFFFFFFFF (lo + i) = true := by
      rw [show (0xFFFFFFFF : Nat) = 2 ^ 32 - 1 from rfl, Nat.testBit_two_pow_sub_one, decide_eq_true_eq]
      omega
    show (_ && (old &&& (m ^^^ 0xFFFFFFFF) ||| new &&& m).testBit (lo + i)) = _
    simp [Nat.testBit_or, Nat.testBit_and, Nat.testBit_xor, hm i hi', hkeep]
  · simp [hi']

/-! ## Registers of live fields -/

/-- A register whose RW fields are of class [L], without a behaviour of its own as it is written. -/
def liveAddr (a : Nat) : Bool :=
  fieldAddr a && regMask a isS == 0 && [Cls.bLine, Cls.bQuire, Cls.bSig, Cls.bSwath].all (fun c => clsMask a c == 0) && (sramOf a).isNone && !pairReg a
    && !(decide (0x30080 ≤ a) && decide (a < 0x300C0)) && !(decide (0x50100 ≤ a) && decide (a < 0x50180))

/-- Such a register takes the word's RW bits in every state, and the write starts what it starts. -/
theorem State.wr_live {s : State} (src : Src) {a : Nat} (w : Nat) (ha : liveAddr a = true) (hs : s.answers) :
    ∃ t : State, s.wr src a w = t.started src none a w (s.reg a) ∧ t.nzh = s.nzh ∧ t.reg a = maskIn (s.reg a) (regMask a isBL) w % 2 ^ 32 ∧
      ∀ b, b ≠ a → t.reg b = s.reg b := by
  simp only [liveAddr, Bool.and_eq_true, beq_iff_eq, Bool.not_eq_true', Option.isNone_iff_eq_none, List.all_cons, List.all_nil, Bool.and_true] at ha
  obtain ⟨⟨⟨⟨⟨⟨hf, h1⟩, c1, c2, c3, c4⟩, h4⟩, hp⟩, h5⟩, h6⟩ := ha
  have e5 : ¬ (0x30080 ≤ a ∧ a < 0x300C0) := by simpa using h5
  have e6 : ¬ (0x50100 ≤ a ∧ a < 0x50180) := by simpa using h6
  have hfields : (s.writeFields src a w).2 = if maskIn (s.reg a) (regMask a isBL) w = s.reg a then s else s.setReg a (maskIn (s.reg a) (regMask a isBL) w) := by
    simp only [State.writeFields, h1, maskIn_zero _ _ (s.reg_lt a), State.valueRecs_none _ _ _ _ e5 e6, hp, bne_self_eq_false, Bool.and_false, Bool.false_and,
      Bool.false_eq_true, if_false, ite_self, List.foldl_cons, List.foldl_nil, State.copyAt, c1, c2, c3, c4, State.addrWrote, h4, if_true]
  refine ⟨_, s.wr_fields src a w hf hs, ?_⟩
  rw [hfields]
  split
  · next heq => exact ⟨rfl, by rw [heq, Nat.mod_eq_of_lt (s.reg_lt a)], fun _ _ => rfl⟩
  · exact ⟨rfl, s.setReg_reg_same _ _, fun b hb => s.setReg_reg_ne _ _ b hb⟩

end Sys2Proof.Machine
end

section
/-!
PROOF. O46, measurement, sweeps and dumps (R206, R207, R209, R218, R220).
-/

namespace Sys2Proof.Machine

/-! ## MEAS -/

theorem exec_measSend (s : State) (m : Fin 32) : exec (.measSend m) s = s.does fun s => s.measSend m := rfl

section
variable {s : State} {m : Nat}

/-- Without a lost frame nothing is closed. -/
theorem State.measClose_kept (h : ∀ x, s.measOf m = some x → x.lost = false) : s.measClose m = s := by
  unfold State.measClose
  split
  · next x hx => rw [if_neg (by simp [h x hx])]
  · rfl

/-- MEAS is not sent where it is not allowed, or with one in progress (R206). -/
theorem State.measSend_held (h : ∀ x, s.measOf m = some x → x.lost = false) (hno : s.measAllowed m = false ∨ (s.measOf m).isSome = true) :
    s.measSend m = s := by
  unfold State.measSend
  rw [State.measClose_kept h]
  exact if_pos (by simpa using hno)

/-- Else it goes to the first candidate alone (R211). -/
theorem State.measSend_cand {c : Cand} {rest : List Cand} (h : s.measOf m = none) (hok : s.measAllowed m = true) (hc : s.candsOf m = c :: rest) :
    s.measSend m = (s.setMeas m (some ⟨c.q, 1, true, false⟩)).command m 4 (c.q + 4096) := by
  have hclose : s.measClose m = s := State.measClose_kept fun x hx => by rw [h] at hx; nomatch hx
  simp [State.measSend, hclose, h, hok, hc]

end

/-! ## NZH_CMD -/

theorem exec_nozzleSweep (s : State) (src : Src) : exec (.nozzleSweep src) s = s.does fun s => s.strobe src 0x100008 1 := rfl

theorem exec_nozzleMapDump (s : State) (src : Src) : exec (.nozzleMapDump src) s = s.does fun s => s.strobe src 0x100008 2 := rfl

theorem exec_nozzleMapDumpDirty (s : State) (src : Src) : exec (.nozzleMapDumpDirty src) s = s.does fun s => s.strobe src 0x100008 4 := rfl

/-- NZH_CMD has no RW field: what is strobed is its commands. -/
theorem State.strobe_nzhCmd {s : State} (hs : s.answers) (src : Src) {bits : Nat} (hb : strobeAddr 0x100008 bits = true) :
    s.strobe src 0x100008 bits = s.nzhCmd src bits := by
  have hrw : rwMask 0x100008 = 0 := by decide
  have hword : Nat.lor (maskIn 0 0 (s.reg 0x100008)) bits = bits := by
    rw [maskIn_zero 0 _ (by decide)]
    exact Nat.zero_or bits
  rw [s.strobe_started src _ _ hb hs, hrw, hword]
  rfl

theorem State.strobe_sweep {s : State} (hs : s.answers) (src : Src) : s.strobe src 0x100008 1 = s.sweepCmd src := s.strobe_nzhCmd hs src (by decide)

theorem State.strobe_dump {s : State} (hs : s.answers) (src : Src) : s.strobe src 0x100008 2 = s.dumpCmd src true := s.strobe_nzhCmd hs src (by decide)

theorem State.strobe_dumpDirty {s : State} (hs : s.answers) (src : Src) : s.strobe src 0x100008 4 = s.dumpCmd src false :=
  s.strobe_nzhCmd hs src (by decide)

/-! ## NZH_INJ -/

theorem exec_nzhInjArm (s : State) (src : Src) (m : Fin 32) (code : BitVec 10) :
    exec (.nzhInjArm src m code) s = s.does fun s => s.wr src 0x100040 (2 ^ 31 + 2 ^ 16 * m + code.toNat) := rfl

/-- ARM arms the injection with the module and the code of the word, and changes no other register (R220). -/
theorem State.wr_nzhInj {s : State} (hs : s.answers) (src : Src) {m code : Nat} (hm : m < 32) (hc : code < 1024) :
    let t := s.wr src 0x100040 (2 ^ 31 + 2 ^ 16 * m + code)
    t.nzh = { s.nzh with inj := true } ∧ t.g F.NZH_INJ_MOD = m ∧ t.g F.NZH_INJ_CODE = code ∧ ∀ b, b ≠ 0x100040 → t.reg b = s.reg b := by
  generalize hw : 2 ^ 31 + 2 ^ 16 * m + code = w
  obtain ⟨t, ht, hnzh, hreg, hother⟩ := State.wr_live (s := s) src w (a := 0x100040) (by decide) hs
  have hmask : regMask 0x100040 isBL = 0x1F03FF := by decide
  have harm : bitOf w 31 = true := by simp only [bitOf, beq_iff_eq]; omega
  have hstart : s.wr src 0x100040 w = t.nzhInjArm := by
    rw [ht]
    exact if_pos harm
  have hlt : maskIn (s.reg 0x100040) 0x1F03FF w < 2 ^ 32 := maskIn_lt _ (s.reg_lt _) (by omega)
  rw [hmask, Nat.mod_eq_of_lt hlt] at hreg
  dsimp only
  rw [hstart]
  refine ⟨congrArg (fun x : NzhSt => { x with inj := true }) hnzh, ?_, ?_, hother⟩
  · show bitsOf (t.reg 0x100040) 20 16 = m
    rw [hreg, bitsOf_maskIn _ _ (by decide) (by decide), bitsOf]
    omega
  · show bitsOf (t.reg 0x100040) 9 0 = code
    rw [hreg, bitsOf_maskIn _ _ (by decide) (by decide), bitsOf]
    omega

/-! ## Dumps -/

/-- In RUN and HOLD a dump waits for its modules' line boundaries (R218). -/
theorem State.dumpStart_running {s : State} {ms : List Nat} (hms : ms ≠ []) (hr : s.running = true) :
    s.dumpStart ms = (s.p F.NZH_STS_DUMPBUSY 1).modNzh fun x => { x with dump := some (ms, []) } := by
  have hne : ¬ ms.isEmpty = true := by simpa using hms
  exact (if_neg hne).trans (if_pos hr)

/-- An upload leaves the dirty bits. -/
theorem State.dumpUpload_dirty (s : State) : s.dumpUpload.nzh.dirty = s.nzh.dirty := by
  unfold State.dumpUpload
  split <;> rfl

/-- The first module that a dump waits for is copied: its dirty bit is cleared, and the dump waits for the others, if any. -/
theorem State.dumpCopy_first {s : State} {k : Nat} {l : List Nat} {b : Bytes} (h : s.nzh.dump = some (k :: l, b)) :
    (s.dumpCopy k).nzh.dirty = putBit s.nzh.dirty k false ∧ (l ≠ [] → ∃ b', (s.dumpCopy k).nzh.dump = some (l, b')) := by
  simp only [State.dumpCopy, h, List.contains_cons, beq_self_eq_true, Bool.true_or, if_true, List.erase_cons_head]
  split
  · next hl => exact ⟨State.dumpUpload_dirty _, fun hne => absurd (List.isEmpty_iff.1 hl) hne⟩
  · exact ⟨rfl, fun _ => ⟨_, rfl⟩⟩

/-- Once every module that a dump waits for is copied, their dirty bits are clear and the others as they were. -/
theorem foldl_dumpCopy_dirty (l : List Nat) (s : State) (b : Bytes) (h : s.nzh.dump = some (l, b)) (j : Nat) :
    bitOf (l.foldl State.dumpCopy s).nzh.dirty j = (bitOf s.nzh.dirty j && decide (j ∉ l)) := by
  induction l generalizing s b with
  | nil => simp
  | cons k l ih =>
    obtain ⟨hdirty, hdump⟩ := State.dumpCopy_first h
    have hbit : bitOf (s.dumpCopy k).nzh.dirty j = (bitOf s.nzh.dirty j && decide (j ≠ k)) := by
      rw [hdirty, bitOf_putBit]
      by_cases hj : j = k <;> simp [hj]
    rw [List.foldl_cons]
    by_cases hl : l = []
    · simp [hl, hbit]
    · obtain ⟨b', hb'⟩ := hdump hl
      rw [ih _ b' hb', hbit]
      simp [Bool.and_assoc]

/-- Outside RUN and HOLD a dump leaves at once, with its modules' dirty bits cleared (R218). -/
theorem State.dumpStart_dirty {s : State} {ms : List Nat} (hr : s.running = false) {k : Nat} (hk : k ∈ ms) : bitOf (s.dumpStart ms).nzh.dirty k = false := by
  have hne : ¬ ms.isEmpty = true := by
    rw [List.isEmpty_iff]
    rintro rfl
    simp at hk
  have hr' : ¬ s.running = true := by simp [hr]
  have hrest : s.dumpStart ms = ms.foldl State.dumpCopy ((s.p F.NZH_STS_DUMPBUSY 1).modNzh fun x => { x with dump := some (ms, []) }) :=
    (if_neg hne).trans (if_neg hr')
  rw [hrest, foldl_dumpCopy_dirty ms _ [] rfl]
  simp [hk]

/-- Settles O46: MEAS by what stands in its way, the commands of NZH_CMD by their own rules, a dump's dirty bits by induction on its modules. -/
theorem measureAndDump : Obligations.MeasureAndDump := by
  unfold Obligations.MeasureAndDump
  intro s src m code
  refine ⟨fun hn hno => ?forbidden, fun x hx hl => ?busy, fun c rest hn hok hc => ?cand, fun hs => ⟨fun hd => ?sweep, fun hd => ?noSweep, fun hb => ?dumping,
    fun hb => ⟨?dump, ?dumpDirty⟩, ?arm⟩, fun ms hms hr => ?waits, fun ms hr k hk => State.dumpStart_dirty hr hk⟩
  case forbidden =>
    rw [exec_measSend]
    exact State.does_eq (State.measSend_held (s := s.begun) (fun x hx => nomatch hn.symm.trans hx) (.inl hno))
  case busy =>
    have hlost (y : Meas) (hy : s.measOf m = some y) : y.lost = false := by rwa [← Option.some.inj (hx.symm.trans hy)]
    rw [exec_measSend]
    exact State.does_eq (State.measSend_held (s := s.begun) hlost (.inr (Option.isSome_of_mem hx)))
  case cand =>
    rw [exec_measSend]
    exact State.does_eq (State.measSend_cand (s := s.begun) hn hok hc)
  case sweep =>
    rw [exec_nozzleSweep]
    exact State.does_eq ((State.strobe_sweep (s := s.begun) hs src).trans (if_pos hd))
  case noSweep =>
    rw [exec_nozzleSweep]
    exact State.does_eq ((State.strobe_sweep (s := s.begun) hs src).trans (if_neg hd))
  case dumping =>
    intro c hc
    simp only [List.mem_cons, List.not_mem_nil, or_false] at hc
    rcases hc with rfl | rfl
    · rw [exec_nozzleMapDump]
      exact State.does_eq ((State.strobe_dump (s := s.begun) hs src).trans (if_pos hb))
    · rw [exec_nozzleMapDumpDirty]
      exact State.does_eq ((State.strobe_dumpDirty (s := s.begun) hs src).trans (if_pos hb))
  case dump =>
    rw [exec_nozzleMapDump]
    exact State.does_eq ((State.strobe_dump (s := s.begun) hs src).trans (if_neg (by simp [hb])))
  case dumpDirty =>
    rw [exec_nozzleMapDumpDirty]
    exact State.does_eq ((State.strobe_dumpDirty (s := s.begun) hs src).trans (if_neg (by simp [hb])))
  case arm =>
    rw [exec_nzhInjArm]
    exact State.does_exists (State.wr_nzhInj (s := s.begun) hs src m.isLt code.isLt)
  case waits =>
    rw [State.dumpStart_running hms hr]
    have hbusy : (s.p F.NZH_STS_DUMPBUSY 1).g F.NZH_STS_DUMPBUSY = 1 := s.p_g_same F.NZH_STS_DUMPBUSY 1 (by decide) (by decide) rfl
    exact ⟨beq_iff_eq.2 hbusy, rfl, rfl⟩

end Sys2Proof.Machine
end
